-- ==== Sys2Proof/Word.lean ====
section
/-! DEFINITION. The word types of the block: bytes, 64-bit register words, FP32 bit patterns. -/

namespace Sys2Proof

/-- One byte of a memory, a message or a record (00 R11). -/
abbrev Byte := BitVec 8

/-- One register of the 1 MiB register window (00 R13). -/
abbrev Word64 := BitVec 64

/-- The bit pattern of one FP32 (or INT32) value (05 R193). -/
abbrev F32 := BitVec 32

/-- A command handle: ring number in [31:26], sequence number in [25:0] (03 R108). -/
abbrev Handle := BitVec 32

/-- The handle value that means no handle (03 R108). -/
def noHandle : Handle := 0xFFFFFFFF#32

/-- Nanoseconds in the model's time unit, the picosecond. -/
def ns : Nat := 1000

/-- Microseconds in picoseconds. -/
def us : Nat := 1000000

/-- Milliseconds in picoseconds. -/
def ms : Nat := 1000000000

/-- Seconds in picoseconds. -/
def sec : Nat := 1000000000000

end Sys2Proof
end

