-- ==== Sys2Proof/Types.lean ====
section
/-! DEFINITION. The data that commands carry: software sources, received frames and messages, Table Keeper bodies (12 R481),
packets of the host port and the records of boot and configuration. -/

namespace Sys2Proof

/-- The software sources of register accesses (16 R572); a REG message names its sender. -/
inductive Src where
  | host
  | jtag
  | reg (block : Nat)
  | fw
  deriving DecidableEq, Repr

/-- A frame that has passed the MAC and the boundary FIFO: its octets as sent, from the destination address on, without the MACsec
ICV and the FCS. -/
structure Frame where
  /-- Octets that MACsec enciphers stand deciphered (log 88). -/
  bytes : List Byte
  /-- The frame's ICV verifies under the association that its SecTAG names (09 R330). -/
  icvOk : Bool
  deriving DecidableEq, Repr

/-- What TABLE_CREATE asks of the coordinator (12 R449, R452; 03 R132). -/
structure CreateArgs where
  fmt : Nat
  rows : Nat
  tflags : Nat
  recipe : Nat
  place : Nat
  nblk : Nat
  ctx : Nat
  rcp : List Byte
  /-- What the issuing block has found itself: it holds 16,384 records; the status of its own checks of the format, the recipe and its
  room (02 R49). -/
  full : Bool
  home : Nat
  /-- The owner set and tier that the coordinator fixes. -/
  owners : List Nat
  tier : Nat
  deriving DecidableEq, Repr

/-- A placement entry in fields (02 R64). -/
structure PEntry where
  owner : Nat
  tier : Nat
  repl : Bool
  state : Nat
  epoch : Nat
  deriving DecidableEq, Repr

/-- The phases that a holder carries out (12 R459, R461). -/
inductive VPhase where
  /-- Reserve the storage of the new version, a map and a slot (12 R459 step 1 and 2). -/
  | publishReserve
  /-- Copy the groups held here (12 R459 step 3). -/
  | publishCopy
  /-- The published fields become visible (12 R459 step 4). -/
  | publish
  /-- Release what an abandoned publish reserved. -/
  | publishAbort
  | prepare
  | switch
  | retire
  /-- Every holder has reported Retire: the retired version's storage is freed. -/
  | free
  deriving DecidableEq, Repr

/-- A table record's fields with the owner set that the coordinator fixed (02 R50, 12 R447). -/
structure RecordData where
  tbl : Nat
  curVer : Nat
  pubVer : Nat
  rows : Nat
  fmt : Nat
  ctx : Nat
  flags : Nat
  recipe : Nat
  owners : List Nat
  otier : Nat
  holders : List Nat
  /-- Mapped groups of the current version. -/
  curMap : List (Nat × PEntry)
  /-- Mapped groups of the published version. -/
  pubMap : List (Nat × PEntry)
  /-- Replica map: group and the block of its secondary. -/
  replicas : List (Nat × Nat)
  defRow : List Byte
  rcp : List Byte
  /-- Auxiliary regions of the two versions (02 R83, 06 R225). -/
  curAux : List Byte
  pubAux : List Byte
  deriving DecidableEq, Repr

/-- Operations of a coordinator (12 R447), and of the source of a move. -/
inductive OpKind where
  | create (a : CreateArgs)
  | destroy
  /-- INIT, and the descriptor that must agree; 0 for none (03 R132). -/
  | publish (init fmt : Nat)
  | switch (ver : Nat)
  /-- Next group, groups left, destination. -/
  | migrate (ver group n dblk dtier : Nat)
  /-- Holders still have to report before the source frees its copy (R466 step 6). -/
  | relWait (ver group src : Nat)
  /-- A move or a rebuild at the group's owner. -/
  | moving (ver group dblk dtier : Nat) (rebuild : Bool)
  /-- Secondaries of a failed block's groups become primaries, then every block redelivers (R471); a failed tier names its tier. -/
  | promotion (failed : Nat)
  deriving DecidableEq, Repr

/-- One update (12 R451). -/
inductive TkUpdate where
  /-- A placement entry of a version. -/
  | entry (tbl ver group : Nat) (e : PEntry)
  /-- The secondary copy at the receiver becomes the primary (12 R471 step 2). -/
  | promote (tbl ver group : Nat)
  /-- A whole record, with maps. -/
  | record (r : RecordData)
  /-- The stored default row. -/
  | defRow (tbl : Nat) (bytes : List Byte)
  /-- Bytes of the auxiliary region of a published version from an offset (02 R88). -/
  | aux (tbl ver off : Nat) (bytes : List Byte)
  /-- A copy of the auxiliary region for a block that takes a group of the version (02 R83). -/
  | region (tbl ver off : Nat) (bytes : List Byte)
  /-- The table is being destroyed: refuse it (02 R92). -/
  | destroyBegin (tbl : Nat)
  /-- Free every storage of the table (02 R92). -/
  | destroyEnd (tbl : Nat)
  /-- The owner set changed. -/
  | owners (tbl : Nat) (l : List Nat)
  /-- The secondary of a group lies at a block. -/
  | replica (tbl group block : Nat)
  /-- Every promoted group of a failed block is PROMOTING: redeliver (R471 step 3). -/
  | redeliver (tbl failedBlock : Nat)
  /-- The mirror of an operation in progress, its phase and the groups it has moved (R447). -/
  | op (tbl id phase count : Nat) (kind : OpKind) (from_ handle xid : Nat)
  /-- An operation has ended. -/
  | opEnd (tbl id : Nat)
  deriving DecidableEq, Repr

/-- A row add as it travels (09 R358): row index and full-width elements. -/
abbrev RowAdd := Nat × List F32

/-- One held partial (06 R237): version, source block, row, kind (true for plain) and value. -/
structure HeldData where
  tbl : Nat
  ver : Nat
  src : Nat
  row : Nat
  plain : Bool
  val : List F32
  deriving DecidableEq, Repr

/-- What a REPLICA_WRITE or GROUP_COPY stores: rows with accumulators (06 R235, 12 R466). -/
structure CopyData where
  tbl : Nat
  ver : Nat
  group : Nat
  /-- Row position in the group and its stored bytes. -/
  rows : List (Nat × List Byte)
  /-- Row position in the group and its accumulator bytes. -/
  accs : List (Nat × List Byte)
  held : List HeldData
  /-- Rows whose mirrored partials a commit has taken (06 R240, R242). -/
  taken : List Nat
  /-- Words of the group's storage, by their number, that the sender could not correct (08 R310). -/
  bad : List Nat
  /-- New value of the last committed step of the group (06 R241); none leaves it. -/
  step : Option (Option Nat)
  load : Nat
  /-- Identifiers of the recent-add log: origin, handle, row (06 R236). -/
  log : List (Nat × Nat × Nat)
  deriving DecidableEq, Repr

/-- A load report (12 R464). -/
structure LoadReport where
  tbl : Nat
  sum : Nat
  hottest : List (Nat × Nat)
  free : List Nat
  deriving DecidableEq, Repr

/-- A Table Keeper request, by the name of its message (12 R481). The bodies belong to the firmware line, so their fields are
the model's; they carry what the rules say each message is for. -/
inductive TkBody where
  /-- Claim an identifier and create its table (12 R449). -/
  | claim (tbl : Nat) (a : CreateArgs)
  /-- Release an identifier: TABLE_DESTROY (02 R92). -/
  | release (tbl : Nat)
  /-- Ask the coordinator to publish, switch or migrate (12 R458, R468). -/
  | publishReq (tbl init fmt : Nat)
  | switchReq (tbl ver : Nat)
  | migrateReq (tbl ver group n dblk dtier : Nat)
  /-- The completion record of a TABLE_DESTROY is written: its identifier is free (02 R93). -/
  | freed (tbl : Nat)
  | recordFetch (tbl : Nat)
  | entryFetch (tbl ver group : Nat)
  /-- Ask the coordinator to map a group at its owner (12 R454, R478). -/
  | mapReq (tbl ver group : Nat)
  | update (u : TkUpdate)
  | released (tbl ver group : Nat)
  | versionPhase (p : VPhase) (tbl ver : Nat)
  /-- Reserve version storage at a block (12 R453): bytes in a tier. -/
  | reserveStorage (tbl tier bytes : Nat)
  /-- Reserve ordered-pool slots: row and kind of each (06 R239). -/
  | reserveSlots (tbl ver handle nel : Nat) (rows : List (Nat × Bool))
  /-- Release the slots reserved for a command at once, or, when it has completed, at the next commit of the table (06 R239). -/
  | releaseSlots (handle : Nat) (now : Bool)
  | commit (tbl step kcmd leader : Nat)
  | replicaWrite (d : CopyData)
  | groupCopy (d : CopyData)
  /-- Room for a group at its destination, or, to its owner, the move or the rebuild of a secondary itself (12 R466, R469). -/
  | groupMove (tbl ver group dblk dtier : Nat) (rebuild : Bool)
  | loadReport (r : LoadReport)
  /-- A DOWN report about a block, with the block that first reported it. -/
  | downReport (block reporter : Nat)
  /-- A block reports its own fatal error. -/
  | selfReport
  /-- A failure notice: set FAILED. -/
  | failed (block : Nat)
  /-- A tier of the sender is out of service (12 R474). -/
  | tierOut (tier : Nat)
  | declare (block : Nat)
  | query (block : Nat)
  /-- Redelivery for the groups of a failed block is done (12 R471). -/
  | redeliverDone (tbl : Nat) (failedBlock : Nat)
  /-- Part of a section's rows and accumulators, from an offset in the group's storage (12 R477). -/
  | imagePart (tbl ver ctx group off : Nat) (bytes : List Byte)
  /-- Ask an owner for a section, or to write one to an address (12 R477). -/
  | imageReq (tbl ver ctx group : Nat) (dst : Option Nat)
  /-- ROWS_WRITE of rows or of the auxiliary region at an owner (03 R134). -/
  | rowsWrite (tbl ver ctx : Nat) (rows : List (Nat × List Byte))
  /-- ROWS_READ at an owner. -/
  | rowsRead (tbl ver ctx : Nat) (rows : List Nat)
  /-- Report that a secondary did not confirm (06 R235). -/
  | secondaryLost (tbl ver group : Nat)
  deriving DecidableEq, Repr

/-- The content of a Table Keeper reply. -/
inductive TkAnswer where
  | ok
  | status (code failblk : Nat)
  | record (r : RecordData)
  | entry (e : PEntry)
  /-- Rows committed and findings (06 R242, 05 R216). -/
  | commit (rows findings : Nat)
  | named (b : Bool)
  | rows (l : List (Nat × List Byte))
  | sectionBytes (bytes : List Byte)
  /-- Status and block, groups moved, and the first group that found no room (12 R468). -/
  | moved (code failblk n : Nat) (stop : Option Nat)
  deriving DecidableEq, Repr

/-- The header fields of a Table Keeper message (09 R350). -/
structure TkHdr where
  src : Nat
  lane : Nat
  handle : Nat
  xid : Nat
  /-- The sender's registry list (12 R446). -/
  list : List Nat
  deriving DecidableEq, Repr

/-- Scopes of a translation shoot-down (11 R423). -/
inductive SdScope where
  | pages (ctx vpn n : Nat)
  | context (ctx : Nat)
  | all
  deriving DecidableEq, Repr

/-- The end of an error found on a tier read (08 R309). -/
inductive ReadError where
  | single
  | uncorrectable
  | link
  | linkExhausted
  deriving DecidableEq, Repr

/-- What is wrong with an entry of an SRAM array: an error that its code corrects, or one that it does not, found in the entry by scrub
(14 R525) or by the request that reads a sector of it (07 R273, R287), or in its tag. -/
inductive SramError where
  | corrected
  | scrubbed
  | read (sector : Fin 16)
  | tag
  deriving DecidableEq, Repr

/-- The clocked edges of 15 R564, in the order of their bits. -/
abbrev Edge := Fin 8

/-- Instructions of the wrapper (14 R539). -/
inductive WrapInstr where
  | bypass | extest | clamp | safe | mbist | ijtag | intest
  deriving DecidableEq, Repr

/-- Outcome of one memory self-test (14 R538): failing ways and passed arrays. -/
structure MbistResult where
  /-- Failing logical ways of each Row Cache slice, slice and way. -/
  rcFail : List (Nat × Nat)
  mdFail : List Nat
  rcOk : Nat
  mdOk : Bool
  mbOk : Bool
  imOk : Bool
  tlbOk : Bool
  faultRingOk : Bool
  fifoOk : Bool
  deriving DecidableEq, Repr

/-- How training of the tiers ended (08 R305, R306). -/
structure TrainResult where
  /-- Dies of Tier S that pass, as a mask of four bits; rows remapped in its banks: bank and count (08 R305, R306). -/
  sDies : Nat
  sRemaps : List (Nat × Nat)
  /-- Tier F: CAUSE of 08 R325 (0 pass), attempts, repaired lanes: pseudo-channel and MF_LANE_REPAIR value. -/
  fCause : Nat
  fAttempts : Nat
  fLanes : List (Nat × Nat)
  /-- Tier C: channels that passed, and the cause and attempts of the others. -/
  cPass : Nat
  cFail : List (Nat × Nat × Nat)
  /-- Rows whose hard repair was applied: tier and offset (08 R312). -/
  hppr : List (Nat × Nat)
  deriving DecidableEq, Repr

/-- What firmware applies from the operator's configuration record (13 R512, 16 R573). -/
structure BootConfig where
  /-- The record's bytes, measured into MR5. -/
  record : List Byte
  /-- Register writes, offset and value. -/
  writes : List (Nat × Nat)
  /-- Route entries: block and 32 bytes. -/
  routes : List (Nat × List Byte)
  /-- ID and VALID that CC_BLOCK_ID takes once training has passed (08 R305). -/
  blockId : Nat
  valid : Bool
  lock : Bool
  approved : Bool
  /-- PHYUPD_MAX of the integrator's PHY profile (15 R553). -/
  phyupdMax : Nat
  deriving DecidableEq, Repr

end Sys2Proof
end

