-- ==== Sys2Proof/Syntax.lean ====
section
/-! DEFINITION. The commands of the block: one constructor per row of spec/opcode_table.json, in its order. Times `t` are
instants in picoseconds (15 R545); a handle `h` names the accepted command that a step works on (03 R108); a software trigger
carries its source (16 R572) and the 64-bit value written. -/

namespace Sys2Proof

/-- One command or event (the rows of spec/opcode_table.json). -/
inductive Instr where
  -- Rings (03)
  | doorbellTailWrite (ring : Fin 64) (value : Word64) (t : Nat)
  | cqHeadWrite (ring : Fin 64) (value : Word64)
  | descriptorAcceptance (ring : Fin 64) (t : Nat)
  | completionRecord (h : Handle) (t : Nat)
  | notifyHoldoffExpiry (ring : Fin 64) (t : Nat)
  -- Opcodes (03 R127)
  | nop (h : Handle)
  | lookup (h : Handle) (t : Nat)
  | lookupPool (h : Handle) (t : Nat)
  | scatterAdd (h : Handle) (t : Nat)
  | poolBackward (h : Handle) (t : Nat)
  | tableCreate (h : Handle) (t : Nat)
  | tableDestroy (h : Handle) (t : Nat)
  | versionPublish (h : Handle) (t : Nat)
  | versionSwitch (h : Handle) (t : Nat)
  | rowsWrite (h : Handle) (t : Nat)
  | rowsRead (h : Handle) (t : Nat)
  | migrate (h : Handle) (t : Nat)
  | checkpoint (h : Handle) (t : Nat)
  | restore (h : Handle) (t : Nat)
  | fence (h : Handle)
  | flushCache (h : Handle)
  | stats (h : Handle) (t : Nat)
  | commitStep (h : Handle) (t : Nat)
  | attest (h : Handle) (t : Nat)
  | loopbackTest (h : Handle) (t : Nat)
  | diagnostics (h : Handle)
  -- Ring control (03)
  | attach (src : Src) (ring : Fin 64) (value : Word64)
  | detach (src : Src) (ring : Fin 64) (value : Word64)
  | ringFault (ring : Fin 64)
  | dbErrRead (src : Src) (ring : Fin 64)
  -- Control Complex (13, 16)
  | setupLock (src : Src) (value : Word64)
  | stop (src : Src) (value : Word64) (t : Nat)
  | restart (src : Src) (core : Fin 7) (value : Word64) (t : Nat)
  | coreRestartDone (core : Fin 7) (digestOk : Bool) (t : Nat)
  | watchdogExpiry (core : Fin 7) (t : Nat)
  | coreFault (core : Fin 7) (t : Nat)
  -- Translation (11)
  | ctxLoad (src : Src) (value : Word64)
  | ctxStore (src : Src) (value : Word64)
  | winLoad (src : Src) (value : Word64)
  | winStore (src : Src) (value : Word64)
  | pull (src : Src) (value : Word64)
  | release (src : Src) (value : Word64)
  | pageMigration (ctx : BitVec 16) (vpn : BitVec 36)
  | shootDownGo (src : Src) (value : Word64)
  | inv (htag ctx : BitVec 16) (addr : Word64)
  | shootDownDrained
  | shootDownWaitExpiry (h : Handle) (t : Nat)
  | snpInv (htag : BitVec 16) (addr : Word64)
  | hostResponse (htag : Nat) (err : Bool)
  | hostRequestTimeout (htag : Nat)
  | apertureAccess (write : Bool) (htag : BitVec 16) (off len : Nat) (data : List Byte)
  | routeLoad (src : Src) (value : Word64)
  | routeStore (src : Src) (value : Word64)
  | declare (src : Src) (value : Word64) (t : Nat)
  | query (src : Src) (value : Word64) (t : Nat)
  | failCtrlNoAnswer (t : Nat)
  -- Spine (14)
  | faultLoad (src : Src) (value : Word64)
  | holmOfflineWrite (src : Src) (value : Word64)
  | holmDrained (holm : Fin 4)
  | holmTest (src : Src) (value : Word64)
  | holmTestDone (holm : Fin 4) (pass : Bool) (t : Nat)
  | sliceReturnWalkDone (holm : Fin 4)
  | holmFailure (holm : Fin 4) (t : Nat)
  | arm (src : Src) (value : Word64)
  | h1TurnaroundDone
  -- Security mailbox (13 R499)
  | dlBegin (src : Src) (len : BitVec 13)
  | dlChunk (src : Src) (len : BitVec 13)
  | verify (src : Src) (len : BitVec 13)
  | activate (src : Src) (len : BitVec 13)
  | confirm (src : Src) (len : BitVec 13)
  | certRead (src : Src) (len : BitVec 13)
  | kekSet (src : Src) (len : BitVec 13)
  | sakInstall (src : Src) (len : BitVec 13)
  | sakInstallPlain (src : Src) (len : BitVec 13)
  | sakRetire (src : Src) (len : BitVec 13)
  | zeroize (src : Src) (len : BitVec 13)
  | debugUnlock (src : Src) (len : BitVec 13)
  | mailboxGoIgnored (src : Src) (value : Word64)
  | trialConfirmation (m1f1 : Bool) (fuseRail : Bool)
  | confirmWaitExpiry (t : Nat)
  | selfTestFailure (test : Nat) (t : Nat)
  -- Registers with effects (07, 08, 16)
  | mtRegWrite (src : Src) (tier : Fin 3) (part : Fin 16) (value : Word64)
  | rcWayDisableWrite (src : Src) (holm : Fin 4) (value : Word64)
  | mdWayDisableWrite (src : Src) (value : Word64)
  | errSchemeChange (src : Src) (value : Word64)
  | mcMapoutWrite (src : Src) (value : Word64)
  | registerWrite (src : Src) (offset : BitVec 20) (value : Word64)
  -- Fabric (09)
  | data (port : Fin 8) (f : Frame) (t : Nat)
  | ack (port : Fin 8) (f : Frame) (t : Nat)
  | nak (port : Fin 8) (f : Frame) (t : Nat)
  | openFrame (port : Fin 8) (f : Frame) (t : Nat)
  | openAck (port : Fin 8) (f : Frame) (t : Nat)
  | close (port : Fin 8) (f : Frame) (t : Nat)
  | closeAck (port : Fin 8) (f : Frame) (t : Nat)
  | rtoExpiry (partner : BitVec 15) (lane : Fin 4) (t : Nat)
  | retryMaxReached (partner : BitVec 15) (lane : Fin 4) (t : Nat)
  | ackDelayExpiry (partner : BitVec 15) (lane : Fin 4) (t : Nat)
  | idleCloseExpiry (partner : BitVec 15) (lane : Fin 4) (t : Nat)
  | reprobeExpiry (partner : BitVec 15) (t : Nat)
  | coalesceExpiry (partner : BitVec 15) (lane : Fin 4) (t : Nat)
  | pfcFrame (port : Fin 8) (prios : BitVec 8) (quanta : List Nat) (t : Nat)
  | pfcWatchdogExpiry (port : Fin 8) (prio : Fin 8) (t : Nat)
  | packetNumberExhausted (port : Fin 8) (t : Nat)
  | portLinkUp (port : Fin 8)
  | portAlignTimeout (port : Fin 8) (t : Nat)
  | portLinkDown (port : Fin 8) (cause : BitVec 4) (t : Nat)
  | fecThresholdReached (port : Fin 8) (t : Nat)
  | loopbackAckTimeout (port : Fin 8)
  | readReq (src : BitVec 15) (msg : List Byte) (t : Nat)
  | poolReq (src : BitVec 15) (msg : List Byte) (t : Nat)
  | readReply (src : BitVec 15) (msg : List Byte) (t : Nat)
  | poolReply (src : BitVec 15) (msg : List Byte) (t : Nat)
  | remoteCutoff (h : Handle) (t : Nat)
  | add (src : BitVec 15) (msg : List Byte) (t : Nat)
  | addAck (src : BitVec 15) (msg : List Byte) (t : Nat)
  | recentAddLogExpiry (t : Nat)
  | remoteDoorbell (src : BitVec 15) (msg : List Byte) (t : Nat)
  | reg (src : BitVec 15) (msg : List Byte) (t : Nat)
  | regReply (src : BitVec 15) (msg : List Byte)
  | memRead (src : BitVec 15) (msg : List Byte)
  | memReadReply (src : BitVec 15) (msg : List Byte) (t : Nat)
  | memWrite (src : BitVec 15) (msg : List Byte)
  | memWriteAck (src : BitVec 15) (msg : List Byte)
  | echo (src : BitVec 15) (msg : List Byte)
  | echoReply (src : BitVec 15) (msg : List Byte) (t : Nat)
  -- Table Keeper messages (12 R481)
  | claim (hdr : TkHdr) (body : TkBody)
  | recordFetch (hdr : TkHdr) (tbl : Nat)
  | update (hdr : TkHdr) (u : TkUpdate)
  | released (hdr : TkHdr) (tbl ver group : Nat)
  | versionPhase (hdr : TkHdr) (p : VPhase) (tbl ver : Nat)
  | reserve (hdr : TkHdr) (body : TkBody)
  | commit (hdr : TkHdr) (tbl step kcmd leader : Nat) (t : Nat)
  | replicaWrite (hdr : TkHdr) (d : CopyData) (t : Nat)
  | groupCopy (hdr : TkHdr) (d : CopyData) (t : Nat)
  | loadReport (hdr : TkHdr) (r : LoadReport)
  | failNotice (hdr : TkHdr) (body : TkBody) (t : Nat)
  | redeliverDone (hdr : TkHdr) (tbl failedBlock : Nat)
  | imagePart (hdr : TkHdr) (body : TkBody)
  | tkReply (hdr : TkHdr) (a : TkAnswer) (t : Nat)
  | groupMove (tbl ver group : Nat) (dblk dtier : Nat) (t : Nat)
  | secondaryRebuild (tbl ver group : Nat) (t : Nat)
  | loadPeriodEnd (t : Nat)
  -- Tiers (08)
  | tierFailure (tier : Fin 3) (channel : Nat) (t : Nat)
  | tierSFailure (die : Fin 4) (channel : Fin 64) (t : Nat)
  | phyUpdateRequest (tier : Fin 3) (channel : Fin 64) (held : Nat) (t : Nat)
  | phyUpdateOverrun (tier : Fin 3) (channel : Fin 64) (t : Nat)
  | writeBatchTurn (tier : Fin 3) (channel : Fin 64)
  | tierReadError (tier : Fin 3) (offset : Nat) (e : ReadError) (t : Nat)
  | rowRepair (tier : Fin 3) (offset : Nat) (possible : Bool) (t : Nat)
  | refresh (tier : Fin 3)
  | regulatorRefill (t : Nat)
  | tierSTempRead (temps : List Nat) (powerLimit : Nat) (t : Nat)
  | floorTakesEffect (t : Nat)
  | logicTempRead (temps : List Nat) (t : Nat)
  | canaryWindow (counts : List Nat) (rates : List Nat) (t : Nat)
  | vddOk (t : Nat)
  | delayLineCalibration (line : Nat) (measured : Nat)
  | marginRecentre (line : Nat) (point : Nat) (t : Nat)
  -- Caches (07)
  | heatDecaySweep
  | fillArrival (slice : Fin 4) (lineNo : Nat) (sector : Fin 16)
  | wayRetire (slice : Fin 4) (way : Fin 16) (t : Nat)
  | spareRotation (slice : Fin 4) (testPass : Bool) (t : Nat)
  | mdWaySelfDisable (way : Fin 8) (t : Nat)
  | mdFill (lineAddr : Word64)
  | mbHoldExpiry (t : Nat)
  -- Background (14)
  | patrolScrub (tier : Fin 3) (found : Option ReadError) (t : Nat)
  | sramScrub (array : Nat) (index : Nat) (e : SramError) (t : Nat)
  | backgroundTaskBehind (task : Fin 16) (t : Nat)
  | telemetrySample (power : Nat) (t : Nat)
  | fatalStop (cause : BitVec 16) (detail : Word64) (t : Nat)
  | refClkLost (gap : Nat) (t : Nat)
  -- Boundary FIFOs and reset (15)
  | packetStallRewind (edge : Fin 8)
  | badPacketRewind (edge : Fin 8) (port : Option (Fin 8))
  | resetAssert (t : Nat)
  | resetRelease (headless : Bool) (t : Nat)
  | mbistDone (r : MbistResult)
  | tierTrainingDone (r : TrainResult) (t : Nat)
  | firmwareReady (c : BootConfig)
  | mailboxCommandDone
  | wrapperInstructionUpdate (code : BitVec 4)
  | emptyFifoRead (edge : Fin 8)
  | errorCountWindowClear
  | fecRetryHoldoffExpiry (port : Fin 8)
  | regReplyRetentionExpiry (t : Nat)
  | hpLinkUpChange (up : Bool)
  | deviceTemperatureReport (tier : Fin 3) (device : Fin 64) (temp : Nat) (multiplier2x : Bool) (outOfRange : Bool) (t : Nat)
  | controllerUpdate (tier : Fin 3) (channel : Fin 64) (zq : Bool) (held : Nat)
  | h1TurnaroundPacket (words : List Byte)
  deriving DecidableEq, Repr

end Sys2Proof
end

