-- ==== Sys2Proof/Decode.lean ====
section
/-! DEFINITION. The host's question about words: the table of commands gives no bits to any row, so no word spells a command. -/

namespace Sys2Proof

/-- The command that a word spells by the table's bits: no row of spec/opcode_table.json has bits. -/
def decodeTableWord (_nbits _w : Nat) : Option Instr := none

end Sys2Proof
end

