-- ==== Sys2Proof/Machine/Bits.lean ====
section
/-! DEFINITION. Bit slices, little-endian byte order (00 R10, R11), saturating counters, list helpers and CRC-32C (12 R475). -/

namespace Sys2Proof.Machine

/-- The field of `w` bits from bit `lo` of `v` (00 R10). -/
def bits (v lo w : Nat) : Nat := (v >>> lo) % 2 ^ w

/-- Bit `i` of `v` as a condition. -/
def bit (v i : Nat) : Bool := v.testBit i

/-- `v` with the `w` bits from `lo` replaced by `x` (00 R10). -/
def setBits (v lo w x : Nat) : Nat :=
  v % 2 ^ lo + (x % 2 ^ w) * 2 ^ lo + (v >>> (lo + w)) * 2 ^ (lo + w)

/-- Smallest multiple of `m` at or above `x` (04 pad16, pad128; 12 pad64). -/
def padTo (m x : Nat) : Nat := (x + (m - 1)) / m * m

/-- Ceiling of `a / b`, 0 when `b` is 0. -/
def ceilDiv (a b : Nat) : Nat := if b = 0 then 0 else (a + b - 1) / b

/-- A condition as a one-bit field value. -/
def b2n (b : Bool) : Nat := if b then 1 else 0

/-- The `n` little-endian bytes of `v` (00 R11). -/
def leBytes : Nat → Nat → List Byte
  | 0, _ => []
  | n + 1, v => BitVec.ofNat 8 v :: leBytes n (v / 256)

/-- The number that little-endian bytes hold (00 R11). -/
def leNat : List Byte → Nat
  | [] => 0
  | b :: bs => b.toNat + 256 * leNat bs

/-- `n` bytes from `off` of a byte list as a number; bytes beyond the end count as 0. -/
def leAt (bs : List Byte) (off n : Nat) : Nat := leNat ((bs.drop off).take n)

/-- The number that bytes hold, the most significant first (00 R12). -/
def beNat (bs : List Byte) : Nat := leNat bs.reverse

/-- The `n` bytes of a number, the most significant first (00 R12). -/
def beBytes (n v : Nat) : List Byte := (leBytes n v).reverse

/-- `n` bytes from `off` of a byte list as a number with its most significant byte first. -/
def beAt (bs : List Byte) (off n : Nat) : Nat := beNat ((bs.drop off).take n)

/-- `n` bytes from `off`, padded with zeros. -/
def bytesAt (bs : List Byte) (off n : Nat) : List Byte :=
  let x := (bs.drop off).take n
  x ++ List.replicate (n - x.length) 0#8

/-- Zero bytes. -/
def zeros (n : Nat) : List Byte := List.replicate n 0#8

/-- A byte list padded with zeros to `n` bytes, or cut there. -/
def fitTo (n : Nat) (bs : List Byte) : List Byte := (bs ++ zeros (n - bs.length)).take n

/-- A count saturating at `2 ^ w - 1` (16 R588: counters saturate at their largest value). -/
def satAdd (w a b : Nat) : Nat := min (a + b) (2 ^ w - 1)

/-- `0 .. n-1` (00 R17). -/
def upTo (n : Nat) : List Nat := List.range n

/-- Ascending insertion without repeats. -/
def insertNat (x : Nat) : List Nat → List Nat
  | [] => [x]
  | y :: ys => if x < y then x :: y :: ys else if x = y then y :: ys else y :: insertNat x ys

/-- The distinct values of a list in ascending order (04 R155 step 2). -/
def sortUnique (l : List Nat) : List Nat := l.foldl (fun acc x => insertNat x acc) []

/-- Greatest element, 0 for none. -/
def maxOf (l : List Nat) : Nat := l.foldl max 0

/-- Sum of a list. -/
def sumOf (l : List Nat) : Nat := l.foldl (· + ·) 0

/-- The list cut into consecutive runs of `n`. Fuel bounds the number of runs. -/
def chunksFuel {α : Type} (n : Nat) : Nat → List α → List (List α)
  | 0, _ => []
  | _ + 1, [] => []
  | fuel + 1, l => l.take n :: chunksFuel n fuel (l.drop n)

/-- The list cut into consecutive runs of `n` elements, the last one possibly shorter. -/
def chunks {α : Type} (n : Nat) (l : List α) : List (List α) := chunksFuel (max n 1) l.length l

/-- Association-list look-up. -/
def lookupBy {α : Type} (k : Nat) : List (Nat × α) → Option α
  | [] => none
  | (a, v) :: rest => if a = k then some v else lookupBy k rest

/-- Association-list update keeping ascending keys. -/
def insertBy {α : Type} (k : Nat) (v : α) : List (Nat × α) → List (Nat × α)
  | [] => [(k, v)]
  | (a, w) :: rest =>
    if k < a then (k, v) :: (a, w) :: rest
    else if k = a then (k, v) :: rest
    else (a, w) :: insertBy k v rest

/-- Association-list removal. -/
def eraseBy {α : Type} (k : Nat) (l : List (Nat × α)) : List (Nat × α) := l.filter (fun e => e.1 != k)

/-- Replace the first element that satisfies `p`. -/
def updFirst {α : Type} (p : α → Bool) (f : α → α) : List α → List α
  | [] => []
  | x :: xs => if p x then f x :: xs else x :: updFirst p f xs

/-- Append an element unless it is already present. -/
def addOnce {α : Type} [BEq α] (x : α) (l : List α) : List α := if l.contains x then l else l ++ [x]

/-- One bit of the reflected CRC-32C: the reversal of polynomial 0x1EDC_6F41 is 0x82F6_3B78 (12 R475). -/
def crcBit (c : Nat) : Nat := if c % 2 = 1 then (c / 2) ^^^ 0x82F63B78 else c / 2

/-- One byte of CRC-32C (12 R475). -/
def crcByte (c : Nat) (b : Byte) : Nat :=
  let c0 := c ^^^ b.toNat
  crcBit (crcBit (crcBit (crcBit (crcBit (crcBit (crcBit (crcBit c0)))))))

/-- CRC-32C, bit-reflected, with exclusive OR of 0xFFFF_FFFF at the start and the end (12 R475). -/
def crc32c (bs : List Byte) : Nat := (bs.foldl crcByte 0xFFFFFFFF) ^^^ 0xFFFFFFFF

end Sys2Proof.Machine
end

