-- ==== Sys2Proof/Machine/Num.lean ====
section
/-! DEFINITION. Accumulation and number formats (05_accumulation_arithmetic.md): exact values, the two rounding
functions, IEEE special cases, the compensated addition and the stochastic-rounding generator. -/

namespace Sys2Proof.Machine

/-- Findings of one or more arithmetic steps (05 R216, R217). -/
structure Findings where
  inf : Bool := false
  nan : Bool := false
  sat : Bool := false
  clamps : Nat := 0
  deriving DecidableEq, Repr

/-- No finding. -/
def Findings.none : Findings := ⟨false, false, false, 0⟩

/-- The logical OR of findings from two sites (05 R216); clamps add up (05 R217). -/
def Findings.or (a b : Findings) : Findings :=
  ⟨a.inf || b.inf, a.nan || b.nan, a.sat || b.sat, a.clamps + b.clamps⟩

/-- The FINDINGS byte of a reply: [0] INF_SEEN, [1] NAN_SEEN, [2] SATURATION (09 R356, R359). -/
def Findings.toByte (f : Findings) : Nat := b2n f.inf + 2 * b2n f.nan + 4 * b2n f.sat

/-- The findings that a FINDINGS byte reports. -/
def Findings.ofByte (n : Nat) : Findings := ⟨bit n 0, bit n 1, bit n 2, 0⟩

/-- An exact value: NaN, a signed infinity, or sign and magnitude `num / den` (00 R17: real values are exact). -/
inductive FV where
  | nan
  | inf (neg : Bool)
  | fin (neg : Bool) (num den : Nat)
  deriving DecidableEq, Repr

/-- A floating-point element format (05 R193). -/
structure FFmt where
  ebits : Nat
  fbits : Nat
  bias : Nat
  /-- Exponent of the last binade. -/
  emax : Nat
  /-- E4M3 has no infinity and one NaN code per sign. -/
  e4m3 : Bool
  deriving DecidableEq, Repr

/-- Format code 0 (05 R193). -/
def fp32 : FFmt := ⟨8, 23, 127, 127, false⟩
/-- Format code 1. -/
def bf16 : FFmt := ⟨8, 7, 127, 127, false⟩
/-- Format code 2. -/
def fp16 : FFmt := ⟨5, 10, 15, 15, false⟩
/-- Format code 3. -/
def e4m3 : FFmt := ⟨4, 3, 7, 8, true⟩
/-- Format code 4. -/
def e5m2 : FFmt := ⟨5, 2, 15, 15, false⟩

/-- The element format of codes 0 to 4 (02 R73). Other codes name no floating format; the callers never ask. -/
def fmtOf : Nat → FFmt
  | 0 => fp32
  | 1 => bf16
  | 2 => fp16
  | 3 => e4m3
  | _ => e5m2

/-- Element size in bytes of format codes 0 to 4, and 4 for INT32 (02 R73, 04 output layouts). -/
def esize : Nat → Nat
  | 0 => 4
  | 1 => 2
  | 2 => 2
  | 3 => 1
  | 4 => 1
  | _ => 4

/-- The canonical NaN of a format (05 R193, R195). -/
def FFmt.nanBits (f : FFmt) : Nat :=
  if f.e4m3 then 0x7F else (2 ^ f.ebits - 1) * 2 ^ f.fbits + 2 ^ (f.fbits - 1)

/-- The infinity of a format; E4M3 has none and the rounding functions answer its NaN (05 R199). -/
def FFmt.infBits (f : FFmt) (neg : Bool) : Nat :=
  if f.e4m3 then 0x7F
  else (2 ^ f.ebits - 1) * 2 ^ f.fbits + (if neg then 2 ^ (f.ebits + f.fbits) else 0)

/-- `m * 2 ^ (e - bias)` as an exact magnitude. -/
def scaled (neg : Bool) (m e bias : Nat) : FV :=
  if e ≥ bias then .fin neg (m * 2 ^ (e - bias)) 1 else .fin neg m (2 ^ (bias - e))

/-- Exact value of an encoding: subnormals kept, -0.0 kept, NaN payloads dropped (05 R194 to R196). -/
def FFmt.decode (f : FFmt) (b : Nat) : FV :=
  let frac := b % 2 ^ f.fbits
  let ex := (b / 2 ^ f.fbits) % 2 ^ f.ebits
  let neg := bit b (f.ebits + f.fbits)
  if f.e4m3 && ex = 15 && frac = 7 then .nan
  else if !f.e4m3 && ex = 2 ^ f.ebits - 1 then (if frac = 0 then .inf neg else .nan)
  else if ex = 0 then scaled neg frac 1 (f.bias + f.fbits)
  else scaled neg (2 ^ f.fbits + frac) ex (f.bias + f.fbits)

/-- Exact negation. -/
def FV.neg : FV → FV
  | .nan => .nan
  | .inf s => .inf (!s)
  | .fin s n d => .fin (!s) n d

/-- Exact sum with the special cases of 05 R201 and the zero signs of 05 R202. -/
def FV.add : FV → FV → FV
  | .nan, _ => .nan
  | _, .nan => .nan
  | .inf a, .inf b => if a = b then .inf a else .nan
  | .inf a, .fin .. => .inf a
  | .fin .., .inf b => .inf b
  | .fin sa na da, .fin sb nb db =>
    let x := na * db
    let y := nb * da
    let d := da * db
    if sa = sb then .fin sa (x + y) d
    else if x > y then .fin sa (x - y) d
    else if y > x then .fin sb (y - x) d
    else .fin false 0 1

/-- Exact product (05 R201: infinity times zero is NaN). -/
def FV.mul : FV → FV → FV
  | .nan, _ => .nan
  | _, .nan => .nan
  | .inf a, .inf b => .inf (a != b)
  | .inf a, .fin sb nb _ => if nb = 0 then .nan else .inf (a != sb)
  | .fin sa na _, .inf b => if na = 0 then .nan else .inf (sa != b)
  | .fin sa na da, .fin sb nb db => .fin (sa != sb) (na * nb) (da * db)

/-- Exact quotient, IEEE 754 special cases (05 R201). -/
def FV.div : FV → FV → FV
  | .nan, _ => .nan
  | _, .nan => .nan
  | .inf _, .inf _ => .nan
  | .inf a, .fin sb .. => .inf (a != sb)
  | .fin sa .., .inf b => .fin (sa != b) 0 1
  | .fin sa na da, .fin sb nb db =>
    if nb = 0 then (if na = 0 then .nan else .inf (sa != sb))
    else .fin (sa != sb) (na * db) (da * nb)

/-- A natural number as an exact value. -/
def FV.ofNat (n : Nat) : FV := .fin false n 1

/-- An integer as an exact value. -/
def FV.ofInt (i : Int) : FV := .fin (decide (i < 0)) i.natAbs 1

/-- `floor (log2 (num / den))` for positive `num` and `den`. -/
def log2Ratio (num den : Nat) : Int :=
  let c : Int := (Nat.log2 num : Int) - (Nat.log2 den : Int)
  let ok := if c ≥ 0 then num ≥ den <<< c.toNat else num <<< (-c).toNat ≥ den
  if ok then c else c - 1

/-- The exponent of the spacing of the extended grid at magnitude `num / den` (05 R198). -/
def FFmt.ulpExp (f : FFmt) (num den : Nat) : Int :=
  let emin : Int := 1 - (f.bias : Int)
  let e := if num = 0 then emin else log2Ratio num den
  min (max e emin) (f.emax : Int) - (f.fbits : Int)

/-- The magnitude in units of the spacing, as numerator and denominator. -/
def inUnits (num den : Nat) (u : Int) : Nat × Nat :=
  if u ≥ 0 then (num, den <<< u.toNat) else (num <<< (-u).toNat, den)

/-- Encoding of the grid value of sign `neg` and magnitude `k * 2 ^ u`, after the end rules of 05 R198,
with the findings of the rounding. -/
def FFmt.pack (f : FFmt) (neg : Bool) (k : Nat) (u : Int) : Nat × Findings :=
  let sign := if neg then 2 ^ (f.ebits + f.fbits) else 0
  let body := ((u + (f.fbits : Int) + (f.bias : Int) - 1).toNat) * 2 ^ f.fbits + k
  if f.e4m3 then
    if body > 0x7E then (0x7E + sign, { clamps := 1 }) else (body + sign, {})
  else if body ≥ f.infBits false then (f.infBits neg, { inf := true })
  else (body + sign, {})

/-- Non-finite input of a rounding to a floating format (05 R199). -/
def FFmt.packSpecial (f : FFmt) : FV → Nat × Findings
  | .inf s => if f.e4m3 then (0x7F, { inf := true, nan := true }) else (f.infBits s, { inf := true })
  | _ => (f.nanBits, { nan := true })

/-- round_rne(x, fmt) for floating formats (05 R197, R198, R199): the encoding and the findings. -/
def FFmt.rne (f : FFmt) (x : FV) : Nat × Findings :=
  match x with
  | .fin s n d =>
    let u := f.ulpExp n d
    let p := inUnits n d u
    let q := p.1 / p.2
    let r := p.1 % p.2
    let k := if 2 * r > p.2 then q + 1 else if 2 * r = p.2 then (if q % 2 = 0 then q else q + 1) else q
    f.pack s k u
  | y => f.packSpecial y

/-- The threshold t of 05 R210: floor of the signed fraction (x - lo) / (hi - lo) times 65,536, from the magnitude's
remainder `r / d` of a unit. -/
def stochThreshold (neg : Bool) (r d : Nat) : Nat :=
  if neg then (d - r) * 65536 / d else r * 65536 / d

/-- round_stochastic(x, fmt, bits) for floating formats (05 R210). -/
def FFmt.stoch (f : FFmt) (x : FV) (rnd : Nat) : Nat × Findings :=
  match x with
  | .fin s n d =>
    let u := f.ulpExp n d
    let p := inUnits n d u
    let q := p.1 / p.2
    let r := p.1 % p.2
    if r = 0 then f.pack s q u
    else
      let hi := rnd < stochThreshold s r p.2
      -- the upper neighbour has the larger magnitude when x is positive and the smaller when negative
      f.pack s (if hi != s then q + 1 else q) u
  | y => f.packSpecial y

/-- An integer clamped to `[lo, hi]`; SATURATION when it lay outside (05 R198). -/
def clampInt (lo hi : Int) (x : Int) : Int × Findings :=
  if x > hi then (hi, { sat := true }) else if x < lo then (lo, { sat := true }) else (x, {})

/-- round_stochastic to an integer target of bounds `[lo, hi]` (05 R198, R199, R210). -/
def stochInt (lo hi : Int) (x : FV) (rnd : Nat) : Int × Findings :=
  match x with
  | .nan => (0, { nan := true })
  | .inf s => ((if s then lo else hi), { sat := true, inf := true })
  | .fin s n d =>
    let q := n / d
    let r := n % d
    let up := rnd < stochThreshold s r d
    let m : Nat := if r = 0 then q else if up != s then q + 1 else q
    clampInt lo hi (if s then -(m : Int) else (m : Int))

/-- round_rne to an integer target (05 R197 to R199). -/
def rneInt (lo hi : Int) (x : FV) : Int × Findings :=
  match x with
  | .nan => (0, { nan := true })
  | .inf s => ((if s then lo else hi), { sat := true, inf := true })
  | .fin s n d =>
    let q := n / d
    let r := n % d
    let m : Nat := if 2 * r > d then q + 1 else if 2 * r = d then (if q % 2 = 0 then q else q + 1) else q
    clampInt lo hi (if s then -(m : Int) else (m : Int))

/-- Exact value of an FP32 pattern. -/
def fv (b : F32) : FV := fp32.decode b.toNat

/-- Findings of an operand: an infinity or a NaN that enters a step (05 R216). -/
def FV.seen : FV → Findings
  | .nan => { nan := true }
  | .inf _ => { inf := true }
  | .fin .. => {}

/-- round_rne(x, fp32) as a pattern with its findings. -/
def rne32 (x : FV) : F32 × Findings :=
  let r := fp32.rne x
  (BitVec.ofNat 32 r.1, r.2)

/-- round_rne(a + b, fp32). -/
def fadd (a b : F32) : F32 × Findings :=
  let r := rne32 ((fv a).add (fv b))
  (r.1, r.2.or ((fv a).seen.or (fv b).seen))

/-- round_rne(a - b, fp32). -/
def fsub (a b : F32) : F32 × Findings :=
  let r := rne32 ((fv a).add (fv b).neg)
  (r.1, r.2.or ((fv a).seen.or (fv b).seen))

/-- round_rne(a * b, fp32). -/
def fmul (a b : F32) : F32 × Findings :=
  let r := rne32 ((fv a).mul (fv b))
  (r.1, r.2.or ((fv a).seen.or (fv b).seen))

/-- round_rne(acc + w * v, fp32): one rounding (05 R200). -/
def ffma (acc w v : F32) : F32 × Findings :=
  let r := rne32 ((fv acc).add ((fv w).mul (fv v)))
  (r.1, r.2.or ((fv acc).seen.or ((fv w).seen.or (fv v).seen)))

/-- round_rne(a / count, fp32) with an exact integer count (05 R203). -/
def fdivCount (a : F32) (n : Nat) : F32 × Findings :=
  let r := rne32 ((fv a).div (FV.ofNat n))
  (r.1, r.2.or (fv a).seen)

/-- Largest `r` with `r * r ≤ n`, by bisection on bits. -/
def isqrtBits (n : Nat) : Nat → Nat → Nat
  | 0, r => r
  | k + 1, r =>
    let c := r + 2 ^ k
    if c * c ≤ n then isqrtBits n k c else isqrtBits n k r

/-- Integer square root. -/
def isqrt (n : Nat) : Nat := isqrtBits n (Nat.log2 n / 2 + 1) 0

/-- A value that rounds to FP32 exactly as sqrt(x) + e does for a non-negative FP32 x and a non-negative dyadic e whose
denominator divides 2 ^ 400: the root cut to 400 fraction bits, plus half a unit when the root is not exact (06 R230).
Every rounding boundary of FP32 less e is a multiple of that unit, so no boundary is crossed. -/
def sqrtPlus (x e : FV) : FV :=
  match x with
  | .fin false n d =>
    let m := n * d * 2 ^ 800
    let r := isqrt m
    let root := if r * r = m then FV.fin false r (d * 2 ^ 400) else FV.fin false (2 * r + 1) (2 * d * 2 ^ 400)
    root.add e
  | .fin true n _ => if n = 0 then e else .nan
  | .inf false => .inf false
  | _ => .nan

/-- round_rne(sqrt(a) + e, fp32) (06 R230). -/
def fsqrtPlus (a e : F32) : F32 × Findings :=
  let r := rne32 (sqrtPlus (fv a) (fv e))
  (r.1, r.2.or ((fv a).seen.or (fv e).seen))

/-- A pattern is an infinity or a NaN. -/
def notFinite (b : F32) : Bool :=
  match fv b with
  | .fin .. => false
  | _ => true

/-- |a| ≥ |b| for finite patterns. -/
def absGe (a b : F32) : Bool :=
  match fv a, fv b with
  | .fin _ na da, .fin _ nb db => na * db ≥ nb * da
  | .inf _, _ => true
  | _, _ => false

/-- A running pair of a compensated sum (05 R205). -/
abbrev Pair := F32 × F32

/-- comp_add(s, c, x) (05 R205, R207). -/
def compAdd (p : Pair) (x : F32) : Pair × Findings :=
  let t := fadd p.1 x
  if notFinite t.1 then ((t.1, p.2), t.2)
  else
    let e := if absGe p.1 x then
        let d := fsub p.1 t.1
        fadd d.1 x
      else
        let d := fsub x t.1
        fadd d.1 p.1
    let c := fadd p.2 e.1
    ((t.1, c.1), t.2.or c.2)

/-- Adding a compensation to the pair's second component (05 R206, R208). -/
def addComp (p : Pair) (q : F32) : Pair × Findings :=
  let c := fadd p.2 q
  ((p.1, c.1), c.2)

/-- A weighted term of a compensated partial, with the product's own error (05 R206). -/
def compFma (p : Pair) (w v : F32) : Pair × Findings :=
  let pr := fmul w v
  let q : F32 := if notFinite pr.1 then 0#32 else (rne32 (((fv w).mul (fv v)).add (fv pr.1).neg)).1
  let a := compAdd p pr.1
  let b := addComp a.1 q
  (b.1, pr.2.or (a.2.or b.2))

/-- The fold of 05 R208. -/
def foldPair (p : Pair) : F32 × Findings :=
  if notFinite p.1 then (p.1, (fv p.1).seen) else fadd p.1 p.2

/-- sat32(a + b) on INT32 patterns (05 R204). -/
def sat32 (a b : F32) : F32 × Findings :=
  let r := clampInt (-2147483648) 2147483647 (a.toInt + b.toInt)
  (BitVec.ofInt 32 r.1, r.2)

/-- gen_block(k, n): the generator of stochastic rounding, unsigned 64-bit arithmetic (05 R212). -/
def genBlock (k n : Nat) : Nat :=
  let m := 2 ^ 64
  let x := (k % m) ^^^ ((n * 0xD1B54A32D192ED03) % m)
  let x := ((x ^^^ (x >>> 32)) * 0xAEF17502108EF2D9) % m
  let x := ((x ^^^ (x >>> 29)) * 0x8CB92BA72F3D8DD7) % m
  x ^^^ (x >>> 32)

/-- kcmd of 05 R213 and 03 R121: the ring's seed, or its high half over a nonzero SEED. -/
def commandKey (ringSeed seed : Nat) : Nat :=
  if seed = 0 then ringSeed % 2 ^ 64 else (bits ringSeed 32 32) * 2 ^ 32 + seed % 2 ^ 32

/-- The key of a rounding (05 R213). -/
def roundingKey (kcmd tbl src : Nat) : Nat := kcmd ^^^ ((tbl % 2 ^ 24) <<< 40) ^^^ ((src % 2 ^ 15) <<< 24)

/-- The 16 bits of element j of row i with sequence number s (05 R214). -/
def roundBits (key i j s : Nat) : Nat :=
  let n := (i <<< 24) + ((j / 4) <<< 14) + s
  bits (genBlock key (n % 2 ^ 64)) (16 * (j % 4)) 16

/-- Conversion of a stored element of format code 0 to 4 to FP32, exactly (05 R196). -/
def toF32 (code b : Nat) : F32 × Findings :=
  let x := (fmtOf code).decode b
  ((rne32 x).1, x.seen)

/-- convert(x, ofmt) for codes 0 to 4 (04 R176): round to nearest even. -/
def ofF32 (code : Nat) (x : F32) : Nat × Findings :=
  let r := (fmtOf code).rne (fv x)
  (r.1, r.2.or (fv x).seen)

/-- A two's-complement field of `w` bits. -/
def sext (w v : Nat) : Int := if v % 2 ^ w ≥ 2 ^ (w - 1) then ((v % 2 ^ w : Nat) : Int) - 2 ^ w else ((v % 2 ^ w : Nat) : Int)

end Sys2Proof.Machine
end

