-- ==== Sys2Proof/Machine/Pool.lean ====
section
/-! DEFINITION. Vector arithmetic of pooling (04 R171, R173, R175, R176, R179; 05 R204 to R208): partials, their combination, the
mean, the projection and the conversion to an output format. -/

namespace Sys2Proof.Machine

/-- How a command accumulates. -/
inductive AccMode where
  | plain | comp | int
  deriving DecidableEq, Repr

/-- A partial: one pair per element; the second component stays zero unless accumulation is compensated. -/
abbrev Partial := List Pair

def Partial.zero (n : Nat) : Partial := List.replicate n (0#32, 0#32)

/-- Apply an element step along a partial and a vector, collecting findings. -/
def zipStep (step : Pair → F32 → Pair × Findings) : Partial → List F32 → Partial × Findings
  | [], _ => ([], .none)
  | p :: ps, [] => (p :: ps, .none)
  | p :: ps, v :: vs =>
    let x := step p v
    let r := zipStep step ps vs
    (x.1 :: r.1, x.2.or r.2)

/-- One element of one term (R171, R204, R206); `w` is none without weights. -/
def termStep (m : AccMode) (w : Option F32) (p : Pair) (v : F32) : Pair × Findings :=
  match m, w with
  | .int, _ => let r := sat32 p.1 v; ((r.1, p.2), r.2)
  | .plain, none => let r := fadd p.1 v; ((r.1, p.2), r.2)
  | .plain, some w => let r := ffma p.1 w v; ((r.1, p.2), r.2)
  | .comp, none => let r := compAdd p v; (r.1, r.2.or (fv v).seen)
  | .comp, some w => compFma p w v

/-- partial(terms) of R171: terms in ascending position order, each with its weight. -/
def partialSum (m : AccMode) (n : Nat) (terms : List (Option F32 × List F32)) : Partial × Findings :=
  terms.foldl (fun acc t =>
    let r := zipStep (termStep m t.1) acc.1 t.2
    (r.1, acc.2.or r.2)) (Partial.zero n, .none)

/-- One element of a combination of partials (R173, R208). -/
def joinStep (m : AccMode) (a b : Pair) : Pair × Findings :=
  match m with
  | .int => let r := sat32 a.1 b.1; ((r.1, a.2), r.2)
  | .plain => let r := fadd a.1 b.1; ((r.1, a.2), r.2)
  | .comp =>
    let r := compAdd a b.1
    let q := addComp r.1 b.2
    (q.1, r.2.or (q.2.or (fv b.1).seen))

def join (m : AccMode) : Partial → Partial → Partial × Findings
  | [], _ => ([], .none)
  | a :: as, [] => (a :: as, .none)
  | a :: as, b :: bs =>
    let x := joinStep m a b
    let r := join m as bs
    (x.1 :: r.1, x.2.or r.2)

/-- Combine partials in order from a zero one (R173, R208). -/
def joinAll (m : AccMode) (n : Nat) (ps : List Partial) : Partial × Findings :=
  ps.foldl (fun acc p => let r := join m acc.1 p; (r.1, acc.2.or r.2)) (Partial.zero n, .none)

/-- Map an element function over a vector, collecting findings. -/
def mapF (f : F32 → F32 × Findings) (l : List F32) : List F32 × Findings :=
  l.foldr (fun x r => let y := f x; (y.1 :: r.1, y.2.or r.2)) ([], .none)

/-- The value of a finished partial: folded when compensated (R208). -/
def fold (m : AccMode) (p : Partial) : List F32 × Findings :=
  match m with
  | .comp => p.foldr (fun x r => let y := foldPair x; (y.1 :: r.1, y.2.or r.2)) ([], .none)
  | _ => (p.map (fun x => x.1), .none)

/-- The mean of R173: an exact count, +0.0 for an empty bag. -/
def meanOf (count : Nat) (l : List F32) : List F32 × Findings :=
  if count = 0 then (l.map (fun _ => 0#32), .none) else mapF (fun x => fdivCount x count) l

/-- Projection of R179: `rows` are the rows of the matrix, `e` its columns. -/
def project (rows : List (List F32)) (e : Nat) (out : List F32) : List F32 × Findings :=
  (out.zip rows).foldl (fun acc p =>
    let r := zipStep (termStep .plain (some p.1)) acc.1 p.2
    (r.1, acc.2.or r.2)) (Partial.zero e, .none) |> fun r => (r.1.map (fun x => x.1), r.2)

/-- Bytes of a vector in an output format, padded to a stride, with findings (R176, R184, R185). -/
def outBytes (ofmt stride : Nat) (l : List F32) : List Byte × Findings :=
  if ofmt = 15 then (fitTo stride (l.map (fun x => leBytes 4 x.toNat)).flatten, .none)
  else
    let r := l.foldr (fun x (acc : List Byte × Findings) =>
      let y := ofF32 ofmt x
      (leBytes (esize ofmt) y.1 ++ acc.1, y.2.or acc.2)) ([], .none)
    (fitTo stride r.1, r.2)

/-- Flags of a completion record from findings (03 R113). -/
def Findings.flags (f : Findings) : Nat := f.toByte

end Sys2Proof.Machine
end

