-- ==== Sys2Proof/Machine/Link.lean ====
section
/-! DEFINITION. The headers of published standards around a Strait frame, in the byte order of those standards (00 R12): Ethernet and
802.1Q, the MACsec SecTAG, IPv6 and UDP (09 R328, R330 to R333, R339). -/

namespace Sys2Proof.Machine

/-- EtherTypes of an 802.1Q tag, a MACsec SecTAG and IPv6. -/
def etherVlan : Nat := 0x8100
def etherSec : Nat := 0x88E5
def etherIp : Nat := 0x86DD

/-- What stands from the EtherType on: the VIDs of the 802.1Q tags, outermost first, and the rest. Fuel bounds the tags. -/
def splitTags : Nat → List Byte → List Nat × List Byte
  | 0, bs => ([], bs)
  | fuel + 1, bs =>
    if beAt bs 0 2 = etherVlan then
      let r := splitTags fuel (bs.drop 4)
      (beAt bs 2 2 % 4096 :: r.1, r.2)
    else ([], bs)

/-- The sum of 16-bit words of octets, the last one filled with a zero octet. -/
def wordSum (bs : List Byte) : Nat := sumOf ((chunks 2 bs).map (fun c => beNat (fitTo 2 c)))

/-- The sum that a UDP checksum covers: source and destination address, length and next header, then header and data (09 R331). -/
def udpSum (src dst udp : List Byte) : Nat := wordSum src + wordSum dst + udp.length + 17 + wordSum udp

/-- The UDP checksum of a datagram whose checksum octets are 0; a result of 0 is sent as all ones. -/
def udpChecksum (src dst udp : List Byte) : Nat := 0xFFFF - udpSum src dst udp % 0xFFFF

/-- A SecTAG with its SCI: confidentiality offset 0, association, short length, packet number, and the port's SCI (09 R330; the
octets are 802.1AE's: PRESUMED, log 115). -/
def secTag (an short pn mac : Nat) : List Byte :=
  beBytes 2 etherSec ++ beBytes 1 (0x2C + an) ++ beBytes 1 (if short < 48 then short else 0) ++ beBytes 4 (pn % 2 ^ 32) ++
  beBytes 6 mac ++ beBytes 2 1

end Sys2Proof.Machine

namespace Sys2Proof

open Machine

/-- Destination and source MAC address. -/
def Frame.dmac (f : Frame) : Nat := beAt f.bytes 0 6
def Frame.smac (f : Frame) : Nat := beAt f.bytes 6 6

/-- VIDs of the 802.1Q tags, outermost first (09 R328). -/
def Frame.tags (f : Frame) : List Nat := (splitTags f.bytes.length (f.bytes.drop 12)).1

/-- The octets after the tags, from the EtherType on. -/
def Frame.untagged (f : Frame) : List Byte := (splitTags f.bytes.length (f.bytes.drop 12)).2

/-- The frame carries a SecTAG (09 R330, R339). -/
def Frame.sealed (f : Frame) : Bool := beAt f.untagged 0 2 == etherSec

/-- SecTAG: TCI and AN, short length, packet number. -/
def Frame.tci (f : Frame) : Nat := beAt f.untagged 2 1
def Frame.short (f : Frame) : Nat := beAt f.untagged 3 1
def Frame.pn (f : Frame) : Nat := beAt f.untagged 4 4

/-- The octets after tags and SecTAG, from the EtherType on. -/
def Frame.inner (f : Frame) : List Byte := if f.sealed then f.untagged.drop 16 else f.untagged

/-- The SecTAG has the one form that 09 R330 supports: version 0, the SCI, both confidentiality bits, and a length that agrees. -/
def Frame.tagOk (f : Frame) : Bool :=
  f.sealed && decide (16 ≤ f.untagged.length) && bits f.tci 1 7 == 0x16 &&
  f.short == (if f.inner.length < 48 then f.inner.length else 0)

/-- EtherType after tags and SecTAG, and what follows it. -/
def Frame.etype (f : Frame) : Nat := beAt f.inner 0 2
def Frame.packet (f : Frame) : List Byte := f.inner.drop 2

/-- The UDP datagram of an IPv6 packet. -/
def Frame.udp (f : Frame) : List Byte := (f.packet.drop 40).take (beAt f.packet 4 2)

/-- An IPv6 packet without extension header that holds one UDP datagram with a correct checksum (09 R331). -/
def Frame.ipOk (f : Frame) : Bool :=
  bits (beAt f.packet 0 1) 4 4 == 6 && beAt f.packet 6 1 == 17 && decide (8 ≤ f.udp.length) && f.udp.length == beAt f.packet 4 2 &&
  beAt f.udp 4 2 == f.udp.length && beAt f.udp 6 2 != 0 &&
  udpSum ((f.packet.drop 8).take 16) ((f.packet.drop 24).take 16) f.udp % 0xFFFF == 0

/-- IPv6 destination, UDP destination port and the CE mark (09 R331, R349). -/
def Frame.dip6 (f : Frame) : Nat := beAt f.packet 24 16
def Frame.udpPort (f : Frame) : Nat := beAt f.udp 2 2
def Frame.ce (f : Frame) : Bool := bits (beAt f.packet 0 2) 4 2 == 3

/-- The Strait header and what follows it (09 R339). -/
def Frame.strait (f : Frame) : List Byte := if f.etype = etherIp then f.udp.drop 8 else f.packet
def Frame.hdr (f : Frame) : List Byte := f.strait.take 32

/-- The payload: PLEN bytes; Ethernet padding after them counts for nothing (DESIGN CHOICE, log 115). -/
def Frame.payload (f : Frame) : List Byte := (f.strait.drop 32).take (leAt f.hdr 2 2)

end Sys2Proof
end

