-- ==== Sys2Proof/Config.lean ====
section
/-! DEFINITION. What an implementation fixes and what the manual leaves open: opaque constants without a body, so that no
proof can know a value of one. Each has its row in the assumption log. -/

namespace Sys2Proof.Config

/-- Status of a diagnostic opcode: one of the codes of 03 R138, fixed by Balnil's diagnostic sheet (03 R130). -/
opaque diagnosticStatus : List Byte → Nat → Nat

/-- A value that the manual leaves open, drawn with the counter of the state. -/
opaque freeValue : Nat → Nat

/-- Body of a Table Keeper message in the firmware line's own form, the sender's registry list included (12 R446, R481). -/
opaque tkEncode : (list : List Nat) → TkBody → List Byte

/-- Body of a Table Keeper reply (12 R446, R481). -/
opaque tkEncodeAnswer : (list : List Nat) → TkAnswer → List Byte

/-- Firmware line of the sender of a Table Keeper message, as its body shows it (12 R481, 13 R510). -/
opaque tkLine : List Byte → Nat

/-- ECDSA P-384 verification of a digest under a public key (13 R486). -/
opaque ecdsaVerify : (key sig digest : List Byte) → Bool

/-- ECDSA P-384 signature of a digest by the DIK of a UDS, with a DRBG nonce (13 R494, R498). -/
opaque ecdsaSign : (uds digest : List Byte) → Nat → List Byte

/-- Public half of the DIK of a UDS (13 R494). -/
opaque dikPublic : List Byte → List Byte

/-- Public half of the DAK of a UDS (13 R494). -/
opaque dakPublic : List Byte → List Byte

/-- KEK from the UDS and the operator's ephemeral key; none when the key is no point of the curve (13 R494). -/
opaque deriveKek : (uds pub : List Byte) → Option (List Byte)

/-- AES-256 key unwrap of RFC 3394; none when its integrity check fails (13 R494). -/
opaque keyUnwrap : (kek wrapped : List Byte) → Option (List Byte)

/-- The certificate chain (13 R494). -/
opaque certChain : List Byte → List Byte

/-- Balnil's signature over the block's challenge for DEBUG_UNLOCK (13 R499). -/
opaque debugResponseOk : (uds response : List Byte) → Bool

/-- Failing point of a delay line, fused at test (14 R526). -/
opaque fusedPoint : Nat → Nat

/-- Core that calibrates a delay line: 2 the scheduler core, 3 to 6 a Holm control core (10 R379); the lines have no numbering in the
manual. -/
opaque lineCore : Nat → Nat

/-- Tier offset of the first byte of the device row that holds a device address of a channel of Tier F or Tier C: which column bits the row
has is the device's geometry (08 R311). -/
opaque deviceRow : (tier channel bank address : Nat) → Nat

end Sys2Proof.Config
end

