-- ==== Sys2Proof/Machine/RegMap.lean ====
section
/-! DEFINITION. The register map (16_register_map.md): one row per register or register array, with its offset, reset
value and fields by access code, and named offsets for the registers the meanings use. -/

namespace Sys2Proof.Machine

/-- Access codes (00 R13). -/
inductive Acc where
  | ro | rw | rwl | w1c | w1s | rc | wo
  deriving DecidableEq, Repr

/-- One field of a register: lowest bit, width, access code (00 R10, R13). -/
structure Fld where
  lo : Nat
  w : Nat
  acc : Acc
  deriving DecidableEq, Repr

/-- One row of the register map: an array of `n` by `n2` registers from `base` (16 R578 to R586). -/
structure RegDesc where
  name : String
  base : Nat
  n : Nat := 1
  stride : Nat := 8
  n2 : Nat := 1
  stride2 : Nat := 8
  reset : Nat := 0
  fields : List Fld
  deriving DecidableEq, Repr

/-- Shorthand for a field. -/
def f (lo w : Nat) (a : Acc) : Fld := ⟨lo, w, a⟩

/-- The one 48-bit counter field of the manual's counters. -/
def ctr : List Fld := [f 0 48 .rw]

/-- The fields of RF_RING_CFG that every ring has (03 R143). -/
def ringCfgFields : List Fld :=
  [f 0 5 .rw, f 5 5 .rw, f 10 1 .rw, f 11 1 .rw, f 12 4 .rw, f 16 2 .rw, f 18 1 .rw, f 19 16 .rw, f 35 1 .rw,
   f 37 15 .rw, f 52 1 .rw]

/-- Control Complex, Ring Front and Narrows (16 R578, R580). -/
def regsFront : List RegDesc := [
  { name := "CC_ID", base := 0x00000, reset := 0x45B11, fields := [f 0 8 .ro, f 8 8 .ro, f 16 4 .ro, f 20 1 .ro] },
  { name := "CC_BLOCK_ID", base := 0x00008, fields := [f 0 15 .rwl, f 15 1 .rwl, f 16 1 .w1c, f 17 1 .ro] },
  { name := "CC_SETUP_LOCK", base := 0x00010, fields := [f 0 1 .w1s] },
  { name := "CC_STOP", base := 0x00018, fields := [f 0 1 .wo] },
  { name := "CC_CORE", base := 0x00200, n := 7, reset := 0x6400000000,
    fields := [f 0 1 .wo, f 2 2 .ro, f 16 16 .ro, f 32 16 .rwl] },
  { name := "RF_IFACE_VERSION", base := 0x04000, reset := 0xF0102,
    fields := [f 0 8 .ro, f 8 8 .ro, f 16 1 .ro, f 17 1 .ro, f 18 1 .ro, f 19 1 .ro] },
  { name := "RF_RING_SQ_BASE", base := 0x04400, n := 64, stride := 0x40, fields := [f 12 52 .rw] },
  { name := "RF_RING_AQ_BASE", base := 0x04408, n := 64, stride := 0x40, fields := [f 12 52 .rw] },
  { name := "RF_RING_CQ_BASE", base := 0x04410, n := 64, stride := 0x40, fields := [f 12 52 .rw] },
  { name := "RF_RING_CFG", base := 0x04418, n := 63, stride := 0x40, fields := ringCfgFields },
  { name := "RF_RING_CFG", base := 0x053D8, fields := ringCfgFields ++ [f 36 1 .rwl] },
  { name := "RF_RING_NOTIFY_ADDR", base := 0x04420, n := 64, stride := 0x40, fields := [f 0 64 .rw] },
  { name := "RF_RING_NOTIFY_CFG", base := 0x04428, n := 64, stride := 0x40,
    fields := [f 0 32 .rw, f 32 8 .rw, f 40 16 .rw] },
  { name := "RF_RING_CTRL", base := 0x04430, n := 64, stride := 0x40,
    fields := [f 0 1 .wo, f 1 1 .wo, f 2 1 .wo, f 8 8 .wo, f 16 8 .wo] },
  { name := "RF_RING_STATUS", base := 0x04438, n := 64, stride := 0x40, fields := [f 0 2 .ro, f 2 8 .ro, f 10 16 .rc] },
  { name := "RF_RING_SEED", base := 0x05400, n := 64, fields := [f 0 64 .rw] },
  { name := "NW_CFG", base := 0x08000, reset := 0x5DC0FA03, fields := [f 0 8 .rwl, f 8 10 .rwl, f 18 16 .rw] },
  { name := "NW_STATUS", base := 0x08008, fields := [f 0 16 .ro, f 16 1 .ro, f 17 1 .ro, f 18 4 .ro] },
  { name := "NW_LOAD", base := 0x08010, fields := [f 0 10 .ro] },
  { name := "NW_GRANT", base := 0x08100, n := 5, fields := ctr },
  { name := "NW_REFUSE", base := 0x08148, n := 7, fields := ctr },
  { name := "NW_MISSED_COUNT", base := 0x08180, fields := ctr }]

/-- Holm sections (16 R581) and the block-wide Row Cache registers (07 R294). -/
def regsHolm : List RegDesc := [
  { name := "IX_COUNTERS", base := 0x10008, n := 4, stride := 0x4000, n2 := 5, stride2 := 8, fields := ctr },
  { name := "RC_STATUS", base := 0x11000, n := 4, stride := 0x4000, fields := [f 0 1 .ro, f 1 1 .ro, f 2 4 .ro] },
  { name := "RC_WAY_DISABLE", base := 0x11008, n := 4, stride := 0x4000, fields := [f 0 16 .rw] },
  { name := "RC_COUNTERS", base := 0x11010, n := 4, stride := 0x4000, n2 := 6, stride2 := 8, fields := ctr },
  { name := "RC_PART_MASK", base := 0x11100, n := 16, reset := 0xFFFF, fields := [f 0 16 .rw] },
  { name := "RC_GLOBAL_CFG", base := 0x11180, reset := 0x604000FA08,
    fields := [f 0 6 .rw, f 6 16 .rw, f 22 4 .rw, f 26 8 .rwl, f 34 12 .rwl] },
  { name := "PA_PROJ_LOADS", base := 0x12008, n := 4, stride := 0x4000, fields := ctr },
  { name := "PA_E4M3_CLAMP_COUNT", base := 0x12010, n := 4, stride := 0x4000, fields := ctr }]

/-- Metadata Cache, Tier S and common Memory Tiers (16 R582). -/
def regsMemory : List RegDesc := [
  { name := "MD_CFG", base := 0x20000, reset := 0x4042, fields := [f 0 1 .rwl, f 1 1 .rw, f 2 8 .rwl, f 10 8 .rw] },
  { name := "MD_WAY_DISABLE", base := 0x20008, fields := [f 0 8 .rw, f 8 1 .w1c] },
  { name := "MD_LFSR", base := 0x20010, reset := 0xACE1, fields := [f 0 16 .rw] },
  { name := "MD_COUNTERS", base := 0x20018, n := 6, fields := ctr },
  { name := "MS_STATUS", base := 0x24000, fields := [f 0 4 .ro, f 4 1 .ro, f 5 1 .ro] },
  { name := "MS_TEMP", base := 0x24008, fields := [f 0 8 .ro, f 8 8 .ro, f 16 8 .ro, f 24 8 .ro] },
  { name := "MS_THERM_CFG", base := 0x24010, reset := 0x3695F, fields := [f 0 8 .rwl, f 8 8 .rwl, f 16 4 .rwl] },
  { name := "MS_COUNTERS", base := 0x24018, n := 3, fields := ctr },
  { name := "MT_CFG", base := 0x28000, reset := 0x421F4064,
    fields := [f 0 12 .rw, f 12 10 .rwl, f 22 8 .rw, f 30 1 .rwl, f 31 4 .rw] },
  { name := "MT_STATUS", base := 0x28008, fields := [f 0 1 .w1c, f 1 1 .ro, f 2 1 .ro, f 3 1 .ro] },
  { name := "MT_RATED_S", base := 0x28010, reset := 34066, fields := [f 0 32 .ro] },
  { name := "MT_RATED_F", base := 0x28018, reset := 2015, fields := [f 0 32 .ro] },
  { name := "MT_RATED_C", base := 0x28020, fields := [f 0 32 .ro] },
  { name := "MT_REPAIR_COUNT", base := 0x28028, fields := ctr },
  { name := "MT_REPAIR_FAIL_COUNT", base := 0x28030, fields := ctr },
  { name := "MT_HPPR_PENDING", base := 0x28038, fields := [f 0 16 .ro] },
  { name := "MT_E4M3_CLAMP_COUNT", base := 0x28100, fields := ctr },
  { name := "MT_ADD_COUNTERS", base := 0x28108, n := 8, fields := ctr },
  { name := "MT_ORD_POOL_BASE", base := 0x28180, fields := [f 0 46 .rwl] },
  { name := "MT_ORD_POOL_SIZE", base := 0x28188, fields := [f 0 46 .rwl] },
  { name := "MT_ORD_POOL_USED", base := 0x28190, fields := [f 0 46 .ro] },
  { name := "MT_JOURNAL_SIZE", base := 0x28198, reset := 0x10000000, fields := [f 0 32 .rwl] },
  { name := "MT_JOURNAL_USED", base := 0x281A0, fields := [f 0 32 .ro] },
  { name := "MT_REG", base := 0x28400, n := 3, stride := 0x80, n2 := 16, stride2 := 8, reset := 0xFA000,
    fields := [f 0 10 .rw, f 10 10 .rw, f 20 12 .rw] },
  { name := "MT_BW", base := 0x28600, n := 3, stride := 0x80, n2 := 16, stride2 := 8, fields := ctr }]

/-- Tier F and Tier C (16 R583). -/
def regsTiers : List RegDesc := [
  { name := "MF_STATUS", base := 0x2C000, fields := [f 0 2 .ro, f 2 4 .ro, f 6 4 .ro, f 10 1 .ro] },
  { name := "MF_TEMP", base := 0x2C008, fields := [f 0 8 .ro, f 8 8 .ro] },
  { name := "MF_COUNTERS", base := 0x2C010, n := 4, fields := ctr },
  { name := "MF_LANE_REPAIR", base := 0x2C100, n := 64, reset := 0xFFF,
    fields := [f 0 6 .ro, f 6 6 .ro, f 12 2 .ro, f 14 1 .ro] },
  { name := "MC_CHAN_MAP", base := 0x2E000, fields := [f 0 32 .ro, f 32 6 .ro, f 38 1 .ro] },
  { name := "MC_CFG", base := 0x2E008, reset := 0x50, fields := [f 0 6 .rwl, f 6 1 .rwl] },
  { name := "MC_COUNTERS", base := 0x2E010, n := 4, fields := ctr },
  { name := "MC_MAPOUT", base := 0x2E030, fields := [f 0 32 .rwl] },
  { name := "MC_STATUS", base := 0x2E038, fields := [f 0 2 .ro, f 2 1 .ro] },
  { name := "MC_FAIL_CAUSE", base := 0x2E100, n := 32, fields := [f 0 4 .ro, f 4 4 .ro] }]

/-- Fabric Port (16 R584). -/
def regsFabric : List RegDesc := [
  { name := "FP_CFG", base := 0x30000, reset := 0x0540A0A0A7080002,
    fields := [f 0 1 .rwl, f 1 1 .rwl, f 2 1 .rw, f 3 1 .rwl, f 4 12 .rwl, f 16 8 .rw, f 24 4 .rw, f 28 8 .rw, f 36 8 .rw,
      f 44 8 .rw, f 52 4 .rw, f 56 8 .rw] },
  { name := "FP_ETYPE", base := 0x30008, reset := 0xBACD88B5, fields := [f 0 16 .rwl, f 16 16 .rwl] },
  { name := "FP_MAC", base := 0x30010, fields := [f 0 48 .rwl] },
  { name := "FP_IP6_LO", base := 0x30018, fields := [f 0 64 .rwl] },
  { name := "FP_IP6_HI", base := 0x30020, fields := [f 0 64 .rwl] },
  { name := "FP_LANE_CFG", base := 0x30028, reset := 0xA0066E,
    fields := [f 0 3 .rw, f 3 3 .rw, f 6 3 .rw, f 9 3 .rw, f 12 8 .rwl, f 20 8 .rw] },
  { name := "FP_BUF_CFG", base := 0x30030, reset := 0x1004004010000110,
    fields := [f 0 16 .rwl, f 16 16 .rw, f 32 12 .rwl, f 44 12 .rwl, f 56 8 .rwl] },
  { name := "FP_LB_CFG", base := 0x30038, fields := [f 0 15 .rw] },
  { name := "FP_RA_ALLOW", base := 0x30040, n := 8, fields := [f 0 15 .rwl, f 15 15 .rwl, f 30 2 .rwl] },
  { name := "FP_ROUTE_CTRL", base := 0x30080, fields := [f 0 15 .rw, f 16 1 .wo, f 17 1 .wo, f 18 1 .ro] },
  { name := "FP_ROUTE_DATA", base := 0x30088, n := 4, fields := [f 0 64 .rw] },
  { name := "FP_NH_MAC", base := 0x30100, n := 8, fields := [f 0 48 .rw] },
  { name := "FP_PORT_CFG", base := 0x30140, n := 8, reset := 0x1009,
    fields := [f 0 1 .rw, f 1 1 .rwl, f 2 1 .rwl, f 3 1 .rwl, f 8 8 .rw] },
  { name := "FP_PORT_STATUS", base := 0x30180, n := 8, fields := [f 0 1 .ro, f 1 4 .ro, f 5 1 .w1c] },
  { name := "FP_PORT_COUNTERS", base := 0x30200, n := 8, stride := 0x40, n2 := 8, stride2 := 8, fields := ctr },
  { name := "FP_COUNTERS", base := 0x30400, n := 8, fields := ctr },
  { name := "FP_FLOWS_OPEN", base := 0x30440, fields := [f 0 14 .ro] }]

/-- Translation Unit and Table Keeper (16 R585). -/
def regsTrans : List RegDesc := [
  { name := "TU_CFG", base := 0x38000, reset := 0x500802, fields := [f 0 3 .rw, f 3 16 .rw, f 19 8 .rw] },
  { name := "TU_STATUS", base := 0x38008, fields := [f 0 1 .w1c, f 1 1 .w1c, f 2 4 .ro] },
  { name := "TU_APERTURE", base := 0x38010, fields := [f 0 46 .rwl, f 63 1 .rwl] },
  { name := "TU_CTX_CTRL", base := 0x38018, fields := [f 0 16 .rw, f 16 1 .wo, f 17 1 .wo, f 18 1 .ro] },
  { name := "TU_CTX_DATA", base := 0x38020, n := 4, fields := [f 0 64 .rw] },
  { name := "TU_WIN_CTRL", base := 0x38040, fields := [f 0 8 .rw, f 16 1 .wo, f 17 1 .wo, f 18 1 .ro] },
  { name := "TU_WIN_DATA", base := 0x38048, n := 2, fields := [f 0 64 .rw] },
  { name := "TU_MIG_REGION", base := 0x38058, fields := [f 0 46 .rwl, f 46 3 .rwl] },
  { name := "TU_MIG_PAGES", base := 0x38060, fields := [f 0 32 .rwl] },
  { name := "TU_MIG_CTRL", base := 0x38068, fields := [f 0 36 .rw, f 36 16 .rw, f 52 1 .wo, f 53 1 .wo, f 54 1 .ro] },
  { name := "TU_HOTQ_BASE", base := 0x38070, fields := [f 0 5 .rw, f 12 34 .rw, f 63 1 .rw] },
  { name := "TU_HOTQ_HEAD", base := 0x38078, fields := [f 0 17 .rw] },
  { name := "TU_HOTQ_TAIL", base := 0x38080, fields := [f 0 17 .ro] },
  { name := "TU_INV_ADDR", base := 0x38088, fields := [f 0 36 .rw, f 36 16 .rw] },
  { name := "TU_INV_CTRL", base := 0x38090, fields := [f 0 2 .rw, f 2 16 .rw, f 18 1 .wo, f 19 1 .ro, f 20 1 .w1c] },
  { name := "TU_COUNTERS", base := 0x38100, n := 10, fields := ctr },
  { name := "TK_CFG", base := 0x40000, reset := 0x21446465,
    fields := [f 0 1 .rw, f 1 7 .rw, f 8 8 .rw, f 16 4 .rw, f 20 8 .rwl, f 28 4 .rwl] },
  { name := "TK_STATUS", base := 0x40008, fields := [f 0 1 .ro, f 1 1 .ro, f 2 1 .ro, f 3 1 .w1c, f 16 15 .ro] },
  { name := "TK_REGISTRY", base := 0x40040, n := 8, fields := [f 0 15 .rwl, f 15 1 .rwl] },
  { name := "TK_FAIL_CTRL", base := 0x40080,
    fields := [f 0 15 .rw, f 16 1 .wo, f 17 1 .wo, f 18 1 .ro, f 19 1 .ro, f 20 1 .ro] },
  { name := "TK_COUNTERS", base := 0x40100, n := 7, fields := ctr },
  { name := "TK_LOAD_TOTAL", base := 0x40138, fields := [f 0 48 .ro] },
  { name := "TK_FMT", base := 0x41000, n := 256, fields := [f 0 64 .ro] }]

/-- Power, security and Test and Telemetry Spine (16 R586). -/
def regsSpine : List RegDesc := [
  { name := "PW_SPEED", base := 0x50000, fields := [f 0 16 .ro, f 16 16 .ro, f 32 16 .ro, f 48 8 .ro] },
  { name := "PW_VDD", base := 0x50008, fields := [f 0 16 .ro, f 16 16 .ro] },
  { name := "PW_TEMP", base := 0x50010, fields := [f 0 8 .ro] },
  { name := "PW_CAP", base := 0x50018, reset := 0xA0, fields := [f 0 8 .rwl] },
  { name := "PW_STATUS", base := 0x50020, fields := [f 0 1 .ro, f 1 1 .w1c] },
  { name := "PW_TDRIFT_COUNT", base := 0x50028, fields := ctr },
  { name := "PW_CANARY", base := 0x50100, n := 16, fields := [f 0 16 .ro, f 16 1 .ro] },
  { name := "SE_STATUS", base := 0x60000,
    fields := [f 0 1 .ro, f 1 1 .ro, f 2 1 .ro, f 3 1 .ro, f 4 1 .ro, f 5 1 .w1c, f 6 1 .ro, f 7 1 .ro, f 8 3 .ro, f 11 1 .ro,
      f 12 7 .ro] },
  { name := "SE_CFG", base := 0x60008, reset := 0x3D, fields := [f 0 1 .rwl, f 1 8 .rwl] },
  { name := "SE_MBOX_CTRL", base := 0x60010, fields := [f 0 8 .rw, f 8 1 .wo, f 9 1 .ro, f 16 8 .ro, f 24 13 .rw] },
  { name := "SE_MBOX_ARG", base := 0x60018, fields := [f 0 64 .rw] },
  { name := "SE_MBOX_IGNORED", base := 0x60020, fields := ctr },
  { name := "SE_MR", base := 0x60100, n := 8, stride := 0x30, n2 := 6, stride2 := 8, fields := [f 0 64 .ro] },
  { name := "SE_MBOX_BUF", base := 0x61000, n := 512, fields := [f 0 64 .rw] },
  { name := "TT_CFG", base := 0x70000, reset := 0xC, fields := [f 0 3 .rw, f 3 1 .rw] },
  { name := "TT_FAULT_STATUS", base := 0x70008, fields := [f 0 5 .w1c, f 5 1 .ro, f 6 1 .w1c] },
  { name := "TT_FAULT_CTRL", base := 0x70010, fields := [f 0 8 .rw, f 8 1 .wo, f 9 1 .ro] },
  { name := "TT_FAULT_DATA", base := 0x70018, n := 4, fields := [f 0 64 .ro] },
  { name := "TT_FAULT_SEQ", base := 0x70038, fields := [f 0 32 .ro] },
  { name := "TT_NOTIFY_ADDR", base := 0x70040, fields := [f 0 64 .rw] },
  { name := "TT_NOTIFY_DATA", base := 0x70048, fields := [f 0 32 .rw] },
  { name := "TT_UPTIME", base := 0x70050, fields := [f 0 64 .ro] },
  { name := "TT_SCRUB_CFG", base := 0x70058, reset := 0xA181801, fields := [f 0 8 .rwl, f 8 8 .rwl, f 16 8 .rwl, f 24 8 .rwl] },
  { name := "TT_SCRUB_STATUS", base := 0x70060, fields := [f 0 4 .w1c] },
  { name := "TT_HOLM_CTRL", base := 0x70068, reset := 0xF0,
    fields := [f 0 4 .rw, f 4 4 .ro, f 8 1 .w1c, f 12 4 .wo, f 16 4 .ro, f 20 4 .ro] },
  { name := "TT_LB_CTRL", base := 0x70070, fields := [f 0 1 .wo, f 1 1 .ro, f 2 1 .w1c, f 16 16 .rw, f 32 16 .ro] },
  { name := "TT_MBIST_STATUS", base := 0x70078, fields := [f 0 11 .ro] },
  { name := "TT_COUNTERS", base := 0x70100, n := 6, fields := ctr },
  { name := "TT_BF_CFG", base := 0x70200, reset := 0x32, fields := [f 0 16 .rw] },
  { name := "TT_BF_STATUS", base := 0x70208, fields := [f 0 8 .w1c] },
  { name := "TT_BF_COUNTERS", base := 0x70210, n := 3, fields := ctr }]

/-- The whole map (16 R578 to R586). -/
def regTable : List RegDesc :=
  regsFront ++ regsHolm ++ regsMemory ++ regsTiers ++ regsFabric ++ regsTrans ++ regsSpine

/-- `off` is one of the offsets `base + stride * i + stride2 * j` with i < n, j < n2 (16 R570). -/
def RegDesc.covers (d : RegDesc) (off : Nat) : Bool :=
  if off < d.base then false
  else
    let r := off - d.base
    if d.n2 ≤ 1 then r % d.stride == 0 && r / d.stride < d.n
    else r / d.stride < d.n && (r % d.stride) % d.stride2 == 0 && (r % d.stride) / d.stride2 < d.n2

/-- The row of the map that holds an offset; `none` for a reserved offset (16 R570). -/
def regAt (off : Nat) : Option RegDesc := regTable.find? (fun d => d.covers off)

/-- Reset value of the register at an offset; 0 at a reserved one. -/
def resetAt (off : Nat) : Word64 :=
  match regAt off with
  | some d => BitVec.ofNat 64 d.reset
  | none => 0#64

/-- The bits that the fields of a register implement; every other bit is reserved and reads 0 (00 R14). -/
def fieldMask (fs : List Fld) : Nat := fs.foldl (fun m x => m ||| ((2 ^ x.w - 1) <<< x.lo)) 0

-- Named offsets.
def CC_ID : Nat := 0x00000
def CC_BLOCK_ID : Nat := 0x00008
def CC_SETUP_LOCK : Nat := 0x00010
def CC_STOP : Nat := 0x00018
def CC_CORE (c : Nat) : Nat := 0x00200 + 8 * c
def RF_IFACE_VERSION : Nat := 0x04000
def RF_SQ_BASE (n : Nat) : Nat := 0x04400 + 0x40 * n
def RF_AQ_BASE (n : Nat) : Nat := 0x04408 + 0x40 * n
def RF_CQ_BASE (n : Nat) : Nat := 0x04410 + 0x40 * n
def RF_CFG (n : Nat) : Nat := 0x04418 + 0x40 * n
def RF_NOTIFY_ADDR (n : Nat) : Nat := 0x04420 + 0x40 * n
def RF_NOTIFY_CFG (n : Nat) : Nat := 0x04428 + 0x40 * n
def RF_CTRL (n : Nat) : Nat := 0x04430 + 0x40 * n
def RF_STATUS (n : Nat) : Nat := 0x04438 + 0x40 * n
def RF_SEED (n : Nat) : Nat := 0x05400 + 8 * n
def NW_CFG : Nat := 0x08000
def NW_STATUS : Nat := 0x08008
def NW_LOAD : Nat := 0x08010
def NW_GRANT (c : Nat) : Nat := 0x08100 + 8 * c
def NW_REFUSE (r : Nat) : Nat := 0x08140 + 8 * r
def NW_MISSED : Nat := 0x08180
def holmBase (h : Nat) : Nat := 0x10000 + 0x4000 * h
def IX_INDEX (h : Nat) : Nat := holmBase h + 0x0008
def IX_DEFAULT (h : Nat) : Nat := holmBase h + 0x0010
def IX_UNIQUE (h : Nat) : Nat := holmBase h + 0x0018
def IX_PIECE (h : Nat) : Nat := holmBase h + 0x0020
def IX_DEGRADED (h : Nat) : Nat := holmBase h + 0x0028
def RC_STATUS (h : Nat) : Nat := holmBase h + 0x1000
def RC_WAY_DISABLE (h : Nat) : Nat := holmBase h + 0x1008
def RC_HIT (h : Nat) : Nat := holmBase h + 0x1010
def RC_MISS (h : Nat) : Nat := holmBase h + 0x1018
def RC_RESCUE (h : Nat) : Nat := holmBase h + 0x1020
def RC_BYPASS (h : Nat) : Nat := holmBase h + 0x1028
def RC_ECC_CORR (h : Nat) : Nat := holmBase h + 0x1030
def RC_ECC_UNCORR (h : Nat) : Nat := holmBase h + 0x1038
def RC_PART_MASK (p : Nat) : Nat := 0x11100 + 8 * p
def RC_GLOBAL_CFG : Nat := 0x11180
def PA_PROJ_LOADS (h : Nat) : Nat := holmBase h + 0x2008
def PA_CLAMP (h : Nat) : Nat := holmBase h + 0x2010
def MD_CFG : Nat := 0x20000
def MD_WAY_DISABLE : Nat := 0x20008
def MD_LFSR : Nat := 0x20010
def MD_HIT : Nat := 0x20018
def MD_MISS : Nat := 0x20020
def MD_PREFETCH : Nat := 0x20028
def MD_ERR_CORR : Nat := 0x20030
def MD_ERR_REFETCH : Nat := 0x20038
def MD_MB_FULL : Nat := 0x20040
def MS_STATUS : Nat := 0x24000
def MS_TEMP : Nat := 0x24008
def MS_THERM_CFG : Nat := 0x24010
def MS_REMAP : Nat := 0x24018
def MS_ECC_CORR : Nat := 0x24020
def MS_ECC_UNCORR : Nat := 0x24028
def MT_CFG : Nat := 0x28000
def MT_STATUS : Nat := 0x28008
def MT_RATED (t : Nat) : Nat := 0x28010 + 8 * t
def MT_REPAIR : Nat := 0x28028
def MT_REPAIR_FAIL : Nat := 0x28030
def MT_HPPR_PENDING : Nat := 0x28038
def MT_CLAMP : Nat := 0x28100
def MT_ADD_APPLIED : Nat := 0x28108
def MT_ADD_CARRY : Nat := 0x28110
def MT_ADD_DROP : Nat := 0x28118
def MT_ADD_DEGRADE : Nat := 0x28120
def MT_ADD_REDELIVER : Nat := 0x28128
def MT_ADD_DUP : Nat := 0x28130
def MT_BAD_SCALE : Nat := 0x28138
def MT_ORD_REFUSE : Nat := 0x28140
def MT_ORD_POOL_BASE : Nat := 0x28180
def MT_ORD_POOL_SIZE : Nat := 0x28188
def MT_ORD_POOL_USED : Nat := 0x28190
def MT_JOURNAL_SIZE : Nat := 0x28198
def MT_JOURNAL_USED : Nat := 0x281A0
def MT_REG (t p : Nat) : Nat := 0x28400 + 0x80 * t + 8 * p
def MT_BW (t p : Nat) : Nat := 0x28600 + 0x80 * t + 8 * p
def MF_STATUS : Nat := 0x2C000
def MF_TEMP : Nat := 0x2C008
def MF_ECC_CORR : Nat := 0x2C010
def MF_ECC_UNCORR : Nat := 0x2C018
def MF_LINK_RETRY : Nat := 0x2C020
def MF_OVERRUN : Nat := 0x2C028
def MF_LANE_REPAIR (n : Nat) : Nat := 0x2C100 + 8 * n
def MC_CHAN_MAP : Nat := 0x2E000
def MC_CFG : Nat := 0x2E008
def MC_ECC_CORR : Nat := 0x2E010
def MC_ECC_UNCORR : Nat := 0x2E018
def MC_LINK_RETRY : Nat := 0x2E020
def MC_OVERRUN : Nat := 0x2E028
def MC_MAPOUT : Nat := 0x2E030
def MC_STATUS : Nat := 0x2E038
def MC_FAIL_CAUSE (n : Nat) : Nat := 0x2E100 + 8 * n
def FP_CFG : Nat := 0x30000
def FP_ETYPE : Nat := 0x30008
def FP_MAC : Nat := 0x30010
def FP_IP6_LO : Nat := 0x30018
def FP_IP6_HI : Nat := 0x30020
def FP_LANE_CFG : Nat := 0x30028
def FP_BUF_CFG : Nat := 0x30030
def FP_LB_CFG : Nat := 0x30038
def FP_RA_ALLOW (n : Nat) : Nat := 0x30040 + 8 * n
def FP_ROUTE_CTRL : Nat := 0x30080
def FP_ROUTE_DATA (q : Nat) : Nat := 0x30088 + 8 * q
def FP_NH_MAC (k : Nat) : Nat := 0x30100 + 8 * k
def FP_PORT_CFG (k : Nat) : Nat := 0x30140 + 8 * k
def FP_PORT_STATUS (k : Nat) : Nat := 0x30180 + 8 * k
def FP_PORT_CTR (k c : Nat) : Nat := 0x30200 + 0x40 * k + 8 * c
def FP_LATE_REPLY : Nat := 0x30400
def FP_FLOW_FULL : Nat := 0x30408
def FP_DISCARD : Nat := 0x30410
def FP_DUP_ID : Nat := 0x30418
def FP_RA_DENY : Nat := 0x30420
def FP_MEMW_FAIL : Nat := 0x30428
def FP_PARTIAL_DROP : Nat := 0x30430
def FP_PEER_DOWN : Nat := 0x30438
def FP_FLOWS_OPEN : Nat := 0x30440
def TU_CFG : Nat := 0x38000
def TU_STATUS : Nat := 0x38008
def TU_APERTURE : Nat := 0x38010
def TU_CTX_CTRL : Nat := 0x38018
def TU_CTX_DATA (q : Nat) : Nat := 0x38020 + 8 * q
def TU_WIN_CTRL : Nat := 0x38040
def TU_WIN_DATA (q : Nat) : Nat := 0x38048 + 8 * q
def TU_MIG_REGION : Nat := 0x38058
def TU_MIG_PAGES : Nat := 0x38060
def TU_MIG_CTRL : Nat := 0x38068
def TU_HOTQ_BASE : Nat := 0x38070
def TU_HOTQ_HEAD : Nat := 0x38078
def TU_HOTQ_TAIL : Nat := 0x38080
def TU_INV_ADDR : Nat := 0x38088
def TU_INV_CTRL : Nat := 0x38090
def TU_WALK : Nat := 0x38100
def TU_PF : Nat := 0x38108
def TU_FAULT : Nat := 0x38110
def TU_DENY : Nat := 0x38118
def TU_SD : Nat := 0x38120
def TU_SD_EXPIRE : Nat := 0x38128
def TU_MIG : Nat := 0x38130
def TU_MIG_FULL : Nat := 0x38138
def TU_MIG_ABANDON : Nat := 0x38140
def TU_HOTQ_DROP : Nat := 0x38148
def TK_CFG : Nat := 0x40000
def TK_STATUS : Nat := 0x40008
def TK_REGISTRY (n : Nat) : Nat := 0x40040 + 8 * n
def TK_FAIL_CTRL : Nat := 0x40080
def TK_DISCARD : Nat := 0x40100
def TK_MIG : Nat := 0x40108
def TK_AUTO_MIG : Nat := 0x40110
def TK_PROMOTE : Nat := 0x40118
def TK_LOST : Nat := 0x40120
def TK_REBUILD : Nat := 0x40128
def TK_STALE : Nat := 0x40130
def TK_LOAD_TOTAL : Nat := 0x40138
def TK_FMT (n : Nat) : Nat := 0x41000 + 8 * n
def PW_SPEED : Nat := 0x50000
def PW_VDD : Nat := 0x50008
def PW_TEMP : Nat := 0x50010
def PW_CAP : Nat := 0x50018
def PW_STATUS : Nat := 0x50020
def PW_TDRIFT_COUNT : Nat := 0x50028
def PW_CANARY (n : Nat) : Nat := 0x50100 + 8 * n
def SE_STATUS : Nat := 0x60000
def SE_CFG : Nat := 0x60008
def SE_MBOX_CTRL : Nat := 0x60010
def SE_MBOX_ARG : Nat := 0x60018
def SE_MBOX_IGNORED : Nat := 0x60020
def SE_MR (m w : Nat) : Nat := 0x60100 + 0x30 * m + 8 * w
def SE_MBOX_BUF (i : Nat) : Nat := 0x61000 + 8 * i
def TT_CFG : Nat := 0x70000
def TT_FAULT_STATUS : Nat := 0x70008
def TT_FAULT_CTRL : Nat := 0x70010
def TT_FAULT_DATA (q : Nat) : Nat := 0x70018 + 8 * q
def TT_FAULT_SEQ : Nat := 0x70038
def TT_NOTIFY_ADDR : Nat := 0x70040
def TT_NOTIFY_DATA : Nat := 0x70048
def TT_UPTIME : Nat := 0x70050
def TT_SCRUB_CFG : Nat := 0x70058
def TT_SCRUB_STATUS : Nat := 0x70060
def TT_HOLM_CTRL : Nat := 0x70068
def TT_LB_CTRL : Nat := 0x70070
def TT_MBIST_STATUS : Nat := 0x70078
def TT_FAULT_DROP : Nat := 0x70100
def TT_FLASH_SKIP : Nat := 0x70108
def TT_AGING_WARN : Nat := 0x70110
def TT_LB_RUN : Nat := 0x70118
def TT_LB_FAIL : Nat := 0x70120
def TT_HOLM_TEST : Nat := 0x70128
def TT_BF_CFG : Nat := 0x70200
def TT_BF_STATUS : Nat := 0x70208
def TT_BF_REWIND : Nat := 0x70210
def TT_BF_STALL : Nat := 0x70218
def TT_HP_TIMEOUT : Nat := 0x70220

end Sys2Proof.Machine
end

