-- ==== Sys2Proof/Machine/State.lean ====
section
/-! DEFINITION. The state of the block as plain data: every register, memory, ring, cache, table, flow, key and pin that the
manual gives it, the queue of waiting commands, the stops, and the state while reset is held. -/

namespace Sys2Proof.Machine

/-- Reasons to stop with a fault. No meaning of this model raises one: every event of the manual has an outcome. -/
inductive Fault where
  /-- Raised by nobody. Safe: it never hides behaviour. -/
  | unraised
  deriving DecidableEq, Repr

/-- Reasons to refuse. -/
inductive Refusal where
  /-- Raised by an arm of the dispatch whose command has no meaning yet. Safe: nothing is claimed about it. -/
  | notModelled (mnemonic : String)
  deriving DecidableEq, Repr

/-- What the block is doing as a whole. -/
inductive Life where
  /-- rst_n is low (15 R567). -/
  | inReset
  /-- Booting or running. -/
  | alive
  /-- Recovery mode (13 R491). -/
  | recovery
  /-- Stopped by a fatal cause until reset (14 R520). -/
  | stopped
  deriving DecidableEq, Repr

/-- Pins and global state. -/
structure Ctl where
  life : Life
  /-- Latest instant, in ps. -/
  now : Nat
  /-- Instant of reset release (14 R543 TT_UPTIME). -/
  released : Nat
  /-- Instant of the fatal stop (14 R520). -/
  stopAt : Nat
  /-- Counter of values that the manual leaves open; the model's own field. -/
  fresh : Nat
  pmFatal : Bool
  pmSafe : Bool
  /-- pm_throttle_req (15 R557). -/
  throttle : Nat
  vddOk : Bool
  hpLinkUp : Bool
  /-- Wrapper instruction register (14 R539). -/
  wrap : WrapInstr
  /-- Requested VDD_LOGIC in mV, pm_vdd_req (15 R557). -/
  vddReq : Nat
  /-- Instant of the last voltage step (15 R565). -/
  lastStep : Nat
  /-- Voltage limit of 08 R320 in mV, and the level of its table that is held. -/
  thermLimit : Nat
  thermLevel : Nat
  /-- Instant of the last change of pm_throttle_req (15 R558). -/
  throttleAt : Nat
  /-- Power limit of 10 R387 in mV. -/
  powerLimit : Nat
  /-- Instant at which Narrows acknowledged the pending floor (10 R386). -/
  vfpAck : Option Nat
  /-- Value that the last register read by the host or the network returned (00 R13). -/
  readOut : Nat
  /-- Results of self-test and training that keep VALID clear (14 R538, 08 R307). -/
  mbistBad : Bool
  trainBad : Bool
  trained : Bool
  /-- VALID of the configuration record waits for training (08 R305). -/
  wantValid : Bool
  deriving DecidableEq, Repr

/-- A slot from another block held until its acceptance record, by index; no bytes stand for one that could not be corrected (03 R95, R148). -/
abbrev HeldSlot := Nat × List Byte

/-- One doorbell not yet exhausted: new tail and commit instant (03 R105). -/
abbrev Bell := Nat × Nat

/-- A ring beside its registers (03). -/
structure Ring where
  head : Nat
  tail : Nat
  seq : Nat
  cqHead : Nat
  /-- Write index: every slot before it is written. -/
  cqTail : Nat
  /-- Reservation index (03 R114). -/
  cqRsv : Nat
  /-- Reserved runs already written: start and count. -/
  cqDone : List (Nat × Nat)
  /-- Minor version enabled by the attach (03 R145). -/
  minor : Nat
  /-- Ring map: 4 KiB virtual page to physical global page, and whether it is for writing (11 R421). -/
  map : List (Nat × Nat × Bool)
  slots : List HeldSlot
  bells : List Bell
  /-- Records with NOTIFY since the last notification, and the instant of the first (03 R117). -/
  notifyCount : Nat
  notifyFirst : Nat
  /-- RF_RING_NOTIFY_CFG as it stood when that record was written (03 R143). -/
  notifyCfg : Nat
  /-- Counters of 14 R541. -/
  accepted : Nat
  refused : Nat
  doneOk : Nat
  doneErr : Nat
  rows : Nat
  elapsed : Nat
  late : Nat
  maxElapsed : Nat
  /-- The ring has become FAULTED since its attach: its records are discarded (03 R146). -/
  broken : Bool
  deriving DecidableEq, Repr

/-- Progress of an accepted command. -/
inductive Phase where
  /-- Not begun (03 R146). -/
  | accepted
  /-- Begun; waiting for the record of its table (12 R450). -/
  | wantRecord
  /-- Begun; waiting for lists, replies or acknowledgements. -/
  | waiting
  /-- Finished; its completion record is due. -/
  | done
  deriving DecidableEq, Repr

/-- What a position of a command resolved to (04 R155, R157). -/
inductive PosKind where
  | pad
  | dflt
  | loc
  | remote (owner : Nat)
  /-- A row that fails at resolution: owner of the entry, or this block where the entry cannot be read, and the event's row in 04 R181. -/
  | failed (owner event : Nat)
  /-- A local row that could not be read. -/
  | bad
  deriving DecidableEq, Repr

/-- One position: row number, kind, weight, row value (FP32 or INT32 patterns). -/
structure Pos where
  idx : Nat
  kind : PosKind
  w : F32
  v : List F32
  /-- Findings of its conversion, as a FINDINGS byte (05 R216). -/
  fnd : Nat
  /-- Exchange that asks its owner for it. -/
  xid : Option Nat := none
  deriving DecidableEq, Repr

/-- One bag's partial from an owner (09 R356): the exchange that brought it, pair components, degraded positions, flags. -/
structure Part where
  owner : Nat
  xid : Nat
  bag : Nat
  s : List F32
  c : List F32
  ndeg : Nat
  flags : Nat
  deriving DecidableEq, Repr

/-- Why an exchange number is awaited (09 R350). -/
inductive XKind where
  /-- A bundle: owner and the rows or bags it asked for. -/
  | bundle
  /-- A bundle that reads the projection matrix. -/
  | proj
  /-- An ADD: journal entries are cleared by its acknowledgement. -/
  | add
  /-- MEM_READ of part of a command's lists or buffers: global address. -/
  | listRead (addr : Nat)
  /-- MEM_READ of a submission slot at another block: ring and index (03 R95, R146). -/
  | slotRead (ring idx : Nat)
  /-- MEM_READ of an extension list for a served bundle (09 R355). -/
  | extRead (srv addr : Nat)
  /-- MEM_WRITE of a ring's record, data or notification (09 R364). -/
  | ringWrite (ring : Nat)
  /-- MEM_WRITE of a checkpoint image. -/
  | imageWrite
  /-- An ECHO of a loop-back: offset in the pattern (09 R374). -/
  | echo (off : Nat)
  /-- Confirmation of a secondary (06 R235). -/
  | secondary (wait tbl ver group : Nat)
  /-- Reservation of ordered slots. -/
  | slots
  /-- A COMMIT (06 R242). -/
  | commit
  /-- The record, or one entry, of a table. -/
  | record (tbl : Nat)
  | entry (tbl ver group : Nat)
  /-- A step of a Table Keeper operation. -/
  | op (id : Nat)
  /-- A command's request to a coordinator or an owner. -/
  | ask
  | declare
  | query
  /-- An update whose acknowledgement is missing is resent (12 R451). -/
  | update
  deriving DecidableEq, Repr

/-- An awaited reply. -/
structure Xchg where
  xid : Nat
  dst : Nat
  kind : XKind
  handle : Nat
  /-- The message, kept for a resend. -/
  msg : List Byte
  lane : Nat
  deriving DecidableEq, Repr

/-- An accepted command without a completion record (03). -/
structure Cmd where
  handle : Nat
  ring : Nat
  /-- Descriptor bytes after 03 R136, 128 or 256. -/
  desc : List Byte
  /-- Reference instant in ps, bound and finishing reserve in ns (10 R398). -/
  ref : Nat
  bound : Nat
  fin : Nat
  /-- Granted class 1 to 5 (03 R109). -/
  cls : Nat
  /-- Completion slots reserved: start, count, and whether the record takes five (03 R114). -/
  cqStart : Nat
  cqCount : Nat
  cqFive : Bool
  /-- Bound versions of the table and of the projection table (03 R55). -/
  ver : Nat
  pver : Nat
  ctx : Nat
  /-- PUB_VER was 0 at acceptance (06 R246). -/
  noPub : Bool
  /-- Holm order (04 R162). -/
  order : List Nat
  /-- Command key (05 R213). -/
  kcmd : Nat
  /-- Charged work: resource and amount (10 R391). -/
  work : List (Nat × Nat)
  /-- Tiers of this block in which it touches row groups (08 R313, R318). -/
  tiers : List Nat
  /-- Journal bytes reserved (06 R249). -/
  jrsv : Nat
  phase : Phase
  status : Nat
  flags : Nat
  rows : Nat
  residx : Nat
  failblk : Nat
  faultaddr : Nat
  /-- Inline result, when it is returned so (03 R116). -/
  result : List Byte
  inl : Bool
  /-- Bytes of lists and buffers fetched from other blocks, by global address. -/
  fetched : List (Nat × List Byte)
  /-- Positions resolved and local rows fetched. -/
  pos : List Pos
  /-- Piece of each position (04 R161). -/
  pieces : List Nat
  /-- Owners whose replies are awaited. -/
  owners : List Nat
  parts : List Part
  /-- Rows returned by owners: owner, row index, output bytes, degraded mark. -/
  got : List (Nat × Nat × List Byte × Bool)
  /-- Row adds ready for hand-off: owner, row, kind, elements. -/
  adds : List (Nat × RowAdd)
  handedOff : Bool
  /-- Events of 04 R181 and 06 R252 met so far, with the block at fault. -/
  events : List (Nat × Nat)
  /-- Group index of a running group command. -/
  next : Nat
  /-- Steps taken: 0 reading lists, 1 resolved and asking owners, 2 handed off or writing. -/
  stage : Nat
  /-- Bag offsets (03 R124), units below which outputs are written, and the status with which the command then ends
  (03 R124, 02 R65). -/
  offs : List Nat
  limit : Nat
  endStatus : Nat
  /-- Rows of the projection table and the events they met (04 R179, R180). -/
  ppos : List Pos
  pevents : List (Nat × Nat)
  /-- The byte of the degraded map that holds bit RESUME (04 R186). -/
  mapByte : Nat
  /-- A wait has reached the work deadline: a held access is a retryable fault (11 R425). -/
  expired : Bool
  /-- Owners whose bundles wait for the staging area (09 R355). -/
  unsent : List Nat
  /-- The checks that need the table's record have been made (03 R137). -/
  checked : Bool
  deriving DecidableEq, Repr

/-- A row group held here (02 R67, 12). -/
structure Group where
  tbl : Nat
  ver : Nat
  g : Nat
  /-- Tier S offset of its residency entry, which holds BASE, TIER and SECONDARY (02 R67, 12 R455). -/
  res : Nat
  base : Nat
  tier : Nat
  secondary : Bool
  /-- The source keeps answering reads after the cutover (12 R466 step 5). -/
  leaving : Bool
  /-- Destination while the group moves from here, and the rows already copied. -/
  moving : Option Nat
  /-- Last committed step (06 R241). -/
  step : Option Nat
  /-- Load count (12 R463). -/
  load : Nat
  deriving DecidableEq, Repr

/-- The states of a version held here. -/
inductive VState where
  | building | published | current | retired
  deriving DecidableEq, Repr

/-- A version of a table held here: its map, slot and state. -/
structure Version where
  tbl : Nat
  ver : Nat
  st : VState
  pmap : Nat
  fmt : Nat
  deriving DecidableEq, Repr

/-- A table record held here (02 R50), with the owner set. -/
structure TableRec where
  tbl : Nat
  curVer : Nat
  pubVer : Nat
  rows : Nat
  ctx : Nat
  flags : Nat
  recipe : Nat
  defrow : Nat
  rcpp : Nat
  owners : List Nat
  otier : Nat
  /-- Tier S offset of the 64 bytes of R50; none when there was no room for them. -/
  loc : Option Nat
  /-- Its coordinator has begun a TABLE_DESTROY of it (02 R92). -/
  dying : Bool
  /-- Order of use, for eviction (12 R450). -/
  used : Nat
  deriving DecidableEq, Repr

/-- An operation in progress at its coordinator, its phase and the blocks whose acknowledgement is missing. -/
structure Op where
  id : Nat
  tbl : Nat
  kind : OpKind
  phase : Nat
  waiting : List Nat
  /-- Who asked: block, handle and exchange; this block when it is local. -/
  from_ : Nat
  handle : Nat
  xid : Nat
  ok : Bool
  /-- Groups moved. -/
  count : Nat
  deriving DecidableEq, Repr

/-- A registry entry beside the record (12 R447). -/
structure RegEntry where
  tbl : Nat
  holders : List Nat
  replicas : List (Nat × Nat)
  destroying : Bool
  /-- Blocks that still owe a redelivery report, with the failed block (12 R471). -/
  redeliver : List (Nat × Nat)
  deriving DecidableEq, Repr

/-- What this block owes a coordinator once its own commands allow it. -/
inductive OwedKind where
  | prepare (tbl : Nat)
  | retire (tbl ver : Nat)
  | destroy (tbl : Nat)
  | release (tbl ver group src : Nat)
  /-- Redelivery for a table's groups of a failed block (12 R471). -/
  | redeliver (tbl failed : Nat)
  deriving DecidableEq, Repr

/-- A journal entry: an add handed off and not yet acknowledged (06 R249). -/
structure JEntry where
  owner : Nat
  tbl : Nat
  ver : Nat
  ctx : Nat
  row : Nat
  val : List F32
  plain : Bool
  carried : Bool
  origin : Nat
  handle : Nat
  kcmd : Nat
  xid : Nat
  /-- The wait that a carried or forwarded add holds back. -/
  wait : Option Nat
  deriving DecidableEq, Repr

/-- A slot of the ordered pool, held or reserved (06 R237 to R239). -/
structure Slot where
  tbl : Nat
  ver : Nat
  src : Nat
  row : Nat
  plain : Bool
  nel : Nat
  /-- The folded partial; none while only reserved. -/
  val : Option (List F32)
  /-- Commands (source, handle) that rely on the slot, and those of them that have completed (06 R239). -/
  users : List (Nat × Nat)
  ended : List (Nat × Nat) := []
  /-- The exchange by which the secondary confirms the commit that took the value (06 R240). -/
  hold : Option Nat := none
  /-- This is a mirror kept for another owner (06 R238). -/
  mirror : Bool
  deriving DecidableEq, Repr

/-- Adds or a commit that wait for carries or confirmations (06 R235, R245; 09 R359): a received message, or this block's own
hand-off (`src` is this block). -/
structure AddWait where
  id : Nat
  src : Nat
  lane : Nat
  xid : Nat
  handle : Nat
  /-- The wait answers a COMMIT: `napplied` counts its rows. -/
  commit : Bool
  napplied : Nat
  drops : List (Nat × Nat)
  findings : Nat
  left : Nat
  /-- Instant of the cutoff of the command that the adds belong to. -/
  due : Nat
  deriving DecidableEq, Repr

/-- A served bundle that waits for extension lists (09 R355). -/
structure Served where
  id : Nat
  src : Nat
  lane : Nat
  msg : List Byte
  lists : List (Nat × List Byte)
  left : Nat
  deriving DecidableEq, Repr

/-- A row that this block has fetched for a bundle of another block: every message of the bundle uses the same bytes (04 R156). -/
structure ServedRow where
  src : Nat
  handle : Nat
  tbl : Nat
  ver : Nat
  row : Nat
  /-- Elements and FINDINGS byte; none when the row could not be read. -/
  val : Option (List F32 × Nat)
  /-- Remote cutoff of the bundle. -/
  due : Nat
  deriving DecidableEq, Repr

/-- Tables and the Table Keeper. -/
structure Tables where
  recs : List TableRec
  vers : List Version
  groups : List Group
  /-- Allocated extents: tier, base, bytes. -/
  extents : List (Nat × Nat × Nat)
  /-- Storage reserved for versions: table, version, tier, bytes (12 R453). -/
  rsv : List (Nat × Nat × Nat × Nat)
  journal : List JEntry
  slots : List Slot
  /-- Recent-add log: origin, handle, row and instant (06 R236). -/
  recent : List (Nat × Nat × Nat × Nat)
  ops : List Op
  registry : List RegEntry
  nextOp : Nat
  /-- Free capacities reported by blocks (12 R464). -/
  freeCap : List (Nat × List Nat)
  /-- Load reports of the period: table, owner, sum, hottest groups. -/
  loads : List (Nat × Nat × Nat × List (Nat × Nat))
  /-- Reports of DOWN: subject, reporter, instant (12 R470). -/
  downs : List (Nat × Nat × Nat)
  /-- Acknowledgements and reports owed, each with the request it answers. -/
  owed : List (TkHdr × OwedKind)
  /-- Operations mirrored here for another coordinator (12 R447). -/
  mirrorOps : List Op
  /-- Secondaries to rebuild: table, version, group (12 R469). -/
  rebuilds : List (Nat × Nat × Nat)
  addWaits : List AddWait
  /-- Carried and forwarded adds that wait for journal space (06 R249). -/
  carries : List JEntry
  served : List Served
  srvRows : List ServedRow
  deriving DecidableEq, Repr

/-- State of a Row Cache line (07 R257). -/
inductive LineSt where
  | valid | filling | evicting
  deriving DecidableEq, Repr

/-- A way of the Row Cache that is not INVALID, with the line number that its tag holds; a way that was INVALID when it was chosen waits
EVICTING without an old line (07 R270). -/
structure RcLine where
  slice : Nat
  set : Nat
  way : Nat
  tag : Nat
  sectors : Nat
  heat : Nat
  st : LineSt
  deriving DecidableEq, Repr

/-- An outstanding fill: line number, way (none: bypassed), requested, arrived and stale sectors (07 R268 to R271). Each request that
fetches sectors adds one; the fills of one line count as one of the 512 (07 R269). -/
structure RcFill where
  slice : Nat
  line : Nat
  way : Option Nat
  part : Nat
  want : Nat
  arrived : Nat
  stale : Nat
  deriving DecidableEq, Repr

/-- A miss that waits because all 512 fill lines of its slice are in use (07 R269). -/
structure RcWait where
  slice : Nat
  line : Nat
  part : Nat
  want : Nat
  deriving DecidableEq, Repr

/-- Way bookkeeping of one slice (07 R274 to R276). -/
structure SliceWays where
  /-- Physical way of each logical way, and the spare. -/
  phys : List Nat
  spare : Nat
  /-- The spare holds a retired way. -/
  used : Bool
  errs : List Nat
  /-- Last logical way rotated. -/
  rot : Nat
  deriving DecidableEq, Repr

/-- A Metadata Cache line (07 R277). -/
structure MdLine where
  set : Nat
  way : Nat
  tag : Nat
  deriving DecidableEq, Repr

/-- An outstanding Metadata Cache fill with the way chosen for it; none: served without allocation (07 R280, R281). -/
structure MdFill where
  addr : Nat
  way : Option Nat
  stale : Bool
  deriving DecidableEq, Repr

/-- A merging-buffer entry (07 R282): line address, written bytes, instant of opening. -/
structure MbEntry where
  line : Nat
  mask : Nat
  opened : Nat
  deriving DecidableEq, Repr

/-- The caches (07). Data is that of the memory behind them (both are write-through), so only tags and states are held. -/
structure Caches where
  lines : List RcLine
  ptrs : List (Nat × Nat)
  fills : List RcFill
  /-- Misses that wait for a free fill line, oldest first. -/
  rcWait : List RcWait
  ways : List SliceWays
  /-- Slices that are walking for a returning Holm (07 R260). -/
  walking : List Nat
  md : List MdLine
  mdFills : List MdFill
  mdErrs : List Nat
  /-- Ways that have disabled themselves (07 R288). -/
  mdSelf : List Nat
  mb : List MbEntry
  deriving DecidableEq, Repr

/-- A sent frame not yet acknowledged (09 R348). -/
structure TxFrame where
  psn : Nat
  payload : List Byte
  cost : Nat
  /-- Instant of its last sending. -/
  sent : Nat
  deriving DecidableEq, Repr

/-- A message of a flow: number, bytes, bytes already framed. -/
structure OutMsg where
  id : Nat
  bytes : List Byte
  off : Nat
  deriving DecidableEq, Repr

/-- States of a flow in the table (09 R346); CLOSED flows are absent. -/
inductive FlowSt where
  | opening | open_ | closing
  deriving DecidableEq, Repr

/-- A flow (09 R344 to R349). -/
structure Flow where
  partner : Nat
  lane : Nat
  st : FlowSt
  epoch : Nat
  /-- This block's ID when the flow opened (01 R37). -/
  self : Nat
  port : Option Nat
  /-- Ports failed for this partner. -/
  badPorts : List Nat
  psn : Nat
  /-- Every sent PSN below it is acknowledged. -/
  acked : Nat
  unacked : List TxFrame
  /-- Credit: units sent, latest limit received. -/
  units : Nat
  climit : Nat
  queue : List OutMsg
  msgId : Nat
  /-- Messages not fully acknowledged, for a resend in a new epoch: number, bytes and last PSN. -/
  live : List (Nat × List Byte × Nat)
  window : Nat
  lastHalve : Nat
  timeouts : Nat
  /-- Receive side. -/
  rxPsn : Nat
  rxUnits : Nat
  rxLimit : Nat
  /-- Units received whose messages are not whole yet. -/
  rxHeld : Nat
  partials : List (Nat × List Byte)
  sinceAck : Nat
  oldestRx : Nat
  nakAt : Option Nat
  ece : Bool
  lastUse : Nat
  deriving DecidableEq, Repr

/-- A transmitted frame, as it left: port, partner and octets, without the MACsec ICV and the FCS; enciphered octets stand in clear. -/
structure Egress where
  port : Nat
  dst : Nat
  /-- Every octet before the Strait header (09 R339). -/
  link : List Byte
  hdr : List Byte
  payload : List Byte
  deriving DecidableEq, Repr

/-- A delivered message (09 R352). -/
structure InMsg where
  src : Nat
  lane : Nat
  bytes : List Byte
  deriving DecidableEq, Repr

/-- A loop-back test of the fabric in progress (09 R372, R373). -/
structure LbRun where
  handle : Nat
  depth : Nat
  port : Nat
  /-- 0: the flows of the port drain. 1: F3 has asked for the SerDes loop-back. 2: F4 awaits its ECHO_REPLYs. 3: M2 or M3 has
  slices to run. -/
  stage : Nat
  /-- Instant at which the stage began. -/
  since : Nat
  /-- Bits that differed, offset of the first, bytes compared. -/
  errs : Nat
  first : Option Nat
  bytes : Nat
  deriving DecidableEq, Repr

/-- The Fabric Port (09). -/
structure Fabric where
  flows : List Flow
  /-- Flow epoch counter (09 R345). -/
  epoch : Nat
  /-- Route table: block and 32 bytes; an absent entry is zero (09 R334). -/
  routes : List (Nat × List Byte)
  xid : Nat
  xchg : List Xchg
  inbox : List InMsg
  egress : List Egress
  /-- Stored replies to REG messages: source, exchange, reply and instant (09 R353). -/
  regReplies : List (Nat × Nat × List Byte × Nat)
  /-- Paused priorities: port, priority, end of the pause, start of the pause (09 R329). -/
  pauses : List (Nat × Nat × Nat × Nat)
  /-- Priorities whose pauses are ignored until an instant. -/
  ignorePause : List (Nat × Nat × Nat)
  /-- Ports that left service with CAUSE FEC less than one second ago (09 R367). -/
  fecHold : List Nat
  /-- Bytes sent and received on all ports (14 R542). -/
  txBytes : Nat
  rxBytes : Nat
  /-- Extension lists staged in Tier S: handle, offset and bytes (09 R355). -/
  stage : List (Nat × Nat × Nat)
  lb : List LbRun
  /-- Messages that wait for a flow table entry: partner, lane and bytes (09 R344). -/
  stalled : List (Nat × Nat × List Byte)
  deriving DecidableEq, Repr

/-- A leaf translation held in the TLB (11 R420); the list keeps the most recently used first. -/
structure Tlb where
  ctx : Nat
  vpn : Nat
  /-- Pages of 4 KiB that the leaf covers. -/
  size : Nat
  pa : Nat
  r : Bool
  w : Bool
  /-- A and D as the block knows them (11 R418). -/
  a : Bool
  d : Bool
  /-- Address of the leaf entry. -/
  pte : Nat
  deriving DecidableEq, Repr

/-- An upper-level entry held in the walk cache: level, index prefix, next table (11 R420). -/
structure WalkEnt where
  ctx : Nat
  level : Nat
  pre : Nat
  next : Nat
  deriving DecidableEq, Repr

/-- A host-port request without a response (15 R551): its tag, packet type, bytes that it replaced, and its user. -/
structure HReq where
  tag : Nat
  hopc : Nat
  ctx : Nat
  addr : Nat
  len : Nat
  /-- Bytes that a write replaced. -/
  old : List Byte
  /-- Ring whose structure it serves. -/
  ring : Option Nat
  /-- Command that it serves; from 2^32 on, the access of another block that it serves (01 R596). -/
  handle : Nat
  deriving DecidableEq, Repr

/-- A host-port packet sent in answer: type, tag, error flag, data. -/
structure HOut where
  hopc : Nat
  tag : Nat
  err : Bool
  data : List Byte
  deriving DecidableEq, Repr

/-- A pending shoot-down (11 R423). -/
structure Shoot where
  scope : SdScope
  /-- Tag of the INV packet; none for TU_INV_CTRL. -/
  htag : Option Nat
  /-- A change of ROOT started it: nobody is told. -/
  silent : Bool
  deriving DecidableEq, Repr

/-- The Translation Unit and the host port (11, 15). -/
structure Trans where
  /-- Context table: identifier and 32 bytes; an absent entry is zero. -/
  ctxs : List (Nat × List Byte)
  /-- Window table: index and 16 bytes. -/
  wins : List (Nat × List Byte)
  tlb : List Tlb
  walks : List WalkEnt
  /-- Frame table: frame, context, VPN, original physical address (11 R430). -/
  frames : List (Nat × Nat × Nat × Nat)
  /-- Pages whose migration a fault has asked for: context, VPN, and whether PULL asked. -/
  migs : List (Nat × Nat × Bool)
  /-- Hot counters: context, VPN, count, first count (11 R433). -/
  hot : List (Nat × Nat × Nat × Nat)
  shoots : List Shoot
  /-- INV packets that the port holds while eight are pending. -/
  heldInvs : List Shoot
  /-- Commands that wait on a shoot-down: handle and address. -/
  waits : List (Nat × Nat)
  hreqs : List HReq
  htag : Nat
  hout : List HOut
  deriving DecidableEq, Repr

/-- A fault record (14 R515). -/
structure FaultRec where
  seq : Nat
  cls : Nat
  source : Nat
  cause : Nat
  time : Nat
  detail : Nat
  count : Nat
  deriving DecidableEq, Repr

/-- The fuses (13 R487, R497, R494): kept through reset. -/
structure Fuses where
  keyHash : List (List Byte)
  revoked : List Bool
  svn : Nat
  approvedOnly : Bool
  uds : List Byte
  deriving DecidableEq, Repr

/-- The flash (13 R485): bytes that are not erased, and the flash log in its parts; kept through reset. -/
structure Flash where
  cells : List (Nat × Byte)
  faults : List FaultRec
  /-- Rows logged for hard repair: tier and offset (08 R312). -/
  repairs : List (Nat × Nat)
  /-- Channels recorded as failed, and MC_MAPOUT (08 R308, 14 R531). -/
  failed : Nat
  mapout : Nat
  deriving DecidableEq, Repr

/-- An installed security association (09 R330). -/
structure Sa where
  port : Nat
  rx : Bool
  an : Nat
  key : List Byte
  ssci : Nat
  salt : List Byte
  pn : Nat
  deriving DecidableEq, Repr

/-- The security core and the other cores (13). -/
structure Sec where
  /-- Slot booted, header of the running image, and the digests of its sections. -/
  slot : Nat
  header : List Byte
  digests : List (List Byte)
  kek : Option (List Byte)
  sas : List Sa
  /-- DRBG requests since the last seeding. -/
  drbg : Nat
  dlLen : Nat
  dlDone : Nat
  /-- Mailbox command in progress. -/
  busyOp : Option Nat
  /-- Instants of each core's restarts: core and instant. -/
  restarts : List (Nat × Nat)
  restartSum : Nat
  confirmSeen : Bool
  deriving DecidableEq, Repr

/-- The Test and Telemetry Spine (14). -/
structure Spine where
  /-- Fault records, newest first, at most 256. -/
  faults : List FaultRec
  /-- Instant of the last notification of a fault, and whether a coalesced one is owed (14 R518). -/
  lastNotify : Option Nat
  notifyOwed : Bool
  lastFlash : Option Nat
  /-- The last telemetry snapshot (14 R542). -/
  snap : List Byte
  /-- Block power of the last sample, in 0.1 W. -/
  power : Nat
  acceptedAll : Nat
  /-- Holms whose test returns them on a pass. -/
  returning : List Nat
  /-- Holms that have failed. -/
  holmFailed : List Nat
  /-- H1 packets still to turn round, and those that the run turns round in all (14 R535). -/
  h1Left : Nat
  h1Count : Nat
  /-- Delay lines: line and setting. -/
  lines : List (Nat × Nat)
  /-- Patrol scrub positions of the tiers. -/
  scrub : List Nat
  /-- Corrected errors of the last 24 hours: tier, offset of the row, instant (08 R311). -/
  rowErrs : List (Nat × Nat × Nat)
  /-- Repairs pending: tier and offset (08 R313). -/
  repairs : List (Nat × Nat)
  /-- Instant of the last repair or loop-back slice started in a channel: tier times 256 plus die times 64 plus channel (08 R313,
  14 R536). -/
  repairAt : List (Nat × Nat)
  /-- PHY updates in progress: tier and channel. -/
  phyupd : List (Nat × Nat)
  /-- Spare rows used by Tier S banks, at boot and at run time: bank key and count (08 R306, R311). -/
  spares : List (Nat × Nat)
  /-- Buckets and remaining caps of the regulators in bytes (08 R318), by tier times 16 plus partition; the write ports of Tier S
  from 64. -/
  buckets : List (Nat × Nat)
  caps : List (Nat × Nat)
  /-- Floors in effect, by tier times 16 plus partition; one not listed is 0 (08 R319). -/
  floors : List (Nat × Nat)
  /-- Uncorrectable words (Tier S) and failed transfers (Tiers F and C) of the last second: unit and instant; the unit is tier times
  256 plus die times 64 plus channel (08 R314, R315). -/
  chanErrs : List (Nat × Nat)
  /-- Writes of 64 B queued at the channels of Tier F and Tier C: tier times 64 plus channel, count, and instant of the oldest
  (08 R302). -/
  writeQ : List (Nat × Nat × Nat)
  /-- Tier C devices that run at twice the refresh rate (08 R322). -/
  hot2x : List Nat
  deriving DecidableEq, Repr

/-- The state of the block and the queue of commands that wait. -/
structure State where
  ctl : Ctl
  /-- Registers, ascending by offset; an offset not listed holds its reset value (16). -/
  regs : List (Nat × Word64)
  /-- Bytes of the tiers and of host memory: key tier × 2^46 + offset, ascending; an unlisted byte reads 0. -/
  mem : List Host.Cell
  /-- Poisoned 64-bit words, by key divided by 8 (08 R310). -/
  poison : List Nat
  /-- Rings, by number; an absent one is as at reset. -/
  rings : List (Nat × Ring)
  /-- Reference instant of the latest descriptor on any ring (03 R105). -/
  lastRef : Nat
  cmds : List Cmd
  tab : Tables
  cache : Caches
  fab : Fabric
  tu : Trans
  fuses : Fuses
  flash : Flash
  sec : Sec
  spine : Spine
  /-- Commands that wait, first in first out. -/
  pending : List Instr
  deriving DecidableEq, Repr

/-- A ring at reset and at attach (03 R144, R147). -/
def Ring.zero : Ring :=
  { head := 0, tail := 0, seq := 0, cqHead := 0, cqTail := 0, cqRsv := 0, cqDone := [], minor := 0, map := [], slots := [],
    bells := [], notifyCount := 0, notifyFirst := 0, notifyCfg := 0, accepted := 0, refused := 0, doneOk := 0, doneErr := 0, rows := 0,
    elapsed := 0, late := 0, maxElapsed := 0, broken := false }

/-- Pins while rst_n is low (15 R557, R567): 0.75 V requested, pm_safe high. -/
def Ctl.zero : Ctl :=
  { life := .inReset, now := 0, released := 0, stopAt := 0, fresh := 0, pmFatal := false, pmSafe := true, throttle := 0, vddOk := true,
    hpLinkUp := true, wrap := .bypass, vddReq := 750, lastStep := 0, thermLimit := 900, thermLevel := 0, throttleAt := 0, powerLimit := 900, vfpAck := none, readOut := 0,
    mbistBad := false, trainBad := false, trained := false, wantValid := false }

/-- No table. -/
def Tables.zero : Tables :=
  { recs := [], vers := [], groups := [], extents := [], rsv := [], journal := [], slots := [], recent := [], ops := [],
    registry := [], nextOp := 0, freeCap := [], loads := [], downs := [], owed := [], mirrorOps := [], rebuilds := [], addWaits := [], carries := [], served := [], srvRows := [] }

/-- Logical way w on physical way w, physical way 16 spare (07 R257). -/
def SliceWays.zero : SliceWays :=
  { phys := [0, 1, 2, 3, 4, 5, 6, 7, 8, 9, 10, 11, 12, 13, 14, 15], spare := 16, used := false,
    errs := [0, 0, 0, 0, 0, 0, 0, 0, 0, 0, 0, 0, 0, 0, 0, 0], rot := 15 }

/-- Empty caches. -/
def Caches.zero : Caches :=
  { lines := [], ptrs := [], fills := [], rcWait := [], ways := [SliceWays.zero, SliceWays.zero, SliceWays.zero, SliceWays.zero],
    walking := [], md := [], mdFills := [], mdErrs := [0, 0, 0, 0, 0, 0, 0, 0], mdSelf := [], mb := [] }

/-- No flow. -/
def Fabric.zero : Fabric :=
  { flows := [], epoch := 0, routes := [], xid := 0, xchg := [], inbox := [], egress := [], regReplies := [], pauses := [],
    ignorePause := [], fecHold := [], txBytes := 0, rxBytes := 0, stage := [], lb := [], stalled := [] }

/-- No translation. -/
def Trans.zero : Trans :=
  { ctxs := [], wins := [], tlb := [], walks := [], frames := [], migs := [], hot := [], shoots := [], heldInvs := [], waits := [],
    hreqs := [], htag := 0, hout := [] }

/-- Fuses of a part in which nothing is blown. -/
def Fuses.zero : Fuses :=
  { keyHash := [[], [], [], []], revoked := [false, false, false, false], svn := 0, approvedOnly := false, uds := [] }

/-- An erased flash. -/
def Flash.zero : Flash := { cells := [], faults := [], repairs := [], failed := 0, mapout := 0 }

/-- No firmware. -/
def Sec.zero : Sec :=
  { slot := 0, header := [], digests := [], kek := none, sas := [], drbg := 0, dlLen := 0, dlDone := 0, busyOp := none,
    restarts := [], restartSum := 0, confirmSeen := false }

/-- An empty spine. -/
def Spine.zero : Spine :=
  { faults := [], lastNotify := none, notifyOwed := false, lastFlash := none, snap := [], power := 0, acceptedAll := 0, returning := [],
    holmFailed := [], h1Left := 0, h1Count := 0, lines := [], scrub := [0, 0, 0], rowErrs := [], repairs := [], repairAt := [], phyupd := [],
    spares := [], buckets := [], caps := [], floors := [], chanErrs := [], writeQ := [], hot2x := [] }

/-- The machine while rst_n is low: every register at its reset value, nothing in any memory, queue or table (15 R567). -/
def State.reset : State :=
  { ctl := Ctl.zero, regs := [], mem := [], poison := [], rings := [], lastRef := 0, cmds := [], tab := Tables.zero,
    cache := Caches.zero, fab := Fabric.zero, tu := Trans.zero, fuses := Fuses.zero, flash := Flash.zero, sec := Sec.zero,
    spine := Spine.zero, pending := [] }

end Sys2Proof.Machine
end

