-- ==== Sys2Proof/Machine/Ops.lean ====
section
/-! DEFINITION. Named operations over the state: registers, memory bytes and poison, rings, commands, addresses, routes. -/

namespace Sys2Proof.Machine

-- Registers

/-- The value of the register at an offset (16 R571). -/
def State.reg (s : State) (off : Nat) : Nat :=
  match lookupBy off s.regs with
  | some v => v.toNat
  | none => (resetAt off).toNat

/-- A register takes a value; a value equal to the reset value is not listed. -/
def State.setReg (s : State) (off v : Nat) : State :=
  { s with regs := if BitVec.ofNat 64 v = resetAt off then eraseBy off s.regs
                   else insertBy off (BitVec.ofNat 64 v) s.regs }

/-- A field of a register (00 R10). -/
def State.fld (s : State) (off lo w : Nat) : Nat := bits (s.reg off) lo w

/-- A field of a register takes a value. -/
def State.setFld (s : State) (off lo w x : Nat) : State := s.setReg off (setBits (s.reg off) lo w x)

/-- A 48-bit counter rises by `n` and saturates (16 R588). -/
def State.bump (s : State) (off n : Nat) : State := if n = 0 then s else s.setReg off (satAdd 48 (s.reg off) n)

/-- One bit of a register. -/
def State.flag (s : State) (off i : Nat) : Bool := bit (s.reg off) i

-- Parts of the state

def State.upCtl (s : State) (f : Ctl → Ctl) : State := { s with ctl := f s.ctl }
def State.upTab (s : State) (f : Tables → Tables) : State := { s with tab := f s.tab }
def State.upCache (s : State) (f : Caches → Caches) : State := { s with cache := f s.cache }
def State.upFab (s : State) (f : Fabric → Fabric) : State := { s with fab := f s.fab }
def State.upTu (s : State) (f : Trans → Trans) : State := { s with tu := f s.tu }
def State.upSec (s : State) (f : Sec → Sec) : State := { s with sec := f s.sec }
def State.upFlash (s : State) (f : Flash → Flash) : State := { s with flash := f s.flash }
def State.upSpine (s : State) (f : Spine → Spine) : State := { s with spine := f s.spine }
def State.upCmds (s : State) (f : List Cmd → List Cmd) : State := { s with cmds := f s.cmds }
def State.setLastRef (s : State) (r : Nat) : State := { s with lastRef := r }
def State.addPoison (s : State) (w : Nat) : State := { s with poison := insertNat w s.poison }

/-- Time never runs backward. -/
def State.advance (s : State) (t : Nat) : State := s.upCtl (fun c => { c with now := max c.now t })

/-- The block runs: out of reset, not stopped, not in recovery mode. -/
def State.alive (s : State) : Bool := s.ctl.life == .alive

/-- A value that the manual leaves open: the step draws the next one. -/
def State.draw (s : State) : Nat × State := (Config.freeValue s.ctl.fresh, s.upCtl (fun c => { c with fresh := c.fresh + 1 }))

/-- TT_UPTIME in µs (14 R543). -/
def State.uptime (s : State) : Nat := if s.ctl.life == .inReset then 0 else (s.ctl.now - s.ctl.released) / us

/-- What a read of a register returns. Two are computed at the read: TT_UPTIME (16 R571), and NW_STATUS.HOLMS, the Holms counted
online, 0 until the block is valid (10 R403). -/
def State.readReg (s : State) (off : Nat) : Nat :=
  if off = TT_UPTIME then s.uptime
  else if off = NW_STATUS then setBits (s.reg off) 18 4 (if s.flag CC_BLOCK_ID 15 then s.fld TT_HOLM_CTRL 4 4 else 0)
  else s.reg off

-- Memory

/-- Key of a byte: tier (3 is host memory) and offset (01 R32). -/
def memKey (tier off : Nat) : Nat := tier * 2 ^ 46 + off

/-- Byte at a key; an unlisted byte reads 0. -/
def memGet : List Host.Cell → Nat → Byte
  | [], _ => 0#8
  | (a, b) :: rest, k => if a = k then b else if k < a then 0#8 else memGet rest k

/-- Byte at a key takes a value, keeping the canonical form: a zero byte is not listed. -/
def memPut : List Host.Cell → Nat → Byte → List Host.Cell
  | [], k, v => if v = 0#8 then [] else [(k, v)]
  | (a, b) :: rest, k, v =>
    if k < a then (if v = 0#8 then (a, b) :: rest else (k, v) :: (a, b) :: rest)
    else if k = a then (if v = 0#8 then rest else (k, v) :: rest)
    else (a, b) :: memPut rest k v

/-- Successive bytes from a key take the values of a list. -/
def memPuts : List Host.Cell → Nat → List Byte → List Host.Cell
  | m, _, [] => m
  | m, k, b :: bs => memPuts (memPut m k b) (k + 1) bs

/-- The canonical form: keys strictly rising, no zero byte. -/
def Memory.wfFrom : Nat → List Host.Cell → Bool
  | _, [] => true
  | lo, (a, b) :: rest => decide (lo ≤ a) && b != 0#8 && Memory.wfFrom (a + 1) rest

/-- The canonical form of the memory. -/
def Memory.wf (m : List Host.Cell) : Bool := Memory.wfFrom 0 m

/-- One byte of memory. -/
def State.byteAt (s : State) (k : Nat) : Byte := memGet s.mem k

/-- `n` bytes of memory from a key. -/
def State.bytesAt (s : State) (k n : Nat) : List Byte := (List.range n).map (fun i => memGet s.mem (k + i))

/-- Little-endian number of `n` bytes of memory (00 R11). -/
def State.numAt (s : State) (k n : Nat) : Nat := leNat (s.bytesAt k n)

/-- A run of bytes holds a poisoned word (08 R310). -/
def State.poisoned (s : State) (k n : Nat) : Bool := s.poison.any (fun w => decide (8 * w < k + n ∧ k < 8 * w + 8))

/-- A write clears the poison of every word that it covers whole (08 R310). -/
def clearPoison (l : List Nat) (k n : Nat) : List Nat := l.filter (fun w => !(decide (k ≤ 8 * w ∧ 8 * w + 8 ≤ k + n)))

/-- Sectors that a run of bytes overlaps, in a line, as a mask (07 R257). -/
def sectorMask (lineBase k n : Nat) : Nat :=
  (List.range 16).foldl (fun m i => if lineBase + 64 * i < k + n ∧ k < lineBase + 64 * i + 64 then m + 2 ^ i else m) 0

/-- Line number of a tier location (07 R257). -/
def lineNo (tier off : Nat) : Nat := tier * 2 ^ 36 + off / 1024

/-- Outstanding fills of the sectors that a write reaches become stale (07 R268). -/
def staleFills (fs : List RcFill) (k n : Nat) : List RcFill :=
  fs.map (fun f => { f with stale := f.stale ||| (f.want &&& sectorMask (f.line * 1024) k n) })

/-- Where an offset lies on its devices: die of Tier S, stack of Tier F; channel or pseudo-channel; bank; address within the channel; address of
its check byte where check bytes are stored inline (08 R298 to R300). -/
structure DevPlace where
  unit : Nat
  channel : Nat
  bank : Nat
  addr : Nat
  check : Option Nat
  deriving DecidableEq, Repr

/-- Tier S (08 R298): the bank is bits [11:8] of the local address, the row bits [23:14]. -/
def tierSPlace (o : Nat) : DevPlace :=
  let local_ := (o >>> 16) * 256 + bits o 0 8
  { unit := bits o 8 2, channel := bits o 10 6 ^^^ bits o 16 6, bank := bits local_ 8 4, addr := local_, check := none }

/-- Pseudo-channel of a Tier F offset (08 R299). -/
def pseudoChannel (o : Nat) : Nat := bits o 8 6 ^^^ bits o 14 6

/-- Tier F (08 R299): the stack is bit 5 of the pseudo-channel; a pseudo-channel has 48 banks. -/
def tierFPlace (o : Nat) : DevPlace :=
  let pc := pseudoChannel o
  let local_ := (o >>> 14) * 256 + bits o 0 8
  { unit := bits pc 5 1, channel := pc, bank := (local_ >>> 8) % 48, addr := local_, check := none }

/-- The channels of Tier C in service, ascending (08 R300). -/
def tierCList (map : Nat) : List Nat := (upTo 32).filter (fun c => bit map c)

/-- Channel of a Tier C offset under the channel map (08 R300). -/
def tierCChannel (map o : Nat) : Nat := ((tierCList map)[(o / 4096) % max (tierCList map).length 1]?).getD 0

/-- Tier C (08 R300): device addresses of the data and of the check bytes of its sector. The bank is the device's own. -/
def tierCPlace (map o : Nat) : DevPlace :=
  let addr := (o / 4096) / max (tierCList map).length 1 * 4096 + bits o 0 12
  let blk := addr >>> 9
  { unit := 0, channel := tierCChannel map o, bank := 0, addr := blk * 576 + bits addr 0 9
    check := some (blk * 576 + 512 + (bits addr 0 9 >>> 6) * 8) }

/-- Where a tier offset lies. -/
def State.place (s : State) (tier o : Nat) : DevPlace :=
  if tier = 0 then tierSPlace o else if tier = 1 then tierFPlace o else tierCPlace (s.fld MC_CHAN_MAP 0 32) o

/-- Channel of an offset of Tier F or Tier C. -/
def State.channelOf (s : State) (tier o : Nat) : Nat := (s.place tier o).channel

/-- Write queue of a channel: writes held, and the instant of the oldest (08 R302). -/
abbrev WriteQueue := Nat × Nat

/-- The 64-byte writes of a run join the queues of their channels, which hold 256 entries (08 R302). -/
def State.queueWrites (s : State) (k n : Nat) : List (Nat × WriteQueue) :=
  let tier := k / 2 ^ 46
  let off := k % 2 ^ 46
  if n = 0 ∨ (tier ≠ 1 ∧ tier ≠ 2) then s.spine.writeQ
  else
    (List.range ((off + n - 1) / 64 - off / 64 + 1)).foldl (fun q i =>
      let key := tier * 64 + s.channelOf tier ((off / 64 + i) * 64)
      let old := (lookupBy key q).getD (0, s.ctl.now)
      insertBy key (min 256 (old.1 + 1), old.2) q) s.spine.writeQ

/-- A write to a tier or to host memory: bytes, poison, stale fills of the Row Cache, write queues (08 R301, R302, 07 R267, R268). -/
def State.store (s : State) (k : Nat) (bs : List Byte) : State :=
  { s with
    mem := memPuts s.mem k bs
    poison := clearPoison s.poison k bs.length
    spine := { s.spine with writeQ := s.queueWrites k bs.length }
    cache := { s.cache with fills := staleFills s.cache.fills k bs.length } }

-- Addresses (01 R32)

def gBlock (a : Nat) : Nat := bits a 49 15
def gTier (a : Nat) : Nat := bits a 46 3
def gOff (a : Nat) : Nat := bits a 0 46
def gAddr (block tier off : Nat) : Nat := block * 2 ^ 49 + tier * 2 ^ 46 + off

/-- This block's ID (01 R36). -/
def State.id (s : State) : Nat := s.fld CC_BLOCK_ID 0 15
/-- VALID (01 R36). -/
def State.valid (s : State) : Bool := s.flag CC_BLOCK_ID 15
/-- The listed registry blocks, in order (12 R446). -/
def State.registryList (s : State) : List Nat :=
  ((upTo 8).filter (fun n => s.flag (TK_REGISTRY n) 15)).map (fun n => s.fld (TK_REGISTRY n) 0 15)

/-- Headless mode (01 R40). -/
def State.headless (s : State) : Bool := s.flag CC_BLOCK_ID 17
/-- The host link carries the block's traffic: it is up, and H1 is not active (14 R535, 15 R551). -/
def State.hostLink (s : State) : Bool := s.ctl.hpLinkUp && !s.flag TT_LB_CTRL 1
/-- LOCK (16 R576). -/
def State.locked (s : State) : Bool := s.flag CC_SETUP_LOCK 0
/-- FW_READY (16 R573). -/
def State.fwReady (s : State) : Bool := s.flag CC_ID 20

/-- Installed capacity of a tier in bytes (01 R34). -/
def State.capacity (s : State) (tier : Nat) : Nat :=
  match tier with
  | 0 => 4 * 2 ^ 30
  | 1 => 72 * 2 ^ 30
  | 2 => s.fld MC_CHAN_MAP 32 6 * (16 * 2 ^ 30)
  | _ => 2 ^ 46

/-- A tier is in service (08 R315): the bits of MT_STATUS. -/
def State.tierOut (s : State) (tier : Nat) : Bool := s.flag MT_STATUS (1 + tier)

/-- The address check of the serving block, before any context check: true when it passes (01 R34, R596). An access to TIER 3 that starts
below offset 2^46 and runs past it fails (DESIGN CHOICE, log 99). -/
def State.addressOk (s : State) (a n : Nat) : Bool :=
  let t := gTier a
  if t ≥ 4 then false
  else if t = 3 then !s.headless && decide (gOff a + n ≤ 2 ^ 46)
  else decide (gOff a + n ≤ s.capacity t)

-- Rings and commands

def State.ring (s : State) (n : Nat) : Ring := (lookupBy n s.rings).getD Ring.zero
def State.setRing (s : State) (n : Nat) (r : Ring) : State := { s with rings := insertBy n r s.rings }
def State.upRing (s : State) (n : Nat) (f : Ring → Ring) : State := s.setRing n (f (s.ring n))

/-- STATE of a ring (03 R143): 0 DETACHED, 1 ATTACHED, 2 DETACHING, 3 FAULTED. -/
def State.ringState (s : State) (n : Nat) : Nat := s.fld (RF_STATUS n) 0 2
def State.setRingState (s : State) (n st : Nat) : State := s.setFld (RF_STATUS n) 0 2 st
def State.sqLog (s : State) (n : Nat) : Nat := s.fld (RF_CFG n) 0 5
def State.cqLog (s : State) (n : Nat) : Nat := s.fld (RF_CFG n) 5 5
def State.ptrGlobal (s : State) (n : Nat) : Bool := s.flag (RF_CFG n) 10
def State.ringPart (s : State) (n : Nat) : Nat := s.fld (RF_CFG n) 12 4
def State.ringCtx (s : State) (n : Nat) : Nat := s.fld (RF_CFG n) 19 16
def State.remoteRing (s : State) (n : Nat) : Bool := s.flag (RF_CFG n) 52
def State.reqBlock (s : State) (n : Nat) : Nat := s.fld (RF_CFG n) 37 15

/-- An ignored doorbell adds 1 to DB_ERR, which saturates (03 R143). -/
def State.dbErr (s : State) (n : Nat) : State :=
  s.setFld (RF_STATUS n) 10 16 (min (s.fld (RF_STATUS n) 10 16 + 1) 0xFFFF)

def State.cmd? (s : State) (h : Nat) : Option Cmd := s.cmds.find? (fun c => c.handle == h)
def State.upCmd (s : State) (h : Nat) (f : Cmd → Cmd) : State :=
  { s with cmds := updFirst (fun c => c.handle == h) f s.cmds }

/-- The command ends with a status; its record is due. -/
def State.finish (s : State) (h status : Nat) : State :=
  s.upCmd h (fun c => { c with status := status, phase := .done })

-- Holms (01 R24, R25)

/-- A Holm is online (14 R543). -/
def State.holmOnline (s : State) (h : Nat) : Bool := s.flag TT_HOLM_CTRL (4 + h)
def State.holmsOnline (s : State) : List Nat := (upTo 4).filter s.holmOnline
/-- A Holm takes new work: online and not draining. -/
def State.holmOpen (s : State) (h : Nat) : Bool := s.holmOnline h && !s.flag TT_HOLM_CTRL h

/-- Home Holm of a ring: the named or default one, or the next online in ascending order (01 R20). -/
def State.homeHolm (s : State) (n : Nat) : Nat :=
  let want := if s.flag (RF_CFG n) 18 then s.fld (RF_CFG n) 16 2 else n % 4
  (((upTo 4).map (fun i => (want + i) % 4)).find? s.holmOpen).getD want

/-- Holm order of a command: from the home Holm, the other open ones ascending with wrap (04 R162). -/
def State.holmOrder (s : State) (n : Nat) : List Nat :=
  ((upTo 4).map (fun i => (s.homeHolm n + i) % 4)).filter s.holmOpen

-- Routes (09 R334, R335)

def State.route (s : State) (b : Nat) : List Byte := (lookupBy b s.fab.routes).getD (zeros 32)
def State.routeBit (s : State) (b i : Nat) : Bool := bit (leAt (s.route b) 7 1) i
/-- A partner without VALID, or with DOWN or FAILED set, has no route (09 R335). -/
def State.noRoute (s : State) (b : Nat) : Bool := !s.routeBit b 0 || s.routeBit b 2 || s.routeBit b 3
def State.endpoint (s : State) (b : Nat) : Bool := s.routeBit b 1
/-- A block is marked failed (01 R47). -/
def State.isFailed (s : State) (b : Nat) : Bool := s.routeBit b 3

/-- A flag of a route entry takes a value. -/
def State.setRouteBit (s : State) (b i : Nat) (v : Bool) : State :=
  let r := s.route b
  let fl := setBits (leAt r 7 1) i 1 (b2n v)
  s.upFab (fun f => { f with routes := insertBy b (r.take 7 ++ leBytes 1 fl ++ r.drop 8) f.routes })

/-- Level of a source under FP_RA_ALLOW: that of the first range that holds it (09 R361). -/
def State.raLevel (s : State) (b : Nat) : Nat :=
  ((upTo 8).findSome? (fun n =>
    let v := s.reg (FP_RA_ALLOW n)
    if bits v 0 15 ≤ b ∧ b ≤ bits v 15 15 then some (bits v 30 2) else none)).getD 0

-- Outcomes

/-- The outcome of every meaning: a next state. -/
abbrev Out := Host.Outcome State Fault Refusal

/-- Run a state change in a running block; elsewhere nothing happens. -/
def whenAlive (s : State) (f : State → State) : State := if s.alive then f s else s

end Sys2Proof.Machine
end

