-- ==== Sys2Proof/Machine/Flow.lean ====
section
/-! DEFINITION. Sending over Strait (09): flows and their table, framing of messages, credit, the transmit side of
acknowledgement, and message headers. -/

namespace Sys2Proof.Machine

/-- A port is in service (09 R366). -/
def State.linkUp (s : State) (k : Nat) : Bool := s.flag (FP_PORT_STATUS k) 0

/-- The flow's hash (09 R336). -/
def flowHash (partner lane : Nat) : Nat := (partner * 0x9E37 + lane * 0x7F4B) % 65536

/-- Ports that a flow can use, ascending (09 R336). -/
def State.usable (s : State) (partner : Nat) (bad : List Nat) : List Nat :=
  (upTo 8).filter (fun k => bit (leAt (s.route partner) 6 1) k && s.linkUp k && !bad.contains k)

/-- The port that the formula of 09 R336 gives. -/
def State.choosePort (s : State) (partner lane : Nat) (bad : List Nat) : Option Nat :=
  let u := s.usable partner bad
  u[flowHash partner lane % max u.length 1]?

def State.flow? (s : State) (p l : Nat) : Option Flow := s.fab.flows.find? (fun f => f.partner == p && f.lane == l)

/-- The flow table changes; FP_FLOWS_OPEN follows it (09 R375). -/
def State.setFlows (s : State) (fs : List Flow) : State :=
  (s.upFab (fun f => { f with flows := fs })).setFld FP_FLOWS_OPEN 0 14 (min fs.length 0x3FFF)

def State.upFlow (s : State) (p l : Nat) (g : Flow → Flow) : State :=
  s.upFab (fun f => { f with flows := updFirst (fun x => x.partner == p && x.lane == l) g f.flows })

/-- Largest payload of a frame (09 R339). -/
def State.maxPayload (s : State) : Nat := if s.flag FP_CFG 1 then 8192 else 1024

/-- Credit units of a DATA frame (09 R347). -/
def frameCost (plen : Nat) : Nat := (plen + 255) / 256

/-- The Strait header (09 R340). -/
def straitHdr (typ flags plen src dst lane epoch psn apsn climit : Nat) : List Byte :=
  leBytes 1 (typ + 16) ++ leBytes 1 flags ++ leBytes 2 plen ++ leBytes 2 src ++ leBytes 2 dst ++ leBytes 1 lane ++
  leBytes 1 0 ++ leBytes 2 epoch ++ leBytes 4 psn ++ leBytes 4 apsn ++ leBytes 4 climit ++ leBytes 8 0

/-- Bytes on the wire without preamble of a frame of `n` octets before the ICV: padded to 60, with ICV and FCS (09 R339). -/
def State.wireBytes (s : State) (port n : Nat) : Nat := max 60 (n + if s.flag (FP_PORT_CFG port) 2 then 16 else 0) + 4

/-- FP_IP6 as one number (09 R333). -/
def State.ip6 (s : State) : Nat := s.reg FP_IP6_LO + s.reg FP_IP6_HI * 2 ^ 64

/-- The base MAC address, whose low three bits are taken as 0 (09 R333). -/
def State.baseMac (s : State) : Nat := s.fld FP_MAC 3 45 * 8

/-- Packet number at which an association is used up (09 R330). -/
def State.pnLimit (s : State) (port : Nat) : Nat := if s.flag (FP_PORT_CFG port) 3 then 2 ^ 64 - 2 ^ 32 else 2 ^ 32 - 2 ^ 20

/-- A transmit association of a port that is not used up (09 R330). -/
def State.txUsable (s : State) (port : Nat) (a : Sa) : Bool := a.port == port && !a.rx && decide (a.pn < s.pnLimit port)

/-- The association that protects a port's next frame: the oldest usable one. -/
def State.txSa (s : State) (port : Nat) : Option Sa := s.sec.sas.find? (s.txUsable port)

/-- A protected frame takes the next packet number of that association (09 R330). -/
def State.usePn (s : State) (port : Nat) : State :=
  if s.flag (FP_PORT_CFG port) 2 then
    s.upSec (fun x => { x with sas := updFirst (s.txUsable port) (fun a => { a with pn := a.pn + 1 }) x.sas })
  else s

/-- The PCP of a lane (09 R337, R377). -/
def State.pcpOf (s : State) (lane : Nat) : Nat := s.fld FP_LANE_CFG (3 * lane) 3

/-- From the EtherType on, what stands before the Strait header: the EtherType of MODE 0, or the IPv6 and UDP headers (09 R331,
R332). -/
def State.netHeader (s : State) (dst lane : Nat) (strait : List Byte) : List Byte :=
  if s.flag FP_CFG 0 then
    let hash := flowHash dst lane
    let src := beBytes 16 s.ip6
    let dip := Machine.bytesAt (s.route dst) 16 16
    let tc := s.pcpOf lane * 32 + (if s.flag FP_CFG 2 then 2 else 0)
    let len := 8 + strait.length
    let udp := fun (c : Nat) => beBytes 2 (0xC000 + hash % 16384) ++ beBytes 2 (s.fld FP_ETYPE 16 16) ++ beBytes 2 len ++ beBytes 2 c
    beBytes 2 etherIp ++ beBytes 4 (6 * 2 ^ 28 + tc * 2 ^ 20 + hash) ++ beBytes 2 len ++ beBytes 1 17 ++ beBytes 1 64 ++ src ++ dip ++
      udp (udpChecksum src dip (udp 0 ++ strait))
  else beBytes 2 (s.fld FP_ETYPE 0 16)

/-- Everything before the Strait header of a frame (09 R339): addresses (R333), the lane's tag, the SecTAG, and the network header. -/
def State.linkBytes (s : State) (port dst lane : Nat) (strait : List Byte) : List Byte :=
  let mac := s.baseMac + port
  let hop := if s.flag FP_CFG 0 then s.fld (FP_NH_MAC port) 0 48 else leAt (s.route dst) 0 6 / 8 * 8 + port
  let net := s.netHeader dst lane strait
  let tag := if s.flag FP_CFG 3 then beBytes 2 etherVlan ++ beBytes 2 (s.pcpOf lane * 8192 + s.fld FP_CFG 4 12) else []
  let sec := if s.flag (FP_PORT_CFG port) 2 then
    match s.txSa port with
    | some a => secTag a.an (net.length + strait.length) a.pn mac
    | none => []
  else []
  beBytes 6 hop ++ beBytes 6 mac ++ tag ++ sec ++ net

/-- A frame leaves on a port: counted, logged (09 R375, 14 R542). A port that must protect its frames sends none without a usable
association (09 R330). -/
def State.emit (s : State) (port dst lane : Nat) (hdr payload : List Byte) : State :=
  if s.flag (FP_PORT_CFG port) 2 && (s.txSa port).isNone then s
  else
    let link := s.linkBytes port dst lane (hdr ++ payload)
    let s := s.upFab (fun f => { f with
      egress := f.egress ++ [{ port := port, dst := dst, link := link, hdr := hdr, payload := payload }]
      txBytes := f.txBytes + s.wireBytes port (link.length + hdr.length + payload.length) })
    (s.usePn port).bump (FP_PORT_CTR port 0) 1

/-- A priority is paused on a port (09 R329). -/
def State.paused (s : State) (port lane : Nat) : Bool :=
  s.fab.pauses.any (fun p => p.1 == port && p.2.1 == s.pcpOf lane && decide (p.2.2.1 > s.ctl.now))

/-- The flow's port holds back frames of its lane (09 R329). -/
def State.heldBack (s : State) (f : Flow) : Bool := f.port.any (fun k => s.paused k f.lane)

/-- A frame of a flow leaves on its port with the receive side's acknowledgement on it (09 R348). A paused lane sends nothing: what the
flow still owes, a later event or timer sends (DEDUCED from R329, log 117). -/
def State.sendFrame (s : State) (f : Flow) (typ flags psn : Nat) (payload : List Byte) : State :=
  match f.port with
  | none => s
  | some k =>
    if s.paused k f.lane then s
    else s.emit k f.partner f.lane
      (straitHdr typ (1 + flags + (if f.ece then 2 else 0)) payload.length f.self f.partner f.lane f.epoch (psn % 2 ^ 32)
        (f.rxPsn % 2 ^ 32) (f.rxLimit % 2 ^ 32)) payload

/-- An acknowledgement has left: nothing is owed (09 R348). -/
def Flow.acked! (f : Flow) : Flow := { f with sinceAck := 0, ece := false }

/-- One fragment with its header (09 R342). -/
def fragment (id off : Nat) (bytes : List Byte) (som eom : Bool) : List Byte :=
  leBytes 4 id ++ leBytes 4 off ++ leBytes 2 bytes.length ++ leBytes 1 (b2n som + 2 * b2n eom) ++ leBytes 1 0 ++ bytes

/-- Fill a frame from the queue: payload, rest of the queue, messages finished (09 R342). -/
def fillFrame (room : Nat) : List OutMsg → List Byte × List OutMsg × List Nat
  | [] => ([], [], [])
  | m :: rest =>
    if room < 13 then ([], m :: rest, [])
    else
      let n := min (room - 12) (m.bytes.length - m.off)
      let frag := fragment m.id m.off (bytesAt m.bytes m.off n) (m.off == 0) (m.off + n == m.bytes.length)
      if m.off + n = m.bytes.length then
        let r := fillFrame (room - 12 - n) rest
        (frag ++ r.1, r.2.1, m.id :: r.2.2)
      else (frag, { m with off := m.off + n } :: rest, [])

/-- A loop-back waits for the port's flows: it takes no new frames (09 R373). -/
def State.draining (s : State) (port : Nat) : Bool := s.fab.lb.any (fun b => b.port == port && b.depth ≤ 5 && b.stage == 0)

/-- Units in flight. -/
def Flow.inFlight (f : Flow) : Nat := sumOf (f.unacked.map (fun x => x.cost))

/-- Bytes held in the transmit buffer (09 R348). -/
def State.txUse (s : State) : Nat :=
  sumOf (s.fab.flows.map (fun f => sumOf (f.unacked.map (fun x => x.payload.length))))

/-- Send what the queue, credit, window, buffer and pauses allow; partly filled frames of lanes 2 and 3 wait unless
`flush` (09 R347 to R349, R365). -/
def State.pumpFuel (s : State) (p l : Nat) (flush : Bool) : Nat → State
  | 0 => s
  | fuel + 1 =>
    match s.flow? p l with
    | none => s
    | some f =>
      match f.port with
      | none => s
      | some k =>
        if f.st != .open_ || f.queue.isEmpty || s.paused k l || s.draining k then s
        else
          let r := fillFrame s.maxPayload f.queue
          let cost := frameCost r.1.length
          if f.units + cost > f.climit || (s.flag FP_CFG 2 && decide (f.inFlight + cost > f.window)) ||
              decide (s.txUse + r.1.length > s.fld FP_BUF_CFG 44 12 * 2 ^ 20) then s
          else if l ≥ 2 && !flush && r.2.1.isEmpty && decide (r.1.length + 13 < s.maxPayload) then s
          else
            let s := s.sendFrame f 1 0 f.psn r.1
            let g := f.acked!
            let s := s.upFlow p l (fun _ => { g with
              psn := f.psn + 1, units := f.units + cost, queue := r.2.1, lastUse := s.ctl.now
              unacked := f.unacked ++ [{ psn := f.psn, payload := r.1, cost := cost, sent := s.ctl.now }]
              live := f.live.map (fun x => if r.2.2.contains x.1 then (x.1, x.2.1, f.psn + 1) else x) })
            s.pumpFuel p l flush fuel

/-- Enough rounds for every queued byte. -/
def State.pump (s : State) (p l : Nat) (flush : Bool) : State :=
  match s.flow? p l with
  | none => s
  | some f => s.pumpFuel p l flush (sumOf (f.queue.map (fun m => m.bytes.length + 1)) + 1)

/-- A flow without anything unacknowledged or queued in either direction (09 R344). -/
def Flow.idle (f : Flow) : Bool := f.unacked.isEmpty && f.queue.isEmpty && f.partials.isEmpty

/-- A new flow in a state (09 R345, R347). -/
def State.newFlow (s : State) (p l epoch : Nat) (st : FlowSt) : Flow :=
  -- a port that failed for this partner is not chosen again while a flow to it lasts (09 R336)
  let bad := sortUnique ((s.fab.flows.filter (fun f => f.partner == p)).map (fun f => f.badPorts)).flatten
  { partner := p, lane := l, st := st, epoch := epoch, self := s.id, port := s.choosePort p l bad, badPorts := bad, psn := 0, acked := 0,
    unacked := [], units := 0, climit := 0, queue := [], msgId := 0, live := [], window := s.fld FP_BUF_CFG 16 16,
    lastHalve := 0, timeouts := 0, rxPsn := 0, rxUnits := 0, rxLimit := s.fld FP_BUF_CFG 0 16, rxHeld := 0, partials := [], sinceAck := 0,
    oldestRx := 0, nakAt := none, ece := false, lastUse := s.ctl.now }

/-- Make room in the flow table: the least recently used idle flow is closed at once (09 R344). -/
def State.roomForFlow (s : State) : Option State :=
  if s.fab.flows.length < 8192 then some s
  else
    match (s.fab.flows.filter Flow.idle).foldl (fun (b : Option Flow) f =>
        match b with
        | none => some f
        | some g => if f.lastUse < g.lastUse then some f else some g) none with
    | none => none
    | some v => some (s.setFlows (s.fab.flows.filter (fun f => !(f.partner == v.partner && f.lane == v.lane))))

/-- Start the opening of a flow: a new epoch, and OPEN with INIT_CREDIT (09 R345, R346). -/
def State.openFlow (s : State) (p l : Nat) : State :=
  let e := s.fab.epoch
  let f := s.newFlow p l e .opening
  let s := s.upFab (fun x => { x with epoch := (x.epoch + 1) % 65536 })
  (s.setFlows (s.fab.flows ++ [f])).sendFrame f 4 0 0 []

/-- A message joins its flow's queue. -/
def Flow.enqueue (f : Flow) (bytes : List Byte) : Flow :=
  { f with queue := f.queue ++ [{ id := f.msgId, bytes := bytes, off := 0 }], live := f.live ++ [(f.msgId, bytes, 0)],
           msgId := f.msgId + 1 }

/-- A message waits for an entry of the flow table (09 R344). -/
def State.stall (s : State) (p l : Nat) (bytes : List Byte) : State :=
  s.upFab (fun x => { x with stalled := x.stalled ++ [(p, l, bytes)] })

/-- A message joins its flow, which opens when it is closed; without an entry for it in the flow table, it waits (09 R344, R346). -/
def State.post (s : State) (p l : Nat) (bytes : List Byte) : State :=
  match s.flow? p l with
  | some _ =>
    let s := s.upFlow p l (fun f => { f.enqueue bytes with st := if f.st == .closing then .open_ else f.st })
    s.pump p l false
  | none =>
    match s.roomForFlow with
    | none => s.stall p l bytes
    | some s => (s.openFlow p l).upFlow p l (fun f => f.enqueue bytes)

/-- No entry of the flow table serves a partner and lane, and none can be freed. -/
def State.flowFull (s : State) (p l : Nat) : Bool := (s.flow? p l).isNone && s.roomForFlow.isNone

/-- Send a message to another block (09 R346). With VALID clear no flow opens (01 R38), and without a route nothing is sent (R335). -/
def State.send (s : State) (p l : Nat) (bytes : List Byte) : State :=
  if !s.valid || s.noRoute p || p == s.id then s
  else if s.flowFull p l then (s.stall p l bytes).bump FP_FLOW_FULL 1
  else s.post p l bytes

/-- Messages that waited for a flow table entry go, in their order, as far as there is room now (09 R344). -/
def State.unstall (s : State) : State :=
  s.fab.stalled.foldl (fun s x => s.post x.1 x.2.1 x.2.2) (s.upFab (fun x => { x with stalled := [] }))

/-- A 16-byte message header and its body (09 R350). -/
def mkMsg (mtype status handle xid : Nat) (body : List Byte) : List Byte :=
  leBytes 1 mtype ++ leBytes 1 0 ++ leBytes 1 status ++ leBytes 1 0 ++ leBytes 4 (16 + body.length) ++ leBytes 4 handle ++
  leBytes 4 xid ++ body

def mType (m : List Byte) : Nat := leAt m 0 1
def mStatus (m : List Byte) : Nat := leAt m 2 1
def mLen (m : List Byte) : Nat := bits (leAt m 4 4) 0 17
def mHandle (m : List Byte) : Nat := leAt m 8 4
def mXid (m : List Byte) : Nat := leAt m 12 4

/-- A fresh exchange number (09 R350). -/
def State.newXid (s : State) : Nat × State := (s.fab.xid % 2 ^ 32, s.upFab (fun f => { f with xid := f.xid + 1 }))

/-- Send a request and await its reply. -/
def State.request (s : State) (dst lane mtype handle : Nat) (kind : XKind) (body : List Byte) : State :=
  let x := s.newXid
  let msg := mkMsg mtype 0 handle x.1 body
  let s := x.2.upFab (fun f => { f with
    xchg := f.xchg ++ [{ xid := x.1, dst := dst, kind := kind, handle := handle, msg := msg, lane := lane }] })
  s.send dst lane msg

/-- Answer a request on the reverse direction of its flow (09 R337, R350). -/
def State.answer (s : State) (dst lane : Nat) (req : List Byte) (status : Nat) (body : List Byte) : State :=
  s.send dst lane (mkMsg (mType req + 0x80) status (mHandle req) (mXid req) body)

/-- The awaited exchange that a reply from a block closes. -/
def State.xchg? (s : State) (src xid : Nat) : Option Xchg := s.fab.xchg.find? (fun x => x.xid == xid && x.dst == src)
def State.dropXchg (s : State) (xid : Nat) : State :=
  s.upFab (fun f => { f with xchg := f.xchg.filter (fun x => x.xid != xid) })
/-- A command awaits nothing more. -/
def State.awaits (s : State) (h : Nat) : Bool := s.fab.xchg.any (fun x => x.handle == h)

/-- Type codes and lanes of the Table Keeper messages (12 R481). -/
def tkCode : TkBody → Nat × Nat
  | .claim .. => (0x10, 0)
  | .release _ => (0x10, 0)
  | .publishReq .. => (0x10, 0)
  | .switchReq .. => (0x10, 0)
  | .migrateReq .. => (0x10, 0)
  | .freed _ => (0x10, 0)
  | .recordFetch _ => (0x11, 0)
  | .entryFetch .. => (0x10, 0)
  | .mapReq .. => (0x10, 0)
  | .update _ => (0x12, 0)
  | .released .. => (0x13, 0)
  | .versionPhase .. => (0x14, 0)
  | .reserveStorage .. => (0x15, 0)
  | .reserveSlots .. => (0x15, 0)
  | .releaseSlots .. => (0x15, 0)
  | .commit .. => (0x16, 0)
  | .replicaWrite _ => (0x17, 3)
  | .groupCopy _ => (0x18, 2)
  | .groupMove .. => (0x15, 0)
  | .loadReport _ => (0x19, 0)
  | .downReport .. => (0x1A, 0)
  | .selfReport => (0x1A, 0)
  | .failed _ => (0x1A, 0)
  | .tierOut _ => (0x1A, 0)
  | .declare _ => (0x1A, 0)
  | .query _ => (0x1A, 0)
  | .redeliverDone .. => (0x1B, 0)
  | .imagePart .. => (0x1C, 2)
  | .imageReq .. => (0x1C, 2)
  | .rowsWrite .. => (0x1C, 2)
  | .rowsRead .. => (0x1C, 2)
  | .secondaryLost .. => (0x1A, 0)

/-- Send a Table Keeper message without awaiting an answer (12 R481). -/
def State.sendTk (s : State) (dst handle : Nat) (b : TkBody) : State :=
  let x := s.newXid
  x.2.send dst (tkCode b).2 (mkMsg (tkCode b).1 0 handle x.1 (Config.tkEncode s.registryList b))

/-- Send a Table Keeper request and await its reply. -/
def State.askTk (s : State) (dst handle : Nat) (kind : XKind) (b : TkBody) : State :=
  s.request dst (tkCode b).2 (tkCode b).1 handle kind (Config.tkEncode s.registryList b)

/-- Answer a Table Keeper request. -/
def State.answerTk (s : State) (h : TkHdr) (b : TkBody) (status : Nat) (a : TkAnswer) : State :=
  s.send h.src h.lane (mkMsg ((tkCode b).1 + 0x80) status h.handle h.xid (Config.tkEncodeAnswer s.registryList a))

/-- A message that its command works on leaves the inbox. -/
def State.take (s : State) (src : Nat) (bytes : List Byte) : State :=
  s.upFab (fun f => { f with inbox := f.inbox.eraseP (fun m => m.src == src && m.bytes == bytes) })

/-- A receiver starts on the messages of a flow direction in their order: a message of the inbox with an earlier one of its flow before
it has to wait (09 R353). -/
def State.inTurn (s : State) (src : Nat) (bytes : List Byte) : Bool :=
  match s.fab.inbox.find? (fun m => m.src == src && m.bytes == bytes) with
  | none => true
  | some m => s.fab.inbox.find? (fun x => x.src == src && x.lane == m.lane) == some m

/-- The lane on which a message of the inbox arrived; a default for one that is not there. -/
def State.laneOf (s : State) (src : Nat) (bytes : List Byte) (dflt : Nat) : Nat :=
  ((s.fab.inbox.find? (fun m => m.src == src && m.bytes == bytes)).map (fun m => m.lane)).getD dflt

end Sys2Proof.Machine
end

