-- ==== Sys2Proof/Machine/Merge.lean ====
section
/-! DEFINITION. The merging buffer (07 R282 to R284) and the two ways in which a write of the block reaches memory: through it, or past it. -/

namespace Sys2Proof.Machine

/-- Lines of 64 bytes that a run of bytes touches. -/
def lines64 (g n : Nat) : List Nat :=
  if n = 0 then [] else (List.range ((g + n - 1) / 64 - g / 64 + 1)).map (fun i => (g / 64 + i) * 64)

/-- Bytes of a run within a line, as a mask of 64 bits. -/
def byteMask (line g n : Nat) : Nat :=
  (List.range 64).foldl (fun m i => if g ≤ line + i ∧ line + i < g + n then m + 2 ^ i else m) 0

/-- All 64 bytes of a line. -/
def fullLine : Nat := 2 ^ 64 - 1

/-- Bytes written to one line merge into its open entry, or open one: the write waits for the oldest to close when all 64 are in use. An
entry that is full, or that no time is left for, closes at once; closed bytes are in memory (07 R283). -/
def State.mbLine (s : State) (line m : Nat) : State :=
  match s.cache.mb.find? (fun e => e.line == line) with
  | some e =>
    let m2 := e.mask ||| m
    s.upCache (fun c => { c with mb :=
      (if m2 = fullLine then c.mb.filter (fun x => x.line != line)
       else c.mb.map (fun x => if x.line == line then { x with mask := m2 } else x)) })
  | none =>
    let s := if s.cache.mb.length ≥ 64 then (s.bump MD_MB_FULL 1).upCache (fun c => { c with mb := c.mb.drop 1 }) else s
    if m = fullLine ∨ s.fld MD_CFG 10 8 = 0 then s
    else s.upCache (fun c => { c with mb := c.mb ++ [{ line := line, mask := m, opened := s.ctl.now }] })

/-- A write of the block to lines that the Metadata Cache serves passes through the merging buffer (07 R282). -/
def State.mbWrite (s : State) (g n : Nat) : State :=
  (lines64 g n).foldl (fun s line => s.mbLine line (byteMask line g n)) s

/-- A record or a notification closes the entries it has merged into (07 R283). -/
def State.mbRecord (s : State) (g n : Nat) : State :=
  s.upCache (fun c => { c with mb := c.mb.filter (fun e => !(lines64 g n).contains e.line) })

/-- Outstanding Metadata Cache fills that a write past the merging buffer reaches become stale (07 R268, R278). -/
def State.mdStale (s : State) (k n : Nat) : State :=
  s.upCache (fun c => { c with mdFills := c.mdFills.map (fun f =>
    let a := f.addr % 2 ^ 49
    if decide (a < k + n ∧ k < a + 64) then { f with stale := true } else f) })

/-- Data written past the merging buffer: rows, accumulators and destination buffers (07 R282). -/
def State.putData (s : State) (k : Nat) (bs : List Byte) : State := (s.store k bs).mdStale k bs.length

/-- Poisoned words of a run, by their number from its start (08 R310). -/
def State.badWords (s : State) (k n : Nat) : List Nat :=
  (s.poison.filter (fun w => decide (k ≤ 8 * w ∧ 8 * w < k + n))).map (fun w => w - k / 8)

/-- Words of a run become poisoned. -/
def State.spoil (s : State) (k : Nat) (l : List Nat) : State := l.foldl (fun s w => s.addPoison (k / 8 + w)) s

/-- A copy of a run within this block: a word that cannot be corrected stays so in the copy (DEDUCED, log 111). -/
def State.copyRun (s : State) (src dst n : Nat) : State := (s.putData dst (s.bytesAt src n)).spoil dst (s.badWords src n)

/-- Metadata written through the merging buffer: table records, placement maps, residency entries, format slots, page-table entries
(07 R282). -/
def State.putMeta (s : State) (k : Nat) (bs : List Byte) : State := (s.store k bs).mbWrite (s.id * 2 ^ 49 + k) bs.length

/-- A record or a notification, through the merging buffer and at once to memory (07 R283). -/
def State.putRecord (s : State) (k : Nat) (bs : List Byte) : State := (s.putMeta k bs).mbRecord (s.id * 2 ^ 49 + k) bs.length

end Sys2Proof.Machine
end

