-- ==== Sys2Proof/Machine/Fault.lean ====
section
/-! DEFINITION. Fault records and their notifications (14 R514 to R518), global writes of the block, and the fatal stop
(14 R519, R520). -/

namespace Sys2Proof.Machine

/-- The 32 bytes of a fault record (14 R515). -/
def FaultRec.bytes (r : FaultRec) : List Byte :=
  leBytes 4 r.seq ++ leBytes 1 r.cls ++ leBytes 1 r.source ++ leBytes 2 r.cause ++ leBytes 8 r.time ++ leBytes 8 r.detail ++
  leBytes 4 r.count ++ leBytes 4 0

/-- A host-port packet leaves: it is logged as outstanding until its response (15 R548, R551). -/
def State.hostPacket (s : State) (hopc ctx addr len : Nat) (old : List Byte) (ring : Option Nat) (handle : Nat) : State :=
  s.upTu (fun u => { u with
    hreqs := u.hreqs ++ [{ tag := u.htag % 65536, hopc := hopc, ctx := ctx, addr := addr, len := len, old := old, ring := ring,
                           handle := handle }]
    htag := u.htag + 1 })

/-- The host port takes requests: link up, not headless (15 R551, 01 R41). -/
def State.hostPort (s : State) : Bool := s.hostLink && !s.headless

/-- The runs of an access within 256-byte blocks: address and bytes (15 R548). -/
def hostRuns (a n : Nat) : List (Nat × Nat) :=
  if n = 0 then []
  else (List.range ((a + n - 1) / 256 - a / 256 + 1)).map (fun i =>
    let p := (a / 256 + i) * 256
    let lo := max a p
    (lo, min (a + n) (p + 256) - lo))

/-- The WR packets of a write to host memory, one for each 256-byte block (03 R106, 15 R548). -/
def State.hostPackets (s : State) (ctx addr n : Nat) (ring : Option Nat) (handle : Nat) : State :=
  (hostRuns addr n).foldl (fun s r => s.hostPacket 0x02 ctx r.1 r.2 (s.bytesAt (memKey 3 r.1) r.2) ring handle) s

/-- A write of data to host memory behind this block. -/
def State.hostWrite (s : State) (ctx addr : Nat) (bs : List Byte) (ring : Option Nat) (handle : Nat) : State :=
  if s.hostPort then (s.hostPackets ctx addr bs.length ring handle).putData (memKey 3 addr) bs else s

/-- A record or a notification to host memory, through the merging buffer (07 R282, R283). -/
def State.hostRecord (s : State) (ctx addr : Nat) (bs : List Byte) (ring : Option Nat) (handle : Nat) : State :=
  if s.hostPort then (s.hostPackets ctx addr bs.length ring handle).putRecord (memKey 3 addr) bs else s

/-- A read of host memory behind this block: an RD packet for each 256-byte block (15 R548). -/
def State.hostRead (s : State) (ctx addr len : Nat) (ring : Option Nat) (handle : Nat) : State :=
  if s.hostPort then (hostRuns addr len).foldl (fun s r => s.hostPacket 0x01 ctx r.1 r.2 [] ring handle) s else s

/-- A MEM_WRITE to another block (09 R362, R363). -/
def State.memWriteTo (s : State) (a ctx lane handle : Nat) (kind : XKind) (bs : List Byte) : State :=
  s.request (gBlock a) lane 0x0A handle kind (leBytes 8 a ++ leBytes 4 bs.length ++ leBytes 2 ctx ++ leBytes 2 0 ++ bs)

/-- A write of the block's own to a global address: here at once, elsewhere by MEM_WRITE (14 R518). -/
def State.ownWrite (s : State) (a : Nat) (bs : List Byte) : State :=
  if gBlock a = s.id then
    if !s.addressOk a bs.length then s
    else if gTier a = 3 then s.hostRecord 0 (gOff a) bs none noHandle.toNat
    else s.putRecord (memKey (gTier a) (gOff a)) bs
  else s.memWriteTo a 0 1 noHandle.toNat .update bs

/-- A fault notification can leave: one to host memory behind this block waits while the host port takes nothing (14 R535, 15 R551). -/
def State.notifyMayGo (s : State) : Bool :=
  let a := s.reg TT_NOTIFY_ADDR
  gBlock a != s.id || gTier a != 3 || s.headless || s.hostLink

/-- The notification that records have called for, at most one per 10 µs (14 R518). -/
def State.owedNotify (s : State) : State :=
  if s.spine.notifyOwed && s.notifyMayGo && (match s.spine.lastNotify with | none => true | some t => decide (s.ctl.now ≥ t + 10 * us)) then
    (s.upSpine (fun x => { x with lastNotify := some s.ctl.now, notifyOwed := false })).ownWrite (s.reg TT_NOTIFY_ADDR)
      (leBytes 4 (s.reg TT_NOTIFY_DATA))
  else s

/-- A record joins the ring and the log (14 R517). -/
def State.pushFault (s : State) (r : FaultRec) : State :=
  let full := decide (s.spine.faults.length ≥ 256)
  let s := s.upSpine (fun x => { x with faults := (r :: x.faults).take 256 })
  let s := if full then (s.bump TT_FAULT_DROP 1).setFld TT_FAULT_STATUS 6 1 1 else s
  let s := (s.setReg TT_FAULT_SEQ (r.seq % 2 ^ 32)).setFld TT_FAULT_STATUS (r.cls - 1) 1 1
  let s := if s.flag TT_CFG 3 && decide (r.cls ≥ s.fld TT_CFG 0 3) then (s.upSpine (fun x => { x with notifyOwed := true })).owedNotify else s
  if r.cls < 4 || s.fld (CC_CORE 0) 2 2 == 3 then s
  else if (match s.spine.lastFlash with | none => true | some t => decide (s.ctl.now ≥ t + 10 * ms)) then
    (s.upSpine (fun x => { x with lastFlash := some s.ctl.now })).upFlash (fun f => { f with faults := f.faults ++ [r] })
  else s.bump TT_FLASH_SKIP 1

/-- A fault: it merges with the newest record or makes a new one (14 R515, R517, R518). -/
def State.fault (s : State) (cls source cause detail : Nat) : State :=
  match s.spine.faults with
  | r :: rest =>
    if r.source = source ∧ r.cause = cause ∧ r.detail = detail ∧ s.uptime ≤ r.time + 1000000 then
      s.upSpine (fun x => { x with faults := { r with count := min (r.count + 1) 0xFFFFFFFF } :: rest })
    else s.pushFault { seq := s.reg TT_FAULT_SEQ + 1, cls := cls, source := source, cause := cause, time := s.uptime,
                       detail := detail, count := 1 }
  | [] => s.pushFault { seq := s.reg TT_FAULT_SEQ + 1, cls := cls, source := source, cause := cause, time := s.uptime,
                        detail := detail, count := 1 }

/-- Source and fault numbers of Row Cache and ports (14 R515). -/
def srcHolm (h : Nat) : Nat := 6 + h
def srcPort (k : Nat) : Nat := 10 + k
def srcCore (c : Nat) : Nat := 20 + c

-- The registry (12)

/-- A listed block that is not marked failed (12 R447). -/
def State.regAlive (s : State) (b : Nat) : Bool := b == s.id || !s.isFailed b

/-- The lead registry block (12 R448). -/
def State.lead (s : State) : Option Nat := s.registryList.find? s.regAlive

/-- The coordinator of a table (12 R447); none when every listed block is marked failed (12 R594). -/
def State.coordinator (s : State) (tbl : Nat) : Option Nat :=
  let l := s.registryList
  let i := tbl % max l.length 1
  (l.drop i ++ l.take i).find? s.regAlive

/-- The block to which reports about failures go: the lead, or the deputy when the lead is held DOWN (12 R470). -/
def State.leadOrDeputy (s : State) (about : Nat) : Option Nat :=
  (s.registryList.filter s.regAlive).find? (fun b => b != about && (b == s.id || !s.routeBit b 2))

/-- The fatal stop (14 R520): FATAL and its record, the self-report, flows closed, VALID cleared, stopped until reset. A cause
that arises during a stop only adds its record. -/
def State.fatal (s : State) (cause detail source : Nat) : State :=
  if s.ctl.life == .stopped then s.fault 6 source cause detail
  else
    let s := (s.setFld TT_FAULT_STATUS 5 1 1).upCtl (fun c => { c with pmFatal := true, stopAt := c.now })
    -- what no flow has carried yet goes no more; the notification and the self-report are the last messages
    let s := (s.setFlows (s.fab.flows.map (fun f => { f with queue := [] }))).upFab (fun f => { f with stalled := [] })
    let s := s.fault 6 source cause detail
    let s := match s.leadOrDeputy s.id with
      | some b => s.sendTk b noHandle.toNat .selfReport
      | none => s
    -- a flow that still opens carries them when it is open
    let s := (s.setFlows (s.fab.flows.filter (fun f => f.st == .opening && !f.queue.isEmpty))).setFld CC_BLOCK_ID 15 1 0
    s.upCtl (fun c => { c with life := .stopped })

end Sys2Proof.Machine
end

