-- ==== Sys2Proof/Machine/Cache.lean ====
section
/-! DEFINITION. Row Cache and Metadata Cache (07): slice and set selection, requests, victims, rescue, fills, writes that
invalidate, the merging buffer and way bookkeeping. -/

namespace Sys2Proof.Machine

/-- Number of set bits of a 16-bit mask. -/
def popcount (m : Nat) : Nat := sumOf ((upTo 16).map (fun i => b2n (bit m i)))

/-- The hash f of 07 R259. -/
def rcHash (a : Nat) : Nat := (a ^^^ (a >>> 13) ^^^ (a >>> 26)) % 2 ^ 38

/-- Slice of a line number for the slices online (07 R259). -/
def rcSlice (online : List Nat) (a : Nat) : Nat :=
  let f := rcHash a
  if online.contains (f % 4) then f % 4
  else (online[(f >>> 24) % max online.length 1]?).getD (f % 4)

/-- Set of a line number (07 R259). -/
def rcSet (a : Nat) : Nat := (rcHash a >>> 2) % 1536

def State.slice (s : State) (a : Nat) : Nat := rcSlice s.holmsOnline a

def State.upSlice (s : State) (i : Nat) (f : SliceWays → SliceWays) : State :=
  s.upCache (fun c => { c with ways := c.ways.set i (f ((c.ways[i]?).getD SliceWays.zero)) })

/-- A logical way is disabled (07 R275). -/
def State.wayOff (s : State) (sl w : Nat) : Bool := s.flag (RC_WAY_DISABLE sl) w

def State.rcLineAt (s : State) (sl st w : Nat) : Option RcLine :=
  s.cache.lines.find? (fun l => l.slice == sl && l.set == st && l.way == w)

/-- Replace the line of a way, or empty the way. -/
def State.setWay (s : State) (sl st w : Nat) (l : Option RcLine) : State :=
  let new := match l with
    | some x => [x]
    | none => []
  s.upCache (fun c => { c with
    lines := new ++ c.lines.filter (fun x => !(x.slice == sl && x.set == st && x.way == w)) })

/-- What the tag of an EVICTING way holds when the way was INVALID: line numbers have 38 bits (07 R257, R270). -/
def noLine : Nat := 2 ^ 38

/-- What an invalidation leaves of a line: a VALID line becomes INVALID, a way that waits for fills keeps waiting (07 R268, R270). -/
def RcLine.emptied (l : RcLine) : Option RcLine :=
  match l.st with
  | .valid => none
  | .filling => some { l with sectors := 0 }
  | .evicting => some { l with tag := noLine, sectors := 0 }

/-- Lines that a predicate names are invalidated (07 R290, R292). -/
def State.dropLines (s : State) (p : RcLine → Bool) : State :=
  s.upCache (fun c => { c with lines := c.lines.filterMap (fun l => if p l then l.emptied else some l) })

/-- Ways that a predicate names become INVALID, whatever they wait for (01 R24, 07 R274 to R276). -/
def State.clearWays (s : State) (p : RcLine → Bool) : State :=
  s.upCache (fun c => { c with lines := c.lines.filter (fun l => !p l) })

/-- Victim choice of 07 R263: the way, and whether the pointer moves to it. -/
def State.victim (s : State) (sl st part : Nat) : Option (Nat × Bool) :=
  let mask := s.reg (RC_PART_MASK part)
  let cand := (upTo 16).filter (fun w => bit mask w && !s.wayOff sl w)
  match cand.find? (fun w => (s.rcLineAt sl st w).isNone) with
  | some w => some (w, false)
  | none =>
    let el := cand.filterMap (fun w =>
      match s.rcLineAt sl st w with
      | some l => if l.st = .valid then some (w, l.heat) else none
      | none => none)
    match el with
    | [] => none
    | e :: es =>
      let h := es.foldl (fun m x => min m x.2) e.2
      let p := (lookupBy (sl * 1536 + st) s.cache.ptrs).getD 0
      (((upTo 16).map (fun i => (p + 1 + i) % 16)).find? (fun w => el.contains (w, h))).map (fun w => (w, true))

/-- A new line asks for a way: the victim becomes EVICTING and keeps its old line; without one the line is bypassed (07 R263, R270). -/
def State.claimWay (s : State) (sl a part : Nat) : State × Option Nat :=
  let st := rcSet a
  match s.victim sl st part with
  | none => (s.bump (RC_BYPASS sl) 1, none)
  | some (w, byHeat) =>
    let s := if byHeat then s.upCache (fun c => { c with ptrs := insertBy (sl * 1536 + st) w c.ptrs }) else s
    let l := match s.rcLineAt sl st w with
      | some l => { l with st := .evicting }
      | none => { slice := sl, set := st, way := w, tag := noLine, sectors := 0, heat := 0, st := .evicting }
    (s.setWay sl st w (some l), some w)

/-- Sectors of a fill that are still to come and that no write has reached (07 R268). -/
def RcFill.awaited (f : RcFill) : Nat := f.want &&& (0xFFFF - (f.arrived ||| f.stale))

/-- Fills of a line. -/
def State.lineFills (s : State) (sl a : Nat) : List RcFill := s.cache.fills.filter (fun f => f.slice == sl && f.line == a)

/-- Sectors of a line whose outstanding fill a request may wait for (07 R269). -/
def State.awaited (s : State) (sl a : Nat) : Nat := (s.lineFills sl a).foldl (fun m f => m ||| f.awaited) 0

/-- Lines with outstanding fills in a slice (07 R269). -/
def State.fillLines (s : State) (sl : Nat) : Nat :=
  (sortUnique ((s.cache.fills.filter (fun f => f.slice == sl)).map (·.line))).length

/-- A fetch of sectors is issued; the line, when it is present, is FILLING (07 R269, R270). -/
def State.fetch (s : State) (sl a part : Nat) (way : Option Nat) (want : Nat) : State :=
  s.upCache (fun c => { c with
    fills := c.fills ++ [{ slice := sl, line := a, way := way, part := part, want := want, arrived := 0, stale := 0 }]
    lines := c.lines.map (fun x => if x.slice == sl && x.tag == a then { x with st := .filling } else x) })

/-- Sectors that nothing brings yet are fetched: into the line that is present, into the way that waits for the line, or into a way chosen
now. When the slice has 512 fill lines in use, the miss waits (07 R263, R269, R272). -/
def State.miss (s : State) (sl a part want : Nat) (way : Option Nat) : State :=
  let open_ := s.lineFills sl a
  if open_.isEmpty && decide (s.fillLines sl ≥ 512) then
    s.upCache (fun c => { c with rcWait := c.rcWait ++ [{ slice := sl, line := a, part := part, want := want }] })
  else
    let r := match way.or (open_.findSome? (·.way)) with
      | some w => (s, some w)
      | none => s.claimWay sl a part
    (r.1.fetch sl a part r.2 want).bump (RC_MISS sl) (popcount want)

/-- A use of a line that has a valid sector adds to its heat (07 R262). -/
def RcLine.used (l : RcLine) : RcLine := if l.sectors = 0 then l else { l with heat := min (l.heat + 1) 63 }

/-- A request for the old line of an EVICTING way rescues it; the pending line loses the way and chooses again, and its fills, stale
marks included, go to the new way or are bypassed (07 R271). -/
def State.rescue (s : State) (l : RcLine) : State :=
  let s := (s.setWay l.slice l.set l.way (some { l.used with st := .valid })).bump (RC_RESCUE l.slice) 1
  match s.cache.fills.find? (fun f => f.slice == l.slice && f.way == some l.way && rcSet f.line == l.set) with
  | none => s
  | some f =>
    let r := s.claimWay l.slice f.line f.part
    r.1.upCache (fun c => { c with fills := c.fills.map (fun g =>
      if g.slice == l.slice && g.line == f.line && g.way == some l.way then { g with way := r.2 } else g) })

/-- A line whose primary slice is returning is served without allocation until the walk is complete (07 R260). -/
def State.noAllocate (s : State) (a : Nat) : Bool := s.cache.walking.contains (rcHash a % 4)

/-- One request for sectors of a line (07 R262, R263, R268, R269, R271, R272): the sectors that were not valid, and those that a fetch of
the tier brings for it. -/
def State.rcRequest (s : State) (a part want : Nat) : State × Nat × Nat :=
  let sl := s.slice a
  if s.noAllocate a then (s.bump (RC_MISS sl) (popcount want), want, want)
  else
    match s.cache.lines.find? (fun l => l.slice == sl && l.tag == a) with
    | some l =>
      let miss := want &&& (0xFFFF - l.sectors)
      let s := if l.st = .evicting then s.rescue l else s.setWay l.slice l.set l.way (some l.used)
      let s := s.bump (RC_HIT sl) (popcount (want &&& l.sectors))
      let rest := miss &&& (0xFFFF - s.awaited sl a)
      if rest = 0 then (s, miss, 0) else (s.miss sl a part rest (some l.way), miss, rest)
    | none =>
      let rest := want &&& (0xFFFF - s.awaited sl a)
      if rest = 0 then (s, want, 0) else (s.miss sl a part rest none, want, rest)

/-- The oldest miss that waits at a slice goes on when a fill line is free (07 R269). -/
def State.runWait (s : State) (sl : Nat) : State :=
  if s.fillLines sl ≥ 512 then s
  else
    match s.cache.rcWait.find? (fun w => w.slice == sl) with
    | none => s
    | some w => ((s.upCache (fun c => { c with rcWait := c.rcWait.erase w })).rcRequest w.line w.part w.want).1

/-- Lines that a run of a tier touches, each with its sectors (04 R158, 07 R257). -/
def linesOf (tier off n : Nat) : List (Nat × Nat) :=
  if n = 0 then []
  else
    let first := off / 1024
    (List.range ((off + n - 1) / 1024 - first + 1)).map (fun i =>
      (tier * 2 ^ 36 + first + i, sectorMask ((first + i) * 1024) off n))

/-- Sectors of a run. -/
def sectorsOf (off n : Nat) : Nat := if n = 0 then 0 else (off + n - 1) / 64 - off / 64 + 1

/-- Tier transfers of a run: its sectors, and on Tier C a check transfer for each 512-byte block (08 R317). -/
def transfersOf (tier off n : Nat) : Nat :=
  sectorsOf off n + (if tier = 2 ∧ n ≠ 0 then (off + n - 1) / 512 - off / 512 + 1 else 0)

/-- Regulator of a tier and partition; Tier S regulates its read and write ports separately (08 R318). -/
def regulator (tier part : Nat) (write : Bool) : Nat := if tier = 0 ∧ write then 64 + part else tier * 16 + part

/-- Transfers are charged to a partition: counted, taken from its bucket as far as that reaches and from unallocated bandwidth
beyond, and from its allowance of the window (08 R318, R319, R324). -/
def State.charge (s : State) (tier part n : Nat) (write : Bool) : State :=
  if n = 0 then s
  else
    let k := regulator tier part write
    let b := (lookupBy k s.spine.buckets).getD 0
    let c := (lookupBy k s.spine.caps).getD 0
    (s.upSpine (fun x => { x with
      buckets := insertBy k (b - 64 * min n (b / 64)) x.buckets, caps := insertBy k (c - 64 * n) x.caps })).bump (MT_BW tier part) n

/-- Tier transfers that fetch sectors of a line: one each, and on Tier C a check transfer for each 512-byte block (08 R317). -/
def fetchTransfers (tier sectors : Nat) : Nat :=
  popcount sectors + (if tier = 2 then b2n (sectors % 256 != 0) + b2n (sectors / 256 != 0) else 0)

/-- A read through the Row Cache (04 R158): true when every byte could be read. Sectors that miss are read from the tier, where
a poisoned word or a tier out of service is uncorrectable (08 R310, R315). -/
def State.rcRead (s : State) (tier off n part : Nat) : State × Bool :=
  (linesOf tier off n).foldl (fun (acc : State × Bool) l =>
    let r := acc.1.rcRequest l.1 part l.2
    let base := (l.1 % 2 ^ 36) * 1024
    let lo := max off base
    let hi := min (off + n) (base + 1024)
    let bad := (upTo 16).any (fun i => bit r.2.1 i &&
      (let a := max lo (base + 64 * i)
       let b := min hi (base + 64 * i + 64)
       decide (a < b) && (s.tierOut tier || s.poisoned (memKey tier a) (b - a))))
    (r.1.charge tier part (fetchTransfers tier r.2.2) false, acc.2 && !bad)) (s, true)

/-- A direct read of a tier: true when it is correctable (07 R258, 08 R310). -/
def State.tierReadOk (s : State) (tier off n : Nat) : Bool := !(s.tierOut tier) && !(s.poisoned (memKey tier off) n)

/-- An add with ADD_THROUGH clear invalidates the sectors that hold the row (07 R267, R268). -/
def State.invalidateSectors (s : State) (tier off n : Nat) : State :=
  (linesOf tier off n).foldl (fun s l => s.upCache (fun c => { c with
    lines := (c.lines.map (fun x => if x.tag == l.1 then { x with sectors := x.sectors &&& (0xFFFF - l.2) } else x)).filter
      (fun x => !(x.st == .valid && x.sectors == 0))
    fills := c.fills.map (fun f => if f.line == l.1 then { f with stale := f.stale ||| (f.want &&& l.2) } else f) })) s

/-- Lines of a tier range (07 R290, R292): the number dropped, and the state without them. -/
def State.flushRange (s : State) (tier off n : Nat) : State × Nat :=
  if n = 0 then (s, 0)
  else
    let lo := tier * 2 ^ 36 + off / 1024
    let hi := tier * 2 ^ 36 + (off + n - 1) / 1024
    let p := fun (l : RcLine) => decide (lo ≤ l.tag ∧ l.tag ≤ hi)
    let k := (s.cache.lines.filter (fun l => p l && l.sectors != 0)).length
    ((s.dropLines p).upCache (fun c => { c with
      fills := c.fills.map (fun f => if decide (lo ≤ f.line ∧ f.line ≤ hi) then { f with stale := f.stale ||| f.want } else f) }), k)

-- Metadata Cache

/-- Set of a global address (07 R279). -/
def mdSet (g : Nat) : Nat := bits g 6 14 ^^^ bits g 20 14 ^^^ bits g 34 14

/-- One step of the LFSR (07 R280). -/
def lfsrStep (x : Nat) : Nat :=
  let n := (b2n (bit x 15) + b2n (bit x 13) + b2n (bit x 12) + b2n (bit x 10)) % 2
  (x * 2 + n) % 65536

def State.mdHas (s : State) (g : Nat) : Bool := s.cache.md.any (fun l => l.tag == g / 64)

/-- Invalidate Metadata Cache lines of a range of global addresses; their outstanding fills become stale (07 R278). -/
def State.mdFlush (s : State) (g n : Nat) : State :=
  s.upCache (fun c => { c with
    md := c.md.filter (fun l => !(decide (l.tag * 64 < g + n ∧ g < l.tag * 64 + 64)))
    mdFills := c.mdFills.map (fun f => if decide (f.addr < g + n ∧ g < f.addr + 64) then { f with stale := true } else f) })

/-- Victim of a fill (07 R280): the lowest enabled way that is invalid and that no fill has been given, else the one that the LFSR names
or the next enabled one without a fill; none: the line is served without allocation. A way that a fill has been given counts as valid
(DEDUCED, log 17). -/
def State.mdVictim (s : State) (g : Nat) : State × Option Nat :=
  let on := (upTo 8).filter (fun w => !s.flag MD_WAY_DISABLE w)
  let held := fun (w : Nat) => s.cache.md.any (fun l => l.set == mdSet g && l.way == w)
  let busy := fun (w : Nat) => s.cache.mdFills.any (fun f => f.way == some w && mdSet f.addr == mdSet g)
  match on.find? (fun w => !held w && !busy w) with
  | some w => (s, some w)
  | none =>
    if on.isEmpty then (s, none)
    else
      let x := lfsrStep (s.fld MD_LFSR 0 16)
      (s.setFld MD_LFSR 0 16 x, ((upTo 8).map (fun i => (x % 8 + i) % 8)).find? (fun w => on.contains w && !busy w))

/-- Who pays for a read of host memory: context, ring whose structure it is, and command. -/
structure MdFor where
  ctx : Nat
  ring : Option Nat
  handle : Nat

/-- A read of the block's own. -/
def MdFor.own : MdFor := { ctx := 0, ring := none, handle := noHandle.toNat }

/-- A line is fetched: its victim is chosen now (07 R280); a line of TIER 3 is read on the host port (07 R278). -/
def State.mdFetch (s : State) (x : MdFor) (line : Nat) : State :=
  let v := s.mdVictim line
  let s := v.1.upCache (fun c => { c with mdFills := c.mdFills ++ [{ addr := line, way := v.2, stale := false }] })
  if gTier line = 3 then s.hostRead x.ctx (gOff line) 64 x.ring x.handle else s

/-- A demand miss prefetches the next line of the page (07 R281). -/
def State.mdPrefetch (s : State) (x : MdFor) (line : Nat) : State :=
  let n := line + 64
  if !s.flag MD_CFG 1 ∨ n / 4096 ≠ line / 4096 ∨ s.mdHas n ∨ s.cache.mdFills.any (fun f => f.addr == n) then s
  else (s.bump MD_PREFETCH 1).mdFetch x n

/-- The array holds a line, or the merging buffer holds the bytes that a read names (07 R284). -/
def State.mdServes (s : State) (line m : Nat) : Bool :=
  s.mdHas line || s.cache.mb.any (fun e => e.line == line && (e.mask &&& m) == m)

/-- One demand read of a line of this block: a hit, a wait for the fill on its way, or a miss (07 R277, R281, R284). A read after a write
that made the fill stale fetches again (07 R268). -/
def State.mdLine (s : State) (x : MdFor) (line m : Nat) : State :=
  if s.mdServes line m then s.bump MD_HIT 1
  else if s.cache.mdFills.any (fun f => f.addr == line && !f.stale) then s
  else ((s.bump MD_MISS 1).mdFetch x line).mdPrefetch x line

/-- Lines that a read of this block's memory fetches. -/
def State.mdMisses (s : State) (g n : Nat) : Nat :=
  ((lines64 g n).filter (fun line => !s.mdServes line (byteMask line g n) &&
    !(s.cache.mdFills.any (fun f => f.addr == line && !f.stale)))).length

/-- A read of this block's memory through the Metadata Cache; data of other blocks passes without allocation (07 R278). -/
def State.mdReadFor (s : State) (x : MdFor) (g n : Nat) : State :=
  if gBlock g ≠ s.id then s else (lines64 g n).foldl (fun s line => s.mdLine x line (byteMask line g n)) s

def State.mdRead (s : State) (g n : Nat) : State := s.mdReadFor MdFor.own g n

/-- A read that has to fetch a line in which the bytes it names are poisoned meets an uncorrectable error (07 R286, 08 R310). A line that
the array holds is a sound copy. -/
def State.mdBad (s : State) (g n : Nat) : Bool :=
  (lines64 g n).any (fun line =>
    let lo := max g line
    let hi := min (g + n) (line + 64)
    !s.mdServes line (byteMask line g n) &&
      (s.poisoned (lo % 2 ^ 49) (hi - lo) || (gTier g != 3 && s.tierOut (gTier g))))

/-- A read of metadata in this block's tiers for a partition (04 R155, R158): the lines that it fetches are charged. False when a word of it
cannot be corrected (07 R286). -/
def State.metaRead (s : State) (part g n : Nat) : State × Bool :=
  ((s.mdRead g n).charge (gTier g) part (s.mdMisses g n) false, !s.mdBad g n)

/-- The zero-line operation (07 R285): the line is allocated without a fetch and reads zero, an outstanding fill of it becomes stale, and a
full entry of zeros takes the place of its open one and closes at once. -/
def State.zeroLine (s : State) (line : Nat) : State :=
  let s := s.upCache (fun c => { c with
    mdFills := c.mdFills.map (fun f => if f.addr == line then { f with stale := true } else f)
    mb := c.mb.filter (fun e => e.line != line) })
  let s := s.mbLine line fullLine
  if s.mdHas line then s
  else
    let v := s.mdVictim line
    match v.2 with
    | none => v.1
    | some w => v.1.upCache (fun c => { c with
        md := { set := mdSet line, way := w, tag := line / 64 } :: c.md.filter (fun l => !(l.set == mdSet line && l.way == w)) })

/-- Zero lines over a run. -/
def State.zeroLines (s : State) (g n : Nat) : State := (lines64 g n).foldl (fun s line => s.zeroLine line) s

end Sys2Proof.Machine
end

