-- ==== Sys2Proof/Machine/Codes.lean ====
section
/-! DEFINITION. Status codes (03 R138), refusal reasons (03 R110), opcodes (03 R127). -/

namespace Sys2Proof.Machine

def sOk : Nat := 0x00
def sDegraded : Nat := 0x01
def sPartial : Nat := 0x02
def sIllegal : Nat := 0x10
def sReserved : Nat := 0x11
def sBadFormat : Nat := 0x12
def sBadTable : Nat := 0x13
def sDenied : Nat := 0x14
def sTransFault : Nat := 0x15
def sRefused : Nat := 0x20
def sVersion : Nat := 0x21
def sTimeout : Nat := 0x30
def sUnreach : Nat := 0x31
def sUncorr : Nat := 0x40
def sAborted : Nat := 0x50
def sMissed : Nat := 0x60

def rNotValid : Nat := 1
def rClass : Nat := 2
def rDeadline : Nat := 3
def rTooLarge : Nat := 4
def rCqFull : Nat := 5
def rSpeed : Nat := 6
def rLoad : Nat := 7

def oNop : Nat := 0x00
def oLookup : Nat := 0x01
def oPool : Nat := 0x02
def oScatter : Nat := 0x03
def oBackward : Nat := 0x04
def oCreate : Nat := 0x08
def oDestroy : Nat := 0x09
def oPublish : Nat := 0x0A
def oSwitch : Nat := 0x0B
def oRowsWrite : Nat := 0x0C
def oRowsRead : Nat := 0x0D
def oMigrate : Nat := 0x10
def oCheckpoint : Nat := 0x11
def oRestore : Nat := 0x12
def oFence : Nat := 0x18
def oFlush : Nat := 0x19
def oStats : Nat := 0x1A
def oCommit : Nat := 0x1B
def oAttest : Nat := 0x20
def oLoopback : Nat := 0x21

/-- Completion flags (03 R113). -/
def fInf : Nat := 1
def fNan : Nat := 2
def fSat : Nat := 4
def fDefault : Nat := 8
def fDegraded : Nat := 16
def fInline : Nat := 32
def fSkip : Nat := 64
def fPhase : Nat := 128

end Sys2Proof.Machine
end

