-- ==== Sys2Proof/Machine/Trans.lean ====
section
/-! DEFINITION. The Translation Unit (11): contexts, windows, walks, the TLB, the tier aperture, hot pages, shoot-downs, and the
one operation that says where an access leads. -/

namespace Sys2Proof.Machine

-- Contexts (R405, R407)

def State.ctxEntry (s : State) (c : Nat) : List Byte := (lookupBy c s.tu.ctxs).getD (zeros 32)
def State.ctxRoot (s : State) (c : Nat) : Nat := bits (leAt (s.ctxEntry c) 0 8) 12 34 * 4096
def State.ctxFlags (s : State) (c : Nat) : Nat := leAt (s.ctxEntry c) 8 1
def State.migMode (s : State) (c : Nat) : Nat := bits (s.ctxFlags c) 3 2

/-- The context is in the context table for a pointer mode (R407); in headless mode VIRT counts as 0. -/
def State.ctxKnown (s : State) (c : Nat) (global : Bool) : Bool :=
  let f := s.ctxFlags c
  bit f 0 && (if global then bit f 2 else bit f 1 && !s.headless)

-- Windows (R410)

/-- A window that passes no access whatever its VALID bit. -/
def winMalformed (w : List Byte) : Bool :=
  let base := leAt w 0 8
  bits base 0 12 != 0 || bits base 49 15 != 0 || decide (bits base 46 3 ≥ 4) || leAt w 8 4 == 0 ||
  bits (leAt w 14 1) 2 6 != 0 || bits (leAt w 15 1) 1 7 != 0

/-- A window lets an access of a context through. -/
def winPasses (w : List Byte) (ctx tier off n : Nat) (write : Bool) : Bool :=
  let base := bits (leAt w 0 8) 0 46
  bit (leAt w 15 1) 0 && !winMalformed w && bits (leAt w 0 8) 46 3 == tier &&
  decide (base ≤ off ∧ off + n ≤ base + leAt w 8 4 * 4096) &&
  (leAt w 12 2 == ctx || (leAt w 12 2 == 0xFFFF && ctx != 0)) &&
  bit (leAt w 14 1) (b2n write)

/-- Some window passes the access; context 0 is the block itself (R406). -/
def State.windowOk (s : State) (ctx tier off n : Nat) (write : Bool) : Bool :=
  ctx == 0 || s.tu.wins.any (fun w => winPasses w.2 ctx tier off n write)

/-- A denial at this block (R413). -/
def State.deny (s : State) : State := s.bump TU_DENY 1

/-- A status that a check of a context gave counts as a denial. -/
def State.denyIf (s : State) (st : Nat) : State := if st = sDenied then s.deny else s

/-- Where an access leads. -/
inductive Reach where
  /-- A tier of this block, or its host memory (tier 3), and the offset. -/
  | here (tier off : Nat)
  /-- A global address at another block. -/
  | away (addr : Nat)
  /-- A status that ends the command (R428). -/
  | stop (status : Nat)
  /-- A migration fault (R431). -/
  | retry
  /-- The access waits: for a shoot-down in scope (R424), or for the host link (15 R551). -/
  | held
  deriving DecidableEq, Repr

/-- Host memory behind the block: reached, absent in headless mode, or held while the link is down (01 R41, 15 R551). The host chip
answers later (R412). -/
def State.reachHost (s : State) (off : Nat) : State × Reach :=
  if s.headless then ((s.bump TU_FAULT 1), .stop sTransFault)
  else if !s.hostLink then (s, .held)
  else (s, .here 3 off)

/-- An access to a tier of this block; to one out of service it completes as uncorrectable data (08 R315). -/
def State.reachTier (s : State) (tier off : Nat) : State × Reach := (s, if s.tierOut tier then .stop sUncorr else .here tier off)

/-- A global address (01 R32 to R34, R596; 11 R409, R410). -/
def State.reachGlobal (s : State) (ctx a n : Nat) (write : Bool) : State × Reach :=
  if gBlock a ≠ s.id then
    if s.noRoute (gBlock a) then (s, .stop sUnreach)
    else if s.endpoint (gBlock a) && gTier a != 3 then (s.bump TU_FAULT 1, .stop sTransFault)
    else (s, .away a)
  else if !s.addressOk a n then (s.bump TU_FAULT 1, .stop sTransFault)
  else if !s.windowOk ctx (gTier a) (gOff a) n write then ((s.deny).bump TU_FAULT 1, .stop sDenied)
  else if gTier a = 3 then s.reachHost (gOff a)
  else s.reachTier (gTier a) (gOff a)

-- The page table (R414 to R417)

/-- Bits [63:48] equal bit 47. -/
def canonical (va : Nat) : Bool := bits va 48 16 == (if bit va 47 then 0xFFFF else 0)

/-- Index of a level, and the address prefix that names one entry of it. -/
def vaIndex (va lvl : Nat) : Nat := bits va (12 + 9 * lvl) 9
def vaPrefix (va lvl : Nat) : Nat := bits va (12 + 9 * lvl) (36 - 9 * lvl)

/-- How a walk ends. -/
inductive WalkEnd where
  | leaf (e : Tlb)
  | mig
  | bad (status : Nat)
  deriving DecidableEq, Repr

/-- A read of host memory through the Metadata Cache, as lines of TIER 3 of this block: the lines that it does not hold are read on the
host port with the context of the access (R412, R414). -/
def State.hostCached (s : State) (ctx off n : Nat) (ring : Option Nat) (handle : Nat) : State :=
  s.mdReadFor { ctx := ctx, ring := ring, handle := handle } (gAddr s.id 3 off) n

-- Accesses of other blocks to TIER 3 (01 R596)

/-- The reply to a MEM_READ with its data, or to a MEM_WRITE. -/
def State.memReply (s : State) (src lane : Nat) (msg : List Byte) (st : Nat) : State :=
  let a := leAt msg 16 8
  let n := leAt msg 24 4
  if mType msg = 0x0A then s.answer src lane msg st []
  else s.answer src lane msg st (leBytes 8 a ++ leBytes 4 n ++ zeros 4 ++
    (if st = sOk then s.bytesAt (memKey (gTier a) (gOff a)) n else []))

/-- The mark of host-port requests that serve another block's access. -/
def servedMark (id : Nat) : Nat := 2 ^ 32 + id

/-- The host has answered every request of an access to TIER 3: the reply leaves, CONTEXT_DENIED after an error response (01 R596). -/
def State.closeHost (s : State) (id : Nat) : State :=
  match s.tab.served.find? (fun v => v.id == id) with
  | none => s
  | some v =>
    if s.tu.hreqs.any (fun x => x.handle == servedMark id) then s
    else (s.upTab (fun t => { t with served := t.served.filter (fun y => y.id != id) })).memReply v.src v.lane v.msg v.left

/-- An access to TIER 3 for another block: its requests leave on the host port, and the reply waits for their responses. -/
def State.serveHost (s : State) (src lane : Nat) (msg : List Byte) (f : State → Nat → State) : State :=
  let id := s.tab.nextOp
  let v : Served := { id := id, src := src, lane := lane, msg := msg, lists := [], left := sOk }
  (f (s.upTab (fun t => { t with nextOp := id + 1, served := t.served ++ [v] })) (servedMark id)).closeHost id

-- Walks

/-- Read one entry of a page table. -/
def State.readPte (s : State) (ctx a : Nat) : State × Nat := (s.hostCached ctx a 8 none noHandle.toNat, s.numAt (memKey 3 a) 8)

/-- An upper-level entry enters the walk cache of 256 entries. -/
def State.keepWalk (s : State) (ctx lvl pre next : Nat) : State :=
  s.upTu (fun u => { u with walks := ({ ctx := ctx, level := lvl, pre := pre, next := next } :: u.walks).take 256 })

/-- One walk from a table at a level; reads and writes are judged at the leaf. -/
def State.walkFrom (s : State) (ctx va table : Nat) : Nat → State × WalkEnd
  | 0 =>
    let a := table + 8 * vaIndex va 0
    let r := s.readPte ctx a
    let e := r.2
    if !bit e 0 then (r.1, if bit e 5 then .mig else .bad sTransFault)
    else if bits e 46 10 ≠ 0 ∨ !bit e 4 then (r.1, .bad sTransFault)
    else (r.1, .leaf { ctx := ctx, vpn := bits va 12 36, size := 1, pa := bits e 12 34 * 4096, r := bit e 2, w := bit e 3,
                       a := bit e 56, d := bit e 57, pte := a })
  | lvl + 1 =>
    let a := table + 8 * vaIndex va (lvl + 1)
    let r := s.readPte ctx a
    let e := r.2
    let size := 512 ^ (lvl + 1)
    if !bit e 0 ∨ bits e 46 10 ≠ 0 then (r.1, .bad sTransFault)
    else if bit e 1 then
      if lvl + 1 = 3 ∨ (bits e 12 34) % size ≠ 0 ∨ !bit e 4 then (r.1, .bad sTransFault)
      else (r.1, .leaf { ctx := ctx, vpn := bits va 12 36 / size * size, size := size, pa := bits e 12 34 * 4096, r := bit e 2,
                         w := bit e 3, a := bit e 56, d := bit e 57, pte := a })
    else (r.1.keepWalk ctx (lvl + 1) (vaPrefix va (lvl + 1)) (bits e 12 34 * 4096)).walkFrom ctx va (bits e 12 34 * 4096) lvl

/-- A shoot-down in progress names entries of a context: none of its walk-cache entries is used (R423, R424). -/
def State.ctxShot (s : State) (ctx : Nat) : Bool :=
  s.tu.shoots.any (fun x => match x.scope with
    | .pages c _ _ => c == ctx
    | .context c => c == ctx
    | .all => true)

/-- The deepest entry of the walk cache on the way of a walk. -/
def State.walkHit (s : State) (ctx va : Nat) : Option WalkEnt :=
  if s.ctxShot ctx then none
  else [1, 2, 3].findSome? (fun lvl => s.tu.walks.find? (fun w => w.ctx == ctx && w.level == lvl && w.pre == vaPrefix va lvl))

/-- One walk, from the deepest entry that the walk cache holds or from ROOT. The entry becomes the most recently used (R420). -/
def State.walk (s : State) (ctx va : Nat) : State × WalkEnd :=
  let s := s.bump TU_WALK 1
  match s.walkHit ctx va with
  | some w => (s.upTu (fun u => { u with walks := w :: u.walks.erase w })).walkFrom ctx va w.next (w.level - 1)
  | none => s.walkFrom ctx va (s.ctxRoot ctx) 3

/-- A TLB entry covers a page. -/
def Tlb.covers (e : Tlb) (ctx vpn : Nat) : Bool := e.ctx == ctx && vpn / e.size == e.vpn / e.size

/-- The TLB: 256 sets of 8 by leaf number, the least recently used replaced (R420); the list is in order of use. -/
def tlbInsert (l : List Tlb) (e : Tlb) : List Tlb :=
  let set := fun (x : Tlb) => (x.vpn / x.size) % 256
  let same := (l.filter (fun x => set x == set e && x != e)).take 7
  e :: l.filter (fun x => x != e && (set x != set e || same.contains x))

/-- A shoot-down names a page of a context (R423). -/
def scopeCovers (sc : SdScope) (ctx vpn size : Nat) : Bool :=
  match sc with
  | .pages c v n => c == ctx && decide (v < (vpn / size + 1) * size ∧ vpn / size * size < v + n)
  | .context c => c == ctx
  | .all => true

/-- A pending shoot-down holds a translation back (R424 step 1). -/
def State.shot (s : State) (ctx vpn size : Nat) : Bool := s.tu.shoots.any (fun x => scopeCovers x.scope ctx vpn size)

-- Hot pages (R433, R434)

/-- Append a hot record, or drop it when the queue is full. -/
def State.hotRecord (s : State) (ctx vpn count : Nat) : State :=
  if !s.flag TU_HOTQ_BASE 63 then s
  else
    let lg := s.fld TU_HOTQ_BASE 0 5
    let m := 2 ^ (lg + 1)
    let tail := s.fld TU_HOTQ_TAIL 0 17
    if (tail + m - s.fld TU_HOTQ_HEAD 0 17 % m) % m ≥ 2 ^ lg then s.bump TU_HOTQ_DROP 1
    else
      let phase := b2n (!bit tail lg)
      let rec_ := leBytes 8 vpn ++ leBytes 2 ctx ++ leBytes 2 (min count 0xFFFF) ++ zeros 3 ++ leBytes 1 phase
      (s.hostWrite ctx (bits (s.reg TU_HOTQ_BASE) 12 34 * 4096 + tail % 2 ^ lg * 16) rec_ none noHandle.toNat).setFld
        TU_HOTQ_TAIL 0 17 ((tail + 1) % m)

/-- Count an access to a TIER 3 page of a context with MIGMODE 1. -/
def State.countHot (s : State) (ctx vpn : Nat) : State :=
  let th := s.fld TU_CFG 3 16
  if s.migMode ctx ≠ 1 ∨ th = 0 then s
  else
    let win := max 1 (s.fld TU_CFG 19 8) * ms
    let rest := s.tu.hot.filter (fun h => !(h.1 == ctx && h.2.1 == vpn))
    let e := (s.tu.hot.find? (fun h => h.1 == ctx && h.2.1 == vpn && decide (s.ctl.now ≤ h.2.2.2 + win))).getD
      (ctx, vpn, 0, s.ctl.now)
    let n := e.2.2.1 + 1
    if n ≥ th then (s.upTu (fun u => { u with hot := rest })).hotRecord ctx vpn n
    else s.upTu (fun u => { u with hot := ((ctx, vpn, n, e.2.2.2) :: rest).take 4096 })

/-- A physical address: the tier aperture, or host memory (R417). -/
def State.reachPhys (s : State) (ctx vpn pa n : Nat) : State × Reach :=
  let base := s.fld TU_APERTURE 0 46
  if s.flag TU_APERTURE 63 && decide (base ≤ pa ∧ pa < base + 2 ^ 41) then
    let tier := (pa - base) / 2 ^ 39
    let off := (pa - base) % 2 ^ 39
    if tier = 3 ∨ off + n > s.capacity tier then (s.bump TU_FAULT 1, .stop sTransFault) else s.reachTier tier off
  else (s.countHot ctx vpn).reachHost pa

/-- Set A, and D for a write, by an atomic OR on the host port (R418). -/
def State.markLeaf (s : State) (e : Tlb) (write : Bool) : State :=
  if e.a && (e.d || !write) then s
  else
    let k := memKey 3 e.pte
    let v := s.numAt k 8 ||| ((if e.a then 0 else 2 ^ 56) + (if write && !e.d then 2 ^ 57 else 0))
    let s := (s.hostPacket 0x03 e.ctx e.pte 8 (s.bytesAt k 8) none noHandle.toNat).putMeta k (leBytes 8 v)
    s.upTu (fun u => { u with tlb := u.tlb.map (fun x => if x.ctx == e.ctx && x.vpn == e.vpn && x.size == e.size then
      { x with a := true, d := x.d || write } else x) })

/-- A leaf in hand: permissions, A and D, and the physical address (R416 to R418). -/
def State.useLeaf (s : State) (e : Tlb) (va n : Nat) (write : Bool) : State × Reach :=
  if (if write then !e.w else !e.r) then (s.bump TU_FAULT 1, .stop sTransFault)
  else
    (s.markLeaf e write).reachPhys e.ctx (bits va 12 36) (e.pa + (bits va 0 48 - e.vpn * 4096)) n

/-- Ask for the migration of a page, once (R431). -/
def State.askMigration (s : State) (ctx vpn : Nat) (pull : Bool) : State :=
  if s.tu.migs.any (fun m => m.1 == ctx && m.2.1 == vpn) then s
  else s.upTu (fun u => { u with migs := u.migs ++ [(ctx, vpn, pull)] })

/-- A virtual address of a context, within one 4 KiB page (R414 to R420, R424, R431). -/
def State.reachVirt (s : State) (ctx va n : Nat) (write : Bool) : State × Reach :=
  if !canonical va then (s.bump TU_FAULT 1, .stop sTransFault)
  else if !s.hostLink then (s, .held)
  else
    let vpn := bits va 12 36
    match s.tu.tlb.find? (fun e => e.covers ctx vpn) with
    | some e =>
      if s.shot ctx e.vpn e.size then (s, .held)
      else (s.upTu (fun u => { u with tlb := tlbInsert u.tlb e })).useLeaf e va n write
    | none =>
      if s.shot ctx vpn 1 then (s, .held)
      else
        let r := s.walk ctx va
        match r.2 with
        | .bad st => (r.1.bump TU_FAULT 1, .stop st)
        | .mig =>
          if s.migMode ctx = 1 ∨ s.migMode ctx = 2 then (r.1.askMigration ctx vpn false, .retry)
          else (r.1.bump TU_FAULT 1, .stop sTransFault)
        | .leaf e => (r.1.upTu (fun u => { u with tlb := tlbInsert u.tlb e })).useLeaf e va n write

/-- Prefetch of one page: it leaves a translation or nothing (R422). -/
def State.prefetchPage (s : State) (ctx va : Nat) : State :=
  let vpn := bits va 12 36
  if !canonical va || !s.hostLink || s.tu.tlb.any (fun e => e.covers ctx vpn) || s.shot ctx vpn 1 then s
  else
    let r := (s.bump TU_PF 1).walk ctx va
    match r.2 with
    | .leaf e => r.1.upTu (fun u => { u with tlb := tlbInsert u.tlb e })
    | _ => r.1.upTu (fun u => { u with walks := s.tu.walks })

/-- Prefetch of the next PF_DEPTH pages of a buffer that ends before `stop_` (R422). -/
def State.prefetch (s : State) (ctx va stop_ : Nat) : State :=
  (upTo (s.fld TU_CFG 0 3)).foldl (fun s i =>
    let p := (va / 4096 + i + 1) * 4096
    if p < stop_ then s.prefetchPage ctx p else s) s

/-- Where an access of a context in a pointer mode leads, within one 4 KiB page. -/
def State.reach (s : State) (global : Bool) (ctx a n : Nat) (write : Bool) : State × Reach :=
  if global then s.reachGlobal ctx a n write else s.reachVirt ctx a n write

/-- The runs of a buffer by 4 KiB page: address and bytes. -/
def pageRuns (a n : Nat) : List (Nat × Nat) :=
  if n = 0 then []
  else (List.range ((a + n - 1) / 4096 - a / 4096 + 1)).map (fun i =>
    let p := (a / 4096 + i) * 4096
    let lo := max a p
    (lo, min (a + n) (p + 4096) - lo))

/-- Invalidate what the pending shoot-downs name, acknowledge them in order, and count them (R423, R424); INV packets that the port held
become pending. -/
def State.drainShoots (s : State) : State :=
  let go := fun (s : State) (x : Shoot) =>
    let s := s.upTu (fun u => { u with
      tlb := u.tlb.filter (fun e => !scopeCovers x.scope e.ctx e.vpn e.size)
      walks := u.walks.filter (fun w => match x.scope with
        | .pages c _ _ => w.ctx != c
        | .context c => w.ctx != c
        | .all => false) })
    if x.silent then s
    else
      let s := s.bump TU_SD 1
      match x.htag with
      | some t => s.upTu (fun u => { u with hout := u.hout ++ [{ hopc := 0xA1, tag := t, err := false, data := [] }] })
      | none => (s.setFld TU_INV_CTRL 19 1 0).setFld TU_INV_CTRL 20 1 1
  let s2 := s.tu.shoots.foldl go s
  (s2.upTu (fun u => { u with shoots := u.heldInvs.take 8, heldInvs := u.heldInvs.drop 8 })).setFld TU_STATUS 2 4 (min s.tu.heldInvs.length 8)

/-- A shoot-down joins those pending; SD_PENDING follows. -/
def State.addShoot (s : State) (x : Shoot) : State :=
  (s.upTu (fun u => { u with shoots := u.shoots ++ [x] })).setFld TU_STATUS 2 4 (min (s.tu.shoots.length + 1) 8)

end Sys2Proof.Machine
end

