-- ==== Sys2Proof/Machine/Table.lean ====
section
/-! DEFINITION. Tables, versions, placement, stored rows and the allocator of tier space (02). -/

namespace Sys2Proof.Machine

-- Format descriptors (R72)

structure Fmt where
  code : Nat
  dim : Nat
  efmt : Nat
  mfmt : Nat
  /-- NBOOK_M1 + 1 of code 8, RANK_M1 + 1 of code 9. -/
  count : Nat
  wide : Bool
  intacc : Bool
  aux : Nat
  deriving DecidableEq, Repr

def Fmt.of (v : Nat) : Fmt :=
  let code := bits v 0 4
  { code := code, dim := bits v 4 12 + 1, efmt := bits v 16 4, mfmt := bits v 20 4,
    count := (if code = 8 then bits v 24 4 else bits v 24 7) + 1, wide := bit v 31, intacc := bit v 32,
    aux := bits v 44 20 * 4096 }

/-- A descriptor that TABLE_CREATE rejects (R74). -/
def fmtBad (v : Nat) : Bool :=
  let c := bits v 0 4
  let ef := bits v 16 4
  let mf := bits v 20 4
  (c == 7 || decide (c ≥ 10)) ||
  decide (ef > 4) || decide (mf > 4) ||
  (c != 8 && c != 9 && ef != 0) || (c != 9 && mf != 0) ||
  (if c = 8 then bits v 28 3 != 0 else if c = 9 then false else bits v 24 7 != 0) ||
  (c != 5 && c != 6 && c != 8 && bit v 31) ||
  (c != 5 && c != 6 && bit v 32) ||
  bits v 33 11 != 0 || bits v 44 20 != 0

/-- Code width of code 8 (R79). -/
def Fmt.cw (f : Fmt) : Nat := if f.wide then 8 else 4

/-- Header bytes of an integer row (R76, R77). -/
def Fmt.header (f : Fmt) : Nat :=
  if f.code = 5 then (if f.wide then 8 else 4) else if f.code = 6 then (if f.wide then 4 else 2) else 0

/-- Bytes of a row before padding (R80). -/
def Fmt.raw (f : Fmt) : Nat :=
  if f.code ≤ 4 then f.dim * esize f.code
  else if f.code = 5 then f.header + f.dim
  else if f.code = 6 then f.header + (f.dim + 1) / 2
  else if f.code = 8 then (f.count * f.cw + 7) / 8
  else f.count * esize f.efmt

/-- Stored row size S (R80). -/
def Fmt.size (f : Fmt) : Nat := padTo 16 f.raw

/-- Elements of a row add: d, or r for a low-rank table (06 R224, R230). -/
def Fmt.nel (f : Fmt) : Nat := if f.code = 9 then f.count else f.dim

/-- Bytes of one entry of the auxiliary region, and of the whole region (R83). -/
def Fmt.auxRow (f : Fmt) : Nat := padTo 16 (f.dim * esize (if f.code = 9 then f.mfmt else f.efmt))
def Fmt.auxSize (f : Fmt) : Nat :=
  if f.code = 9 then f.count * f.auxRow else if f.code = 8 then f.count * 2 ^ f.cw * f.auxRow else 0

/-- Bytes of a row group with its accumulators (R68, 06 R229). -/
def groupBytes (f : Fmt) (recipe : Nat) : Nat := 4096 * f.size + (if recipe = 3 then 16384 else 0)

-- Records and versions

def State.rec? (s : State) (t : Nat) : Option TableRec := s.tab.recs.find? (fun r => r.tbl == t)
def State.ver? (s : State) (t v : Nat) : Option Version := s.tab.vers.find? (fun x => x.tbl == t && x.ver == v)
def State.group? (s : State) (t v g : Nat) : Option Group := s.tab.groups.find? (fun x => x.tbl == t && x.ver == v && x.g == g)
def State.upRec (s : State) (t : Nat) (f : TableRec → TableRec) : State :=
  s.upTab (fun x => { x with recs := updFirst (fun r => r.tbl == t) f x.recs })
def State.upVer (s : State) (t v : Nat) (f : Version → Version) : State :=
  s.upTab (fun x => { x with vers := updFirst (fun r => r.tbl == t && r.ver == v) f x.vers })
def State.upGroup (s : State) (t v g : Nat) (f : Group → Group) : State :=
  s.upTab (fun x => { x with groups := updFirst (fun r => r.tbl == t && r.ver == v && r.g == g) f x.groups })

/-- Format of a version's slot, or of the record's current or published slot. -/
def State.fmtAt (s : State) (slot : Nat) : Fmt := Fmt.of (s.reg (TK_FMT slot))
def Version.format (v : Version) (s : State) : Fmt := s.fmtAt v.fmt
def State.verFmt (s : State) (t v : Nat) : Fmt := ((s.ver? t v).map (fun x => s.fmtAt x.fmt)).getD (Fmt.of 0)
/-- Format of a table: its versions agree in everything but AUX_BASE (R71). -/
def State.tblFmt (s : State) (t : Nat) : Fmt :=
  ((s.tab.vers.find? (fun x => x.tbl == t)).map (fun x => s.fmtAt x.fmt)).getD (Fmt.of 0)

def TableRec.flag (r : TableRec) (i : Nat) : Bool := bit r.flags i
def TableRec.carry (r : TableRec) : Bool := r.flag 0
def TableRec.through (r : TableRec) : Bool := r.flag 1
def TableRec.ordered (r : TableRec) : Bool := r.flag 2
def TableRec.dfltStored (r : TableRec) : Bool := r.flag 3
def TableRec.readAny (r : TableRec) : Bool := r.flag 4
def TableRec.repl2 (r : TableRec) : Bool := r.flag 5

/-- Row groups of a table (R63 ff). -/
def TableRec.ngroups (r : TableRec) : Nat := (r.rows + 4095) / 4096

/-- Key of a global address at this block. -/
def gKey (a : Nat) : Nat := memKey (gTier a) (gOff a)

-- Placement entries (R64)

def entWord (e : PEntry) : Nat := e.owner + e.tier * 2 ^ 15 + b2n e.repl * 2 ^ 18 + e.state * 2 ^ 19 + e.epoch % 1024 * 2 ^ 22
def entOf (w : Nat) : PEntry :=
  { owner := bits w 0 15, tier := bits w 15 3, repl := bit w 18, state := bits w 19 3, epoch := bits w 22 10 }

def pUnmapped : Nat := 0
def pResident : Nat := 1
def pMigrating : Nat := 2
def pPromoting : Nat := 3
def pLost : Nat := 4

/-- The placement entry of a group in a map at this block. -/
def State.pentry (s : State) (pmap g : Nat) : PEntry := entOf (s.numAt (gKey pmap + 4 * g) 4)
/-- The Index Sorter reads the entries of row groups through the Metadata Cache; none for one that cannot be read (04 R155, R181). -/
def State.readEntries (s : State) (pmap part : Nat) (gs : List Nat) : State × List (Nat × Option PEntry) :=
  gs.foldl (fun acc g =>
    let m := acc.1.metaRead part (pmap + 4 * g) 4
    (m.1, acc.2 ++ [(g, if m.2 then some (s.pentry pmap g) else none)])) (s, [])
def State.setPentry (s : State) (pmap g : Nat) (e : PEntry) : State :=
  s.putMeta (gKey pmap + 4 * g) (leBytes 4 (entWord e))

/-- A corrupt entry (R65). -/
def State.corrupt (s : State) (e : PEntry) : Bool :=
  decide (e.state ≥ 5) || ((e.state == 1 || e.state == 2) && decide (e.tier ≥ 3)) ||
  ((e.state == 1 || e.state == 2 || e.state == 3) && s.endpoint e.owner)

/-- Groups of a version whose entry is not UNMAPPED, ascending, with their entries. -/
def State.mapped (s : State) (r : TableRec) (v : Version) : List (Nat × PEntry) :=
  (List.range r.ngroups).filterMap (fun g =>
    let e := s.pentry v.pmap g
    if e.state = 0 then none else some (g, e))

/-- A table record as it lies in memory (02 R50). -/
def State.recordBytes (s : State) (r : TableRec) : List Byte :=
  let cur := s.ver? r.tbl r.curVer
  let pub := s.ver? r.tbl r.pubVer
  let map := fun (v : Option Version) => (v.map (fun x => x.pmap)).getD 0
  let slot := fun (v : Option Version) => (v.map (fun x => x.fmt)).getD 0
  leBytes 4 r.tbl ++ leBytes 2 r.curVer ++ leBytes 2 r.pubVer ++ leBytes 8 r.rows ++ leBytes 8 (map cur) ++ leBytes 8 (map pub) ++
  leBytes 1 (slot cur) ++ leBytes 1 (slot pub) ++ leBytes 2 r.ctx ++ leBytes 1 r.flags ++ leBytes 1 r.recipe ++ zeros 2 ++
  leBytes 8 r.defrow ++ leBytes 8 r.rcpp ++ zeros 8

-- Space

/-- Regions of a tier that hold no row group: firmware tables and the journal in Tier S, the ordered pool in Tier C, the
migration region (06 R256, 11 R430). -/
def State.keptOut (s : State) (tier : Nat) : List (Nat × Nat) :=
  (if tier = 0 then [(0, 2 ^ 22 + s.fld MT_JOURNAL_SIZE 0 32)] else []) ++
  (if tier = 2 then [(s.fld MT_ORD_POOL_BASE 0 46, s.fld MT_ORD_POOL_SIZE 0 46)] else []) ++
  (if s.fld TU_MIG_REGION 46 3 = tier then [(s.fld TU_MIG_REGION 0 46, s.fld TU_MIG_PAGES 0 32 * 4096)] else [])

def State.occupied (s : State) (tier : Nat) : List (Nat × Nat) :=
  (s.tab.extents.filterMap (fun e => if e.1 = tier then some e.2 else none)) ++ (s.keptOut tier).filter (fun e => e.2 != 0)

/-- Free bytes of a tier: what no extent, region or reservation holds (12 R453). -/
def State.room (s : State) (tier : Nat) : Nat :=
  if s.tierOut tier || decide (tier ≥ 3) then 0
  else s.capacity tier - sumOf ((s.occupied tier).map (fun e => e.2)) -
    sumOf ((s.tab.rsv.filter (fun r => r.2.2.1 == tier)).map (fun r => r.2.2.2))

/-- First fit at a multiple of an alignment. Host memory holds nothing of the Table Keeper's (01 R35). -/
def State.findSpace (s : State) (tier n align : Nat) : Option Nat :=
  let occ := s.occupied tier
  let fits := fun (b : Nat) => decide (b + n ≤ s.capacity tier) && occ.all (fun e => decide (b + n ≤ e.1 ∨ e.1 + e.2 ≤ b))
  let cands := (0 :: occ.map (fun e => padTo align (e.1 + e.2))).filter fits
  if s.tierOut tier || decide (tier ≥ 3) then none
  else match cands with
    | [] => none
    | c :: cs => some (cs.foldl min c)

def State.alloc (s : State) (tier n align : Nat) : Option (Nat × State) :=
  (s.findSpace tier n align).map (fun b => (b, s.upTab (fun t => { t with extents := t.extents ++ [(tier, b, n)] })))

/-- Release an extent, and clear what it held: storage that is allocated again starts at zero. -/
def State.free (s : State) (tier base : Nat) : State :=
  s.upTab (fun t => { t with extents := t.extents.filter (fun e => !(e.1 == tier && e.2.1 == base)) })

/-- A run of memory becomes zero. -/
def State.wipe (s : State) (k n : Nat) : State :=
  { s with mem := s.mem.filter (fun c => !(decide (k ≤ c.1 ∧ c.1 < k + n)))
           poison := clearPoison s.poison k n }

/-- Allocate zeroed space in Tier S, else F, else C, as a global address of this block (metadata, 12 R456). -/
def State.allocMeta (s : State) (n : Nat) (tiers : List Nat) : Option (Nat × State) :=
  tiers.findSome? (fun t => (s.alloc t (max n 1) 4096).map (fun r =>
    (gAddr s.id t r.1, r.2.wipe (memKey t r.1) (max n 1))))

def State.freeMeta (s : State) (a : Nat) : State := if a = 0 then s else s.free (gTier a) (gOff a)

-- Stored rows

/-- The residency entry (R67). -/
def Group.entry (g : Group) : Nat := g.base + g.tier * 2 ^ 46 + b2n g.secondary * 2 ^ 49

/-- The Table Keeper writes a group's residency entry as its fields stand. -/
def State.keepEntry (s : State) (t v g : Nat) : State :=
  match s.group? t v g with
  | some x => s.putMeta (memKey 0 x.res) (leBytes 8 x.entry)
  | none => s

/-- The owner reads a group's residency entry through the Metadata Cache: false when it cannot be read (04 R158, 07 R286). -/
def State.readEntry (s : State) (x : Group) (part : Nat) : State × Bool := s.metaRead part (gAddr s.id 0 x.res) 8

/-- Row p of a group (R68), and its accumulator (06 R229). -/
def Group.rowOff (g : Group) (f : Fmt) (p : Nat) : Nat := g.base + p * f.size
def Group.accOff (g : Group) (f : Fmt) (p : Nat) : Nat := g.base + 4096 * f.size + 4 * p

/-- Elements of `n` little-endian codes of `w` bytes. -/
def elems (bs : List Byte) (off w n : Nat) : List Nat := (List.range n).map (fun j => leAt bs (off + j * w) w)

/-- Integer code j of a row of code 5 or 6 (R76, R77). -/
def intCode (f : Fmt) (row : List Byte) (j : Nat) : Int :=
  if f.code = 5 then sext 8 (leAt row (f.header + j) 1)
  else
    let b := leAt row (f.header + j / 2) 1
    sext 4 (if j % 2 = 0 then b % 16 else b / 16)

/-- Scale and bias of an integer row as exact values (R76, R77). -/
def rowScale (f : Fmt) (row : List Byte) : FV :=
  if f.wide then fp32.decode (leAt row 0 4) else fp16.decode (leAt row 0 2)
def rowBias (f : Fmt) (row : List Byte) : FV :=
  if f.code = 6 then .fin false 0 1
  else if f.wide then fp32.decode (leAt row 4 4) else fp16.decode (leAt row 2 2)

/-- FP32 elements of a list of codes of one element format, with findings (R75). -/
def toF32s (code : Nat) (l : List Nat) : List F32 × Findings :=
  l.foldr (fun b acc => let r := toF32 code b; (r.1 :: acc.1, acc.2.or r.2)) ([], .none)

/-- Code m of a codebook row (R79). -/
def bookCode (f : Fmt) (row : List Byte) (m : Nat) : Nat :=
  if f.wide then leAt row m 1 else (leAt row (m / 2) 1 >>> (4 * (m % 2))) % 16

/-- One step of the rebuild of R84: acc + f[k] × m[k], element by element. -/
def rebuildStep (w : F32) (acc row : List F32) : List F32 × Findings :=
  (acc.zip row).foldr (fun p r => let x := ffma p.1 w p.2; (x.1 :: r.1, r.2.or x.2)) ([], .none)

/-- One step of the rebuild of R85. -/
def rebuildAdd (acc row : List F32) : List F32 × Findings :=
  (acc.zip row).foldr (fun p r => let x := fadd p.1 p.2; (x.1 :: r.1, r.2.or x.2)) ([], .none)

/-- FP32 elements of entry `k` of an auxiliary region held as bytes. -/
def auxEntry (f : Fmt) (aux : List Byte) (k : Nat) : List F32 :=
  let c := if f.code = 9 then f.mfmt else f.efmt
  (toF32s c (elems aux (k * f.auxRow) (esize c) f.dim)).1

/-- The value of a stored row as FP32 (R75 to R79, R84, R85), or raw codes under INTACC (04 R170). -/
def rowValue (f : Fmt) (row aux : List Byte) : List F32 × Findings :=
  if f.intacc then ((List.range f.dim).map (fun j => BitVec.ofInt 32 (intCode f row j)), .none)
  else if f.code ≤ 4 then toF32s f.code (elems row 0 (esize f.code) f.dim)
  else if f.code = 5 ∨ f.code = 6 then
    let sc := rowScale f row
    let b := rowBias f row
    (List.range f.dim).foldr (fun j acc =>
      let x := rne32 (((FV.ofInt (intCode f row j)).mul sc).add b)
      let x := if f.code = 6 then rne32 ((FV.ofInt (intCode f row j)).mul sc) else x
      (x.1 :: acc.1, acc.2.or (x.2.or (sc.seen.or b.seen)))) ([], .none)
  else if f.code = 9 then
    let fs := toF32s f.efmt (elems row 0 (esize f.efmt) f.count)
    (fs.1.zip (List.range f.count)).foldl (fun acc p =>
      let r := rebuildStep p.1 acc.1 (auxEntry f aux p.2)
      (r.1, acc.2.or r.2)) (List.replicate f.dim 0#32, fs.2)
  else
    (List.range f.count).foldl (fun acc m =>
      let r := rebuildAdd acc.1 (auxEntry f aux (m * 2 ^ f.cw + bookCode f row m))
      (r.1, acc.2.or r.2)) (List.replicate f.dim 0#32, .none)

/-- Read the stored bytes of a local row through the Row Cache; none when they cannot be corrected (04 R158). -/
def State.readRow (s : State) (g : Group) (f : Fmt) (p part : Nat) : State × Option (List Byte) :=
  let off := g.rowOff f p
  let r := s.rcRead g.tier off f.size part
  (r.1, if r.2 then some (s.bytesAt (memKey g.tier off) f.size) else none)

/-- The auxiliary bytes that a row needs, through the Row Cache (04 R167). -/
def State.readAux (s : State) (f : Fmt) (row : List Byte) (part : Nat) : State × Option (List Byte) :=
  if f.code = 9 then
    let r := s.rcRead 0 f.aux f.auxSize part
    (r.1, if r.2 then some (s.bytesAt (memKey 0 f.aux) f.auxSize) else none)
  else if f.code = 8 then
    let r := (List.range f.count).foldl (fun (acc : State × Bool) m =>
      let x := acc.1.rcRead 0 (f.aux + (m * 2 ^ f.cw + bookCode f row m) * f.auxRow) f.auxRow part
      (x.1, acc.2 && x.2)) (s, true)
    (r.1, if r.2 then some (s.bytesAt (memKey 0 f.aux) f.auxSize) else none)
  else (s, some [])

/-- A local row read and rebuilt (R86): its value and findings, or none. -/
def State.rowLocal (s : State) (g : Group) (f : Fmt) (p part : Nat) : State × Option (List F32 × Findings) :=
  let r := s.readRow g f p part
  match r.2 with
  | none => (r.1, none)
  | some row =>
    let a := r.1.readAux f row part
    match a.2 with
    | none => (a.1, none)
    | some aux => (a.1, some (rowValue f row aux))

/-- The default row (R60): stored FP32 values, or zeros. -/
def State.defaultRow (s : State) (r : TableRec) (f : Fmt) : List F32 :=
  if r.dfltStored && r.defrow != 0 then
    (List.range f.dim).map (fun j => BitVec.ofNat 32 (s.numAt (gKey r.defrow + 4 * j) 4))
  else List.replicate f.dim 0#32

-- Indices

/-- Widening of a 32-bit index (R57), and the padding sentinel (R58). -/
def padIndex : Nat := 0xFFFFFFFFFFFFFFFF
def widen (i : Nat) : Nat := if i = 0xFFFFFFFF then padIndex else i

/-- How a row number resolves in a version (R59, R64 to R66, 04 R155, R157). -/
inductive Res where
  | kind (k : PosKind)
  | corrupt
  deriving DecidableEq, Repr

/-- What an entry says of its rows; events are numbered by their row in 04 R181. -/
def State.resolveEntry (s : State) : Option PEntry → Res
  | none => .kind (.failed s.id 6)
  | some e =>
    if s.corrupt e then .corrupt
    else if e.state = 0 then .kind .dflt
    else if e.state = 4 then .kind (.failed e.owner 4)
    else if e.state = 3 then .kind (.failed e.owner 3)
    else if e.owner = s.id then .kind .loc
    else if s.noRoute e.owner then .kind (.failed e.owner 2)
    else .kind (.remote e.owner)

/-- Resolution of distinct row numbers at the home block: one entry is read for each row group that they touch. -/
def State.resolveRows (s : State) (r : TableRec) (v : Version) (part : Nat) (l : List Nat) : State × List (Nat × Res) :=
  let es := s.readEntries v.pmap part (sortUnique ((l.filter (fun i => decide (i < r.rows))).map (fun i => i / 4096)))
  (es.1, l.map (fun i =>
    (i, if i ≥ r.rows then .kind .dflt else s.resolveEntry ((lookupBy (i / 4096) es.2).join))))

/-- The load count of a group held here as primary rises and saturates (12 R463). -/
def State.touch (s : State) (t v g n : Nat) : State :=
  s.upGroup t v g (fun x => if x.secondary then x else { x with load := min (x.load + n) 0xFFFFFFFF })

end Sys2Proof.Machine
end

