-- ==== Sys2Proof/Machine/Desc.lean ====
section
/-! DEFINITION. Descriptors (03): fields, structural limits and reserved bits (R118 to R126, R135, R136, R145), operand areas
(R132, R133), format agreement (04 R151, R152, R178; 06 R219) and result sizes (R116, 04 R184 to R190). -/

namespace Sys2Proof.Machine

/-- A descriptor in fields (R118); `raw` is the whole of it, 128 or 256 bytes. -/
structure Desc where
  raw : List Byte
  opc : Nat
  pcls : Nat
  flg : Nat
  tag : Nat
  ver : Nat
  tbl : Nat
  ofmt : Nat
  pmode : Nat
  recipe : Nat
  deadline : Nat
  nidx : Nat
  nbag : Nat
  idxp : Nat
  offp : Nat
  wgtp : Nat
  dstp : Nat
  resume : Nat
  seed : Nat
  deriving DecidableEq, Repr

def Desc.of (b : List Byte) : Desc :=
  { raw := b, opc := leAt b 0 1, pcls := leAt b 1 1, flg := leAt b 2 2, tag := leAt b 4 2, ver := leAt b 6 2, tbl := leAt b 8 3,
    ofmt := leAt b 11 1, pmode := leAt b 12 1, recipe := leAt b 13 1, deadline := leAt b 14 2, nidx := leAt b 16 4,
    nbag := leAt b 20 4, idxp := leAt b 24 8, offp := leAt b 32 8, wgtp := leAt b 40 8, dstp := leAt b 48 8,
    resume := leAt b 56 4, seed := leAt b 60 4 }

-- Flags (R119): the bits that are reserved in a basic descriptor mean nothing there (R120)
def Desc.expert (d : Desc) : Bool := bit d.flg 0
def Desc.inl (d : Desc) : Bool := d.expert && bit d.flg 1
def Desc.idx32 (d : Desc) : Bool := bit d.flg 2
def Desc.degr (d : Desc) : Bool := bit d.flg 3
def Desc.inlRes (d : Desc) : Bool := bit d.flg 4
def Desc.comp (d : Desc) : Bool := d.expert && bit d.flg 5
def Desc.split (d : Desc) : Bool := d.expert && bit d.flg 6
def Desc.notify (d : Desc) : Bool := bit d.flg 7
def Desc.mode (d : Desc) : Nat := bits d.pmode 0 2
def Desc.project (d : Desc) : Bool := d.expert && bit d.pmode 2

-- Operand fields (R132, R133)
def Desc.op (d : Desc) (off n : Nat) : Nat := leAt d.raw off n
def Desc.ptbl (d : Desc) : Nat := d.op 64 3
def Desc.pver (d : Desc) : Nat := d.op 68 2
def Desc.fmt (d : Desc) : Nat := d.op 64 8
def Desc.rows (d : Desc) : Nat := d.op 72 8
def Desc.init (d : Desc) : Nat := d.op 72 1
def Desc.tflags (d : Desc) : Nat := d.op 80 1
def Desc.place (d : Desc) : Nat := d.op 81 1
def Desc.nblk (d : Desc) : Nat := d.op 84 4
def Desc.target (d : Desc) : Nat := d.op 64 1
def Desc.start (d : Desc) : Nat := d.op 72 8
def Desc.group (d : Desc) : Nat := d.op 64 8
def Desc.ngroup (d : Desc) : Nat := d.op 72 4
def Desc.dblk (d : Desc) : Nat := d.op 76 2
def Desc.dtier (d : Desc) : Nat := d.op 78 1
def Desc.imglen (d : Desc) : Nat := d.op 80 8
def Desc.scope (d : Desc) : Nat := d.op 64 1
def Desc.rbase (d : Desc) : Nat := d.op 72 8
def Desc.rlen (d : Desc) : Nat := d.op 80 8
def Desc.sel (d : Desc) : Nat := d.op 64 1
def Desc.step (d : Desc) : Nat := d.op 64 8
def Desc.depth (d : Desc) : Nat := d.op 64 1
def Desc.port (d : Desc) : Nat := d.op 68 1
def Desc.len (d : Desc) : Nat := d.op 72 8

/-- Opcodes that R127 lists, without the diagnostics. -/
def knownOpc (o : Nat) : Bool :=
  [oNop, oLookup, oPool, oScatter, oBackward, oCreate, oDestroy, oPublish, oSwitch, oRowsWrite, oRowsRead, oMigrate, oCheckpoint,
   oRestore, oFence, oFlush, oStats, oCommit, oAttest, oLoopback].contains o

def isDiag (o : Nat) : Bool := decide (o ≥ 0xC0)
def Desc.isRead (d : Desc) : Bool := d.opc == oLookup || d.opc == oPool
def Desc.isBack (d : Desc) : Bool := d.opc == oScatter || d.opc == oBackward
def Desc.isRows (d : Desc) : Bool := d.opc == oRowsWrite || d.opc == oRowsRead
def Desc.isGroup (d : Desc) : Bool := d.opc == oMigrate || d.opc == oCheckpoint || d.opc == oRestore
def Desc.bags (d : Desc) : Bool := d.opc == oPool || d.opc == oBackward
def Desc.weighted (d : Desc) : Bool := d.bags && d.mode == 3
/-- A bag-wise or position-wise command reads an index list in memory. -/
def Desc.listed (d : Desc) : Bool := (d.isRead || d.isBack) && !d.inl

/-- Opcodes that can return a result inline (R116). -/
def Desc.inlOk (d : Desc) : Bool := d.opc == oLookup || d.opc == oPool || d.opc == oRowsRead || d.opc == oStats

/-- The command names a table whose record the home block needs. -/
def Desc.needsTable (d : Desc) : Bool :=
  d.isRead || d.isBack || d.isRows || d.isGroup || d.opc == oDestroy || d.opc == oPublish || d.opc == oSwitch || d.opc == oCommit ||
  (d.opc == oFlush && d.scope == 1) || (d.opc == oStats && d.sel == 0)

-- Reserved bits and bytes (R120, R121, R136)

/-- Width in bytes of an inline index, and the end of the inline operands (R125). -/
def Desc.iw (d : Desc) : Nat := if d.idx32 then 4 else 8
def Desc.inlineEnd (d : Desc) : Nat := 64 + d.iw * d.nidx + (if d.weighted then 4 * d.nidx else 0)

/-- Operand fields of an opcode: offset and size (R132, R133). -/
def Desc.fields (d : Desc) : List (Nat × Nat) :=
  if d.opc = oPool ∧ d.project then [(64, 3), (68, 2)]
  else if d.opc = oCreate then (64, 8) :: (72, 8) :: (if d.expert then [(80, 1), (81, 1), (84, 4)] else [])
  else if d.opc = oPublish then [(64, 8), (72, 1)]
  else if d.isRows then [(64, 1), (72, 8)]
  else if d.opc = oMigrate then [(64, 8), (72, 4), (76, 2), (78, 1)]
  else if d.opc = oCheckpoint ∨ d.opc = oRestore then [(64, 8), (72, 4), (80, 8)]
  else if d.opc = oFlush then (64, 1) :: (if d.scope = 2 then [(72, 8), (80, 8)] else [])
  else if d.opc = oStats then [(64, 1)]
  else if d.opc = oCommit then [(64, 8)]
  else if d.opc = oAttest then [(64, 32)]
  else if d.opc = oLoopback then [(64, 1), (68, 1), (72, 8)]
  else []

/-- Mask of the bits of byte `i` that are not reserved, for an opcode of R127. -/
def Desc.headMask (d : Desc) (i : Nat) : Nat :=
  let all := 0xFF
  if i = 0 then all
  else if i = 1 then (if d.expert then 7 else 0)
  else if i = 2 then
    0x8F + (if d.inlOk then 0x10 else 0) + (if d.expert then 0x20 else 0) +
      (if d.expert && d.opc == oPool && !d.project then 0x40 else 0) - (if d.expert then 0 else 2)
  else if i = 3 then 0
  else if i ≤ 5 then all
  else if i ≤ 7 then
    (if d.isRead || d.isBack || d.isRows || d.isGroup || d.opc == oSwitch then all else 0)
  else if i ≤ 10 then
    (if d.isRead || d.isBack || d.isRows || d.isGroup || [oCreate, oDestroy, oPublish, oSwitch, oCommit].contains d.opc ||
        (d.opc == oFlush && d.scope == 1) || (d.opc == oStats && d.sel == 0) then all else 0)
  else if i = 11 then (if d.isRead || d.isBack then 0xF else 0)
  else if i = 12 then (if d.isRead || d.opc == oBackward then (if d.expert then 7 else 3) else 0)
  else if i = 13 then (if d.opc == oCreate || (d.isBack && d.expert) then all else 0)
  else if i ≤ 15 then (if d.expert && bits d.pcls 0 3 == 5 then all else 0)
  else if i < 60 then all
  else if i < 64 then (if d.expert then all else 0)
  else if d.inl then (if i < d.inlineEnd then all else 0)
  else if i = 80 ∧ d.opc = oCreate ∧ d.expert then 0x3F
  else if d.fields.any (fun f => decide (f.1 ≤ i ∧ i < f.1 + f.2)) then all
  else 0

/-- Bytes of the header fields that keep their meaning in a diagnostic: OPC, PCLS, FLG, DEADLINE and SEED (R130); every bit of TAG is its own. -/
def diagHeader (i : Nat) : Bool := decide (i < 4 ∨ i = 14 ∨ i = 15 ∨ (60 ≤ i ∧ i < 64))

/-- Mask of the bits of byte `i` that are not reserved; the other bytes of a diagnostic are Balnil's own (R130). -/
def Desc.liveMask (d : Desc) (i : Nat) : Nat := if isDiag d.opc && !diagHeader i then 0xFF else d.headMask i

/-- Some reserved bit or byte is set (R136). -/
def Desc.reservedSet (d : Desc) : Bool := d.raw.zipIdx.any (fun p => p.1.toNat &&& (0xFF - d.liveMask p.2) != 0)

/-- Every reserved bit and byte taken as 0 (R136, LENIENT). -/
def Desc.cleaned (d : Desc) : Desc :=
  Desc.of (d.raw.zipIdx.map (fun p => BitVec.ofNat 8 (p.1.toNat &&& d.liveMask p.2)))

-- Structural limits (R135)

/-- Inline bag ends (R125). -/
def Desc.bagEnds (d : Desc) : List Nat := (List.range (min d.nbag 8)).map (fun b => bits d.offp (8 * b) 8)

def nondecreasing : List Nat → Bool
  | [] => true
  | [_] => true
  | a :: b :: rest => decide (a ≤ b) && nondecreasing (b :: rest)

def Desc.inlineOk (d : Desc) : Bool :=
  (d.isRead || d.isBack) && !d.project && d.idxp == 0 && d.wgtp == 0 &&
  decide (d.nidx ≤ (if d.weighted then (if d.idx32 then 24 else 16) else (if d.idx32 then 48 else 24))) &&
  (if d.bags then decide (1 ≤ d.nbag ∧ d.nbag ≤ 8) && decide (d.offp < 2 ^ (8 * d.nbag)) && nondecreasing d.bagEnds &&
      (d.bagEnds.getLast?.getD 0 == d.nidx)
   else d.offp == 0)

/-- Counts of R122. -/
def Desc.countsOk (d : Desc) : Bool :=
  if d.opc = oLookup ∨ d.opc = oScatter ∨ d.isRows then decide (d.nidx ≥ 1) && d.nbag == 0
  else if d.bags then decide (d.nbag ≥ 1)
  else d.nidx == 0 && d.nbag == 0

/-- Pointers: alignment, and none that the opcode does not use (R123, R153, R219, R227). -/
def Desc.pointersOk (d : Desc) : Bool :=
  (if d.isRead || d.isBack || (d.isRows && d.target == 0) then d.idxp % d.iw == 0 else d.idxp == 0) &&
  (if d.isRead && d.nidx == 0 then d.idxp == 0 else true) &&
  (if d.bags then d.inl || d.offp % 4 == 0 else d.offp == 0) &&
  (if d.weighted && !d.inl then d.wgtp % 4 == 0 else d.wgtp == 0) &&
  (if d.isRead || d.isBack || d.isRows || [oCreate, oCheckpoint, oRestore, oStats, oAttest, oLoopback].contains d.opc then
     d.dstp % (if d.opc == oPool && d.split then 128 else 16) == 0 && !(d.opc == oCreate && d.recipe == 0 && d.dstp != 0)
   else d.dstp == 0)

/-- RESUME is below the count it indexes (R141). -/
def Desc.resumeOk (d : Desc) : Bool :=
  if d.opc = oLookup ∨ d.isRows then decide (d.resume < d.nidx)
  else if d.opc = oPool then decide (d.resume < d.nbag)
  else if d.isGroup then decide (d.resume < d.ngroup)
  else d.resume == 0

/-- Operand values within the ranges of R132 and R133. -/
def Desc.operandsOk (d : Desc) : Bool :=
  if d.opc = oCreate then decide (1 ≤ d.rows ∧ d.rows ≤ 2 ^ 40) && decide (d.place ≤ 3)
  else if d.opc = oPublish then decide (d.init ≤ 1)
  else if d.isRows then
    decide (d.target ≤ (if d.opc = oRowsWrite then 2 else 1)) &&
    (if d.target = 0 then d.idxp == 0 || d.start == 0
     else if d.target = 1 then d.nidx == 1 && d.start == 0
     else d.start % 16 == 0)
  else if d.isGroup then
    decide (d.ngroup ≥ 1) && (d.opc != oMigrate || (decide (d.dblk < 32768) && decide (d.dtier ≤ 2)))
  else if d.opc = oFlush then decide (d.scope ≤ 2)
  else if d.opc = oStats then decide (d.sel ≤ 2)
  else if d.opc = oLoopback then
    -- 14 R532, R534
    decide (1 ≤ d.depth ∧ d.depth ≤ 9) && d.len % 64 == 0 && decide (64 ≤ d.len ∧ d.len ≤ 2 ^ 20) &&
    (if d.depth ≤ 2 then d.port == 0
     else if d.depth ≤ 6 then decide (d.port < 8)
     else
       let tier := d.port / 64
       decide (tier ≤ 2) && decide (d.port % 64 < (if tier = 2 then 32 else 64)) && (tier != 0 || d.depth == 7))
  else true

/-- Values of PCLS and RECIPE (R118, R121). -/
def Desc.valuesOk (d : Desc) : Bool := decide (bits d.pcls 0 3 ≤ 5) && (!d.isBack || decide (d.recipe ≤ 1))

/-- The fields and flags as they stand in the descriptor, reserved there or not, use no feature that the attach did not enable
(R136, R145). -/
def Desc.featuresOk (d : Desc) (minor : Nat) : Bool :=
  (decide (minor ≥ 1) || (bits d.pcls 0 3 != 5 && !bit d.flg 5)) && (decide (minor ≥ 2) || !d.inlRes)

/-- Everything of R135 but the last item. -/
def Desc.structureOk (d : Desc) : Bool :=
  if isDiag d.opc then d.resume == 0 && !d.inl
  else d.countsOk && d.pointersOk && d.resumeOk && d.operandsOk && (!d.inl || d.inlineOk)

-- Results (R116, 04 R184 to R190)

def osize (ofmt : Nat) : Nat := if ofmt = 15 then 4 else esize ofmt

/-- Units that a look-up writes, and the bytes of one (04 R184, R185). -/
def Desc.units (d : Desc) : Nat := if d.opc = oPool then d.nbag else d.nidx
def Desc.stride (d : Desc) (n : Nat) : Nat := padTo 16 (n * osize d.ofmt)

/-- Bytes of the degraded map (04 R186). -/
def Desc.mapBytes (d : Desc) : Nat := if d.degr && !d.split then padTo 16 ((d.units + 7) / 8) else 0

/-- Result bytes of a look-up whose vectors have `n` elements, in split mode the largest (04 R184 to R190). -/
def Desc.lookupBytes (d : Desc) (n : Nat) : Nat :=
  if d.opc = oPool ∧ d.split then padTo 128 (16 * d.nbag) + (d.nbag + d.nidx) * padTo 128 (n * 4)
  else d.units * d.stride n + d.mapBytes

/-- Result bytes of a command that can return them inline: `n` elements, stored row size `rs`, dimension `dim`. -/
def Desc.resultBytes (d : Desc) (n rs dim : Nat) : Nat :=
  if d.isRead then d.lookupBytes n
  else if d.opc = oRowsRead then (if d.target = 1 then 4 * dim else d.nidx * rs)
  else if d.opc = oStats then (if d.sel = 2 then 128 else 64)
  else 0

/-- The result is returned inline (R116; 04 R154: never in split mode). -/
def Desc.inlineFits (d : Desc) (n rs dim : Nat) : Bool := d.inlRes && d.inlOk && !(d.opc == oPool && d.split) && decide (d.resultBytes n rs dim ≤ 128)

-- Format agreement

/-- 04 R151, R152 without the projection table; R121 for OFMT. -/
def lookupFormatOk (d : Desc) (f : Fmt) : Bool :=
  (if d.opc = oLookup then d.pmode == 0 else d.mode != 0) &&
  (if f.intacc then d.ofmt == 15 && (d.opc == oLookup || d.mode == 1) && !d.split && !d.project else decide (d.ofmt ≤ 4)) &&
  (!(d.opc == oPool && d.split) || d.ofmt == 0)

/-- 04 R178. -/
def projectionOk (f pf : Fmt) (prows : Nat) : Bool :=
  decide (pf.code ≤ 4) && prows == f.dim && decide (f.dim ≤ 256) && decide (pf.dim ≤ 256)

/-- 06 R219. -/
def backFormatOk (d : Desc) (f : Fmt) : Bool :=
  f.code != 8 && !f.intacc && decide (d.ofmt ≤ 4) && (d.opc == oScatter || (d.mode != 0 && !d.project))

/-- A pointer that the command uses holds 0 (04 R153, 06 R219, 03 R116). -/
def Desc.nullPointer (d : Desc) (inlineResult : Bool) : Bool :=
  (d.isRead && !d.inl && decide (d.nidx ≥ 1) && d.idxp == 0) || (d.isBack && !d.inl && d.idxp == 0) ||
  (d.bags && !d.inl && d.offp == 0) || (d.weighted && !d.inl && d.wgtp == 0) ||
  ((d.isRead || d.isRows || [oStats].contains d.opc) && !inlineResult && d.dstp == 0) ||
  ((d.isBack || [oCheckpoint, oRestore, oAttest, oLoopback].contains d.opc) && d.dstp == 0)

/-- Binding of a VER field (02 R55). -/
def bindVer (r : TableRec) (v : Nat) : Option Nat :=
  if v = 0 then (if r.curVer = 0 then none else some r.curVer)
  else if v = r.curVer ∨ v = r.pubVer then some v else none

end Sys2Proof.Machine
end

