-- ==== Sys2Proof/Machine/Admit.lean ====
section
/-! DEFINITION. Narrows (10): admission speed, resources and charges, placement summary, path, test, classes and refusals. -/

namespace Sys2Proof.Machine

-- Speed (R380, R381, R389)

/-- Nominal rate at 85 °C in M handshakes/s, as numerator over 100. -/
def rate85 (mv : Nat) : Nat :=
  let v := min (max mv 550) 900
  let seg := fun (v0 r0 v1 r1 : Nat) => r0 * 100 + (v - v0) * (r1 - r0) * 100 / (v1 - v0)
  if v ≤ 650 then seg 550 450 650 800
  else if v ≤ 750 then seg 650 800 750 1100
  else if v ≤ 850 then seg 750 1100 850 1350
  else seg 850 1350 900 1450

/-- Nominal rate at a voltage and temperature, in units of 1 / 600,000 M handshakes/s. -/
def nominalRate (mv t : Nat) : Nat := rate85 mv * (6680 - 8 * min (max t 25) 105)

/-- s_adm in M handshakes/s (R389) for a bound up to 100 µs, or a longer one. -/
def State.sadm (s : State) (long : Bool) : Nat :=
  let si := s.fld PW_SPEED 0 16
  let vf := s.fld PW_SPEED 16 16
  let vfp := s.fld PW_SPEED 32 16
  let v := if long then 550 else if vfp = 0 then vf else min vf vfp
  let t := s.fld PW_TEMP 0 8
  let tadm := if long then 105 else min 105 (t + s.fld NW_CFG 0 8)
  let den := nominalRate (s.fld PW_VDD 0 16) t
  if den = 0 then 0 else si * nominalRate v tadm * 31 / (den * 32)

/-- PW_SPEED shows t_adm (R389, R403): it follows each reading of the logic temperature and each decision. -/
def State.showTadm (s : State) : State := s.setFld PW_SPEED 48 8 (min 105 (s.fld PW_TEMP 0 8 + s.fld NW_CFG 0 8))

-- Resources (R391)

def resFront : Nat := 0
def resSort (h : Nat) : Nat := 1 + h
def resRow (h : Nat) : Nat := 5 + h
def resPool (h : Nat) : Nat := 9 + h
def resAdder (t : Nat) : Nat := 13 + t
def resSRead : Nat := 16
def resSWrite : Nat := 17
def resF : Nat := 18
def resC : Nat := 19
def resHostIn : Nat := 20
def resHostOut : Nat := 21
def resFabric : Nat := 22

/-- Read and write resources of a tier. -/
def resTierR (t : Nat) : Nat := if t = 0 then resSRead else if t = 1 then resF else resC
def resTierW (t : Nat) : Nat := if t = 0 then resSWrite else if t = 1 then resF else resC
/-- The tier of a tier resource. -/
def tierOf (r : Nat) : Option Nat := if r = 16 ∨ r = 17 then some 0 else if r = 18 then some 1 else if r = 19 then some 2 else none

/-- The part of a rated bandwidth that doubled refresh leaves, in per mille: the losses are 2 %, 3.5 % and 6 % (08 R316, R322). -/
def State.refreshLeaves (s : State) (tier : Nat) : Nat × Nat :=
  if tier = 0 then (if s.flag MS_STATUS 4 then (960, 980) else (1, 1))
  else if tier = 1 then (if s.flag MF_STATUS 10 then (930, 965) else (1, 1))
  else if s.flag MC_CHAN_MAP 38 then (880, 940) else (1, 1)

/-- Capacity per ns of a resource at s_adm, before shares: numerator and denominator. -/
def State.rawCap (s : State) (sadm r : Nat) : Nat × Nat :=
  if r = resFront then (4, 10)
  else if r < 5 then (if s.holmOnline (r - 1) then (2 * sadm, 1100) else (0, 1))
  else if r < 9 then (if s.holmOnline (r - 5) then (64 * sadm, 1000) else (0, 1))
  else if r < 13 then (if s.holmOnline (r - 9) then (131072 * sadm, 1000) else (0, 1))
  else if r < 16 then (16 * sadm, 1000)
  else if r < 20 then
    let t := r - 17
    let x := s.refreshLeaves t
    if r < 18 then (s.reg (MT_RATED 0) * min sadm 565 * x.1, 2 * 565 * x.2) else (s.reg (MT_RATED t) * x.1, x.2)
  else if r < 22 then (100, 1)
  else (48 * ((upTo 8).filter s.linkUp).length, 1)

/-- The floor of a partition in effect, per mille (08 R319). -/
def State.floorOf (s : State) (t p : Nat) : Nat := (lookupBy (t * 16 + p) s.spine.floors).getD 0

/-- The local capacity (R392): 3 % of background off, and the remote share off every resource but tier bandwidth. -/
def State.localCap (s : State) (sadm r : Nat) : Nat × Nat :=
  let c := s.rawCap sadm r
  (c.1 * (970 - (if (tierOf r).isSome then 0 else s.fld NW_CFG 8 10)), c.2 * 1000)

/-- What a partition can use of a tier resource: its floor and the bandwidth that no other floor holds, up to its cap
(08 R318). -/
def State.partCap (s : State) (sadm r t p : Nat) : Nat × Nat :=
  let c := s.rawCap sadm r
  let floor := s.floorOf t p
  let others := sumOf (((upTo 16).filter (fun q => q != p)).map (s.floorOf t))
  (c.1 * min (max (s.fld (MT_REG t p) 10 10) floor) (970 - others), c.2 * 1000)

-- The placement summary (R394)

/-- Owner blocks and the slowest tier of each. -/
def State.summary (s : State) (r : TableRec) (v : Version) : List (Nat × Nat) :=
  let add := fun (m : List (Nat × Nat)) (b t : Nat) => insertBy b (max t ((lookupBy b m).getD 0)) m
  let assigned := fun (g : Nat) => (r.owners[g % max r.owners.length 1]?).getD s.id
  let es := (List.range r.ngroups).map (fun g => (g, s.pentry v.pmap g))
  let m := es.foldl (fun m p =>
    if p.2.state = 0 ∨ p.2.state ≥ 5 then add m (assigned p.1) r.otier
    else if p.2.state ≥ 3 then m
    else add m p.2.owner (min p.2.tier 2)) []
  let slow := maxOf (m.map (fun p => p.2))
  let slow := if m.isEmpty then r.otier else slow
  es.foldl (fun m p => if p.2.state = 3 ∨ p.2.state = 4 then add m p.2.owner slow else m) m

-- What admission knows about a command

/-- Facts about a command at its acceptance. -/
structure Facts where
  d : Desc
  ring : Nat
  /-- The table's record is held, where the command needs one. -/
  known : Bool
  /-- No status is decided yet. -/
  live : Bool
  f : Fmt
  /-- Owner blocks and slowest tiers of the bound version, and of the current and published versions. -/
  sum : List (Nat × Nat)
  others : List (List (Nat × Nat))
  psum : List (Nat × Nat)
  /-- Dimension and stored size of the projection table. -/
  pdim : Nat
  psize : Nat
  pub : Nat
  recipe : Nat
  ordered : Bool
  moving : Bool
  inl : Bool
  outBytes : Nat
  order : List Nat
  /-- Tiers of this block in which it touches row groups. -/
  tiers : List Nat
  deriving DecidableEq, Repr

/-- Lists at a remote requester (03 R150). -/
def State.listsAway (s : State) (x : Facts) : Bool :=
  let g := s.ptrGlobal x.ring
  let away := fun (a : Nat) => a != 0 && g && gBlock a != s.id
  !x.d.inl && (away x.d.idxp || (x.d.bags && away x.d.offp) || away x.d.wgtp)

/-- Lists inline or in host memory behind the home block (04 R160). A VIRTUAL pointer counts as such, whatever its page maps (DESIGN CHOICE,
log 108). -/
def State.listsHome (s : State) (x : Facts) : Bool :=
  let ok := fun (a : Nat) => a == 0 || !s.ptrGlobal x.ring || (gBlock a == s.id && gTier a == 3)
  x.d.inl || (ok x.d.idxp && (!x.d.bags || ok x.d.offp) && ok x.d.wgtp)

def Facts.remote (x : Facts) (id : Nat) : Bool := (x.sum ++ x.psum).any (fun p => p.1 != id)

/-- The command makes a carried-add hop (R395). -/
def Facts.carryHop (x : Facts) (id : Nat) : Bool :=
  x.d.isBack && x.pub != 0 && x.others.any (fun m => m.any (fun p => p.1 != id))

/-- Fabric hops of a command (R395). -/
def State.hops (s : State) (x : Facts) : Nat :=
  if !x.live then 0
  else
    let far := x.remote s.id
    b2n (!x.known) +
    (if x.d.isRead || x.d.isBack || x.d.isRows || x.d.isGroup || x.d.opc == oCommit then
      b2n far + b2n (s.listsAway x) + b2n (x.carryHop s.id) + b2n (x.d.isBack && x.ordered && far)
     else if x.d.opc = oCreate ∨ x.d.opc = oDestroy then (if s.registryList.length > 1 then 2 else 0)
     else if x.d.opc = oPublish ∨ x.d.opc = oSwitch then (if s.registryList.length > 1 then 3 else 0)
     else 0)

/-- Slowest tier charged. -/
def Facts.tier (x : Facts) : Nat := maxOf ((x.sum ++ x.psum).map (fun p => p.2))

/-- A repair of Tier F or Tier C is pending, or a slice of M2 or M3, which counts as one (08 R313, 14 R536). -/
def State.repairPending (s : State) (tier : Nat) : Bool :=
  s.spine.repairs.any (fun r => r.1 == tier) || s.fab.lb.any (fun b => b.stage == 3 && b.port / 64 == tier)

/-- A Tier F or Tier C repair is pending in a tier that the command touches (08 R313). -/
def State.repairHolds (s : State) (x : Facts) : Bool :=
  (x.tiers.contains 1 && s.repairPending 1) || (x.tiers.contains 2 && s.repairPending 2)

/-- A class covers a command (R395, R396). -/
def State.covers (s : State) (x : Facts) (cls : Nat) : Bool :=
  let d := x.d
  let home := x.known && !x.remote s.id && s.listsHome x && !x.moving && !s.repairHolds x
  if cls = 4 then true
  else if cls = 5 then d.isRead || d.isBack || d.isRows
  else if d.opc = oNop ∨ d.opc = oStats then x.known
  else if d.isRead || d.isBack then
    if cls = 1 then
      home && decide (d.nidx ≤ 64 ∧ x.f.dim ≤ 256) && !d.project && !(d.isBack && x.carryHop s.id)
    else if cls = 2 then home && decide (d.nidx ≤ 1024) && !(d.isBack && x.carryHop s.id)
    else x.known && decide (s.hops x ≤ 1 ∧ d.nidx ≤ 16384) &&
      (!(d.opc == oPool && x.remote s.id) || decide (d.nidx ≤ 1024)) && (!d.isBack || x.pub == 0)
  else if d.isRows then
    if cls = 1 then false
    else if cls = 2 then home && decide (d.nidx ≤ 1024)
    else x.known && decide (s.hops x ≤ 1)
  else false

-- Charges (R393)

/-- COMPENSATED halves every rate of the Pooling Array (04 R168). -/
def compFactor (comp : Bool) : Nat := if comp then 2 else 1

/-- Multiply-accumulates of one position, in FP8 units: an element step of a slower format counts more (04 R168). -/
def macUnits (f : Fmt) (comp : Bool) : Nat :=
  let rate := fun (c : Nat) => if c = 0 then 8 else if c ≤ 2 then 2 else 1
  compFactor comp *
  (if f.intacc then f.dim
   else if f.code ≤ 4 then f.dim * rate f.code
   else if f.code = 5 ∨ f.code = 6 then f.dim * 8
   else if f.code = 9 then f.count * f.dim * max (rate f.efmt) (rate f.mfmt) + f.dim * 8
   else f.count * f.dim * rate f.efmt + f.dim * 8)

/-- Multiply-accumulates of the projection, in the same units (04 R168, R179). -/
def Facts.projUnits (x : Facts) : Nat := if x.d.project then x.d.nbag * x.f.dim * x.pdim * 2 * compFactor x.d.comp else 0

/-- Sectors that a row of `n` bytes touches at most. Stored rows lie at multiples of `n` from a 1 KiB boundary (02 R68, 04 R158). -/
def sectorsMost (n : Nat) : Nat := if n = 0 then 0 else (64 - Nat.gcd n 64 + n - 1) / 64 + 1

/-- Bytes of tier traffic of one row at most, its Tier C check transfers included (08 R317). -/
def rowTraffic (tier n : Nat) : Nat :=
  64 * (sectorsMost n + (if tier = 2 ∧ n ≠ 0 then (512 - Nat.gcd n 512 + n - 1) / 512 + 1 else 0))

/-- Charged work: resource and amount. -/
def State.workOf (s : State) (x : Facts) : List (Nat × Nat) :=
  let d := x.d
  let home := (x.order[0]?).getD 0
  let m := max x.order.length 1
  let front := [(resFront, 1)]
  if !x.live then front
  else if d.isRead || d.isBack || d.isRows then
    let n := d.nidx
    let sec := sectorsMost x.f.size
    let pmax := if d.bags then d.nbag + n / 1024 else (n + 1023) / 1024
    let per := min n (ceilDiv pmax m * 1024)
    let t := maxOf (x.sum.map (fun p => p.2))
    let row := rowTraffic t x.f.size
    let acc := rowTraffic t 4
    let far := (x.sum.filter (fun p => p.1 != s.id)).length
    let lists := if d.inl then 0 else n * d.iw + (if d.bags then (d.nbag + 1) * 4 else 0) + (if d.weighted then 4 * n else 0)
    let grads := if d.opc = oScatter then n * padTo 16 (x.f.dim * osize d.ofmt)
                 else if d.opc = oBackward then d.nbag * padTo 16 (x.f.dim * osize d.ofmt)
                 else if d.opc = oRowsWrite then n * x.f.size else 0
    let holm := (x.order.map (fun h => [(resRow h, per * sec), (resPool h, per * macUnits x.f d.comp)])).flatten
    let proj := if d.project then [(resPool home, x.projUnits), (resTierR (maxOf (x.psum.map (fun p => p.2))), x.f.dim * rowTraffic (maxOf (x.psum.map (fun p => p.2))) x.psize)] else []
    let add := if d.isBack then
        [(resAdder t, 2 * n * sec), (resTierW t, n * (row + (if x.recipe = 3 then acc else 0)))] ++
        (if x.recipe = 3 then [(resTierR t, n * acc)] else [])
      else if d.opc = oRowsWrite then [(resTierW t, n * row)] else []
    let fab := if far = 0 then [] else [(resFabric, n * 8 + (if d.weighted then 4 * n else 0) + far * 48)]
    front ++ [(resSort home, n)] ++ holm ++ [(resTierR t, n * row), (resHostIn, lists + grads), (resHostOut, x.outBytes + 64)] ++
      proj ++ add ++ fab
  else front ++ [(resHostOut, x.outBytes + 64)]

/-- The work of one resource. -/
def workOn (w : List (Nat × Nat)) (r : Nat) : Nat := sumOf ((w.filter (fun p => p.1 == r)).map (fun p => p.2))

-- The path (R397)

/-- A term scaled by 1.1 / s_adm, up to a whole ns. -/
def scaledNs (sadm x10 : Nat) : Nat := ceilDiv (x10 * 1100) (sadm * 10)

/-- Work over a capacity, up to a whole ns; without capacity it never ends, which is past every bound. -/
def timeNs (work : Nat) (cap : Nat × Nat) : Nat := if work = 0 then 0 else if cap.1 = 0 then 2 ^ 40 else ceilDiv (work * cap.2) cap.1

/-- The finishing reserve in ns; partials of remote owners are combined for a LOOKUP_POOL with rows there (04 R183). -/
def State.finish_ (s : State) (x : Facts) (sadm : Nat) : Nat :=
  scaledNs sadm 1500 + (if x.d.opc = oPool ∧ x.sum.any (fun p => p.1 != s.id) then scaledNs sadm 1000 else 0) +
  timeNs x.projUnits (s.localCap sadm (resPool ((x.order[0]?).getD 0))) + ceilDiv x.outBytes 100

/-- First access to the slowest tier charged. -/
def State.accessNs (s : State) (t : Nat) : Nat :=
  if t = 0 then 78 else (if t = 1 then 388 else 355) + s.fld MT_CFG 12 10

/-- The largest of work over local capacity. -/
def State.streamNs (s : State) (w : List (Nat × Nat)) (sadm : Nat) : Nat :=
  maxOf (w.map (fun p =>
    if p.1 = resFront ∨ (resSort 0 ≤ p.1 ∧ p.1 < resRow 0) then 0
    else timeNs (workOn w p.1) (s.localCap sadm p.1)))

/-- The work deadline of a promised command, in ps (R398). -/
def Cmd.deadline (c : Cmd) : Nat := c.ref + (c.bound - c.fin) * ns

/-- Commands accepted on a ring before this one, and the fence among them (03 R129). -/
def State.fenceStart (s : State) (ring ref : Nat) : Nat :=
  let mine := s.cmds.filter (fun c => c.ring == ring)
  match (mine.reverse.dropWhile (fun c => leAt c.desc 0 1 != oFence)) with
  | [] => 0
  | l => ceilDiv (maxOf (l.map Cmd.deadline) - ref) ns

/-- The path of a command in ns (R397). -/
def State.path (s : State) (x : Facts) (ref sadm : Nat) : Nat :=
  let d := x.d
  let w := s.workOf x
  let rows := x.live && (d.isRead || d.isBack || d.isRows)
  s.fenceStart x.ring ref + scaledNs sadm 800 +
  (if rows then scaledNs sadm (400 + 5 * d.nidx) + 90 + s.accessNs x.tier else 0) +
  s.streamNs w sadm + s.hops x * s.fld NW_CFG 18 16 + s.finish_ x sadm

-- The test (R399, R400)

/-- Work on a resource that is due by an instant, with the candidate's own. -/
def dueBy (r mine t : Nat) (ps : List Cmd) : Nat :=
  mine + sumOf ((ps.filter (fun c => decide (c.deadline ≤ t))).map (fun c => workOn c.work r))

/-- How one resource fails the test: none when it passes; else the deadline from which the failing instant may pass, which is none for a
resource without capacity. Every deadline up to the failing instant meets the same demand there or more. -/
def State.firstLate (s : State) (cap : Nat × Nat) (r mine d : Nat) (ps : List Cmd) : Option (Option Nat) :=
  let late := (d :: ((ps.filter (fun c => decide (c.deadline ≥ d) && decide (workOn c.work r > 0))).map Cmd.deadline)).find? (fun t =>
    !decide (dueBy r mine t ps * cap.2 * ns ≤ cap.1 * (t - s.ctl.now)))
  late.map (fun t => if cap.1 = 0 then none else some (max (t + 1) (s.ctl.now + ceilDiv (dueBy r mine t ps * cap.2 * ns) cap.1)))

/-- test(c, b) without its speed part: how some resource lacks capacity. The bar of a partition with CAP 0 is judged apart (R401). -/
def State.loadFails (s : State) (x : Facts) (w : List (Nat × Nat)) (sadm d : Nat) : Option (Option Nat) :=
  let p := s.ringPart x.ring
  (sortUnique (w.map (fun y => y.1))).findSome? (fun r =>
    let mine := workOn w r
    if mine = 0 then none
    else
      match s.firstLate (s.localCap sadm r) r mine d s.cmds with
      | some t => some t
      | none =>
        match tierOf r with
        | none => none
        | some tier => if s.fld (MT_REG tier p) 10 10 = 0 then none else
            s.firstLate (s.partCap sadm r tier p) r mine d (s.cmds.filter (fun c => s.ringPart c.ring == p)))

/-- The outcome of test. -/
inductive TestRes where
  | ok | speed | load
  deriving DecidableEq, Repr

/-- test(c, b), b in ns. -/
def State.test (s : State) (x : Facts) (ref b : Nat) : TestRes :=
  let sadm := s.sadm (decide (b > 100000))
  if sadm = 0 ∨ s.path x ref sadm > b then .speed
  else if (s.loadFails x (s.workOf x) sadm (ref + (b - s.finish_ x sadm) * ns)).isSome then .load else .ok

/-- The P3 bound (R400): from a candidate, the smallest multiple of 1,000 ns that test passes, with a need in place of the path where one is
given. A failure rules out every bound whose deadline lies before the one that it names, so each step goes on past a promised deadline of
some resource or past the path: the fuel of `p3` is never used up. -/
def State.p3From (s : State) (x : Facts) (ref : Nat) (need : Option Nat) : Nat → Nat → Option Nat
  | 0, _ => none
  | fuel + 1, b =>
    let sadm := s.sadm (decide (b > 100000))
    let path := need.getD (s.path x ref sadm)
    if b > 0xFFFFFFFF ∨ sadm = 0 then none
    else if path > b then s.p3From x ref need fuel (ceilDiv path 1000 * 1000)
    else
      let fin := s.finish_ x sadm
      match s.loadFails x (s.workOf x) sadm (ref + (b - fin) * ns) with
      | none => some b
      | some none => none
      | some (some t) => s.p3From x ref need fuel (max (b + 1000) (ceilDiv (ceilDiv (t - ref) ns + fin) 1000 * 1000))

/-- The P3 bound of a command, or of a FENCE from its need (R396). -/
def State.p3 (s : State) (x : Facts) (ref : Nat) (need : Option Nat) : Option Nat :=
  s.p3From x ref need (128 * (s.cmds.length + 2)) 1000

-- Completion slots (03 R114)

/-- Slots that a record of `k` slots takes from the reservation index, filler run included; none when it does not fit. -/
def State.cqFit (s : State) (ring k : Nat) : Option Nat :=
  let r := s.ring ring
  let c := 2 ^ s.cqLog ring
  let used := (r.cqRsv + 2 * c - r.cqHead) % (2 * c)
  let pos := r.cqRsv % c
  let total := if pos + k > c then c - pos + k else k
  if used + total ≤ c then some total else none

-- Journal space (06 R249)

def journalNeed (f : Fmt) (n : Nat) : Nat := n * (64 + (4 * f.nel + 63) / 64 * 64)
def jentryBytes (j : JEntry) : Nat := 64 + (4 * j.val.length + 63) / 64 * 64

/-- Bytes reserved by commands, and those of entries that no reservation covers. -/
def State.journalUsed (s : State) : Nat :=
  sumOf (s.cmds.map (fun c => c.jrsv)) +
  sumOf ((s.tab.journal.filter (fun j => !(s.cmds.any (fun c => c.handle == j.handle && c.jrsv != 0 && j.origin == s.id)))).map jentryBytes)

/-- MT_JOURNAL_USED follows. -/
def State.syncJournal (s : State) : State := s.setFld MT_JOURNAL_USED 0 32 (min s.journalUsed 0xFFFFFFFF)

/-- The decision: a refusal reason, or class, bound and finishing reserve in ns, and journal bytes. -/
inductive Decision where
  | refuse (reason : Nat)
  | grant (cls bound fin jrsv : Nat)
  deriving DecidableEq, Repr

/-- Bound of a fixed class. -/
def classBound (d : Desc) (cls : Nat) : Nat :=
  if cls = 1 then 1000 else if cls = 2 then 4000 else if cls = 3 then 12000 else d.deadline * 100

/-- The latest work deadline of the commands ahead of a FENCE, plus 100 ns, from its reference instant (R396). -/
def State.fenceNeed (s : State) (ring ref : Nat) : Nat :=
  ceilDiv (maxOf ((s.cmds.filter (fun c => c.ring == ring)).map Cmd.deadline) - ref) ns + 100

/-- ATTEST is refused while eight are queued, or while the security core is halted or in its error state (13 R496, R498). -/
def State.attestBarred (s : State) (d : Desc) : Bool :=
  d.opc == oAttest && (decide ((s.cmds.filter (fun c => leAt c.desc 0 1 == oAttest && c.phase != .done)).length ≥ 8) ||
    s.flag SE_STATUS 2 || s.flag SE_STATUS 3)

/-- Grant or refuse (R401), the reasons in the order of 03 R110. `slots` is what the record can take. -/
def State.decide_ (s : State) (x : Facts) (ref slots : Nat) (evict : Bool) : Decision :=
  let d := x.d
  let fence := d.opc == oFence
  let need := s.fenceNeed x.ring ref
  let covers := fun (c : Nat) => if fence then c == 4 || (decide (c ≤ 3) && decide (need ≤ classBound d c)) else s.covers x c
  let pcls := bits d.pcls 0 3
  let pcls := if pcls > 5 then 0 else pcls
  let sadm := s.sadm false
  let fin := fun (b : Nat) => s.finish_ x (s.sadm (decide (b > 100000)))
  let dead := pcls == 5
  let badDeadline := dead && (d.deadline == 0 || (sadm != 0 && s.test x ref (d.deadline * 100) == .speed))
  let full := (s.cqFit x.ring slots).isNone
  let barred := x.live && x.tiers.any (fun t => s.fld (MT_REG t (s.ringPart x.ring)) 10 10 == 0)
  let p3 := s.p3 x ref (if fence then some need else none)
  let jn := if x.live && d.isBack then journalNeed x.f d.nidx else 0
  let jfits := decide (s.journalUsed + jn ≤ s.fld MT_JOURNAL_SIZE 0 32)
  let finishUp := fun (cls b : Nat) =>
    let j := if cls ≤ 2 then 0 else jn
    -- no P3 while the scheduler core restarts (13 R506)
    if evict ∨ barred ∨ s.attestBarred d ∨ (j ≠ 0 ∧ !jfits) ∨ (cls = 4 ∧ s.fld (CC_CORE 2) 2 2 ≠ 0) then Decision.refuse rLoad
    else .grant cls b (fin b) j
  if !s.valid && !([oNop, oStats, oAttest, oLoopback].contains d.opc) then .refuse rNotValid
  else if pcls ≠ 0 ∧ !covers pcls then .refuse rClass
  else if badDeadline then .refuse rDeadline
  else
    let stop := s.flag NW_STATUS 16 || sadm == 0
    let auto := [1, 2, 3].find? (fun c => covers c && s.test x ref (classBound d c) == .ok)
    let toP3 := pcls == 4 || (pcls == 0 && auto.isNone)
    -- before the first canary window every command is refused with SPEED (R404)
    if toP3 && sadm != 0 && p3.isNone then .refuse rTooLarge
    else if full then .refuse rCqFull
    else if stop then .refuse rSpeed
    else if toP3 then finishUp 4 (p3.getD 0)
    else if pcls = 0 then finishUp (auto.getD 1) (classBound d (auto.getD 1))
    else
      match s.test x ref (classBound d pcls) with
      | .ok => finishUp pcls (classBound d pcls)
      | .speed => .refuse rSpeed
      | .load => .refuse rLoad

end Sys2Proof.Machine
end

