-- ==== Sys2Proof/Machine/RingOps.lean ====
section
/-! DEFINITION. Rings (03): access to their structures, doorbells, checks at acceptance, acceptance and completion records,
notifications, attach, detach and the faulted ring. -/

namespace Sys2Proof.Machine

-- Ring structures

/-- Where an access to a ring structure leads: by the ring map in VIRTUAL mode (11 R421), by the windows in GLOBAL mode. -/
def State.ringReach (s : State) (n a len : Nat) (write : Bool) : State × Reach :=
  if s.ptrGlobal n then s.reachGlobal (s.ringCtx n) a len write
  else
    match (s.ring n).map.find? (fun e => e.1 == a / 4096 && e.2.2 == write) with
    | none => (s, .stop sTransFault)
    | some e =>
      if gTier e.2.1 = 3 then s.reachHost (gOff e.2.1 + a % 4096)
      else s.reachTier (gTier e.2.1) (gOff e.2.1 + a % 4096)

/-- A ring gives up the slots that it has not answered: doorbells, held slots and the reads of others. -/
def State.dropSlots (s : State) (n : Nat) : State :=
  (s.upRing n (fun r => { r with slots := [], bells := [] })).upFab (fun f => { f with
    xchg := f.xchg.filter (fun x => match x.kind with
      | .slotRead m _ => m != n
      | _ => true) })

/-- The ring becomes FAULTED: commands not begun are aborted, and no record is written any more (03 R146). -/
def State.faultRing (s : State) (n : Nat) : State :=
  if s.ringState n = 1 ∨ s.ringState n = 2 then
    let s := ((s.setRingState n 3).upRing n (fun r => { r with broken := true })).dropSlots n
    s.upCmds (·.filter (fun c => !(c.ring == n && c.phase == .accepted)))
  else s

/-- A write to a structure of a ring; a denied one faults the ring, one that waits for the host path leaves everything as it is. The flag
says whether it was written. -/
def State.ringPut (s : State) (n a : Nat) (bs : List Byte) : State × Bool :=
  let r := s.ringReach n a bs.length true
  match r.2 with
  | .here 3 off => (r.1.hostRecord (r.1.ringCtx n) off bs (some n) noHandle.toNat, true)
  | .here t off => (r.1.putRecord (memKey t off) bs, true)
  | .away g => (r.1.memWriteTo g (r.1.ringCtx n) 1 noHandle.toNat (.ringWrite n) bs, true)
  | .held => (r.1, false)
  | _ => (r.1.faultRing n, false)

/-- A write to a structure of a ring waits for the host path (15 R551, 14 R535); nothing waits on a ring whose records are discarded. -/
def State.ringHeld (s : State) (n a : Nat) : Bool := !(s.ring n).broken && (s.ringReach n a 4 true).2 == .held

/-- A ring that is DETACHING with no command left is DETACHED (03 R146). -/
def State.settleRing (s : State) (n : Nat) : State :=
  if s.ringState n = 2 ∧ !(s.cmds.any (fun c => c.ring == n)) then s.setRingState n 0 else s

-- Doorbells (03 R101, R115)

/-- The tail that a TAIL write names is taken. -/
def State.tailOk (s : State) (n v : Nat) : Bool :=
  let k := s.sqLog n
  let m := 2 ^ (k + 1)
  let r := s.ring n
  let ahead := (v + m - r.head) % m
  decide (v < m) && decide (ahead ≤ 2 ^ k) && decide ((r.tail + m - r.head) % m ≤ ahead)

/-- A TAIL write to the page of a local ring. -/
def State.tailWrite (s : State) (n v : Nat) : State :=
  if s.ringState n = 1 ∧ !s.remoteRing n ∧ s.tailOk n v then
    s.upRing n (fun r => if r.tail = v then r else { r with tail := v, bells := r.bells ++ [(v, s.ctl.now)] })
  else s.dbErr n

/-- A CQ_HEAD write. -/
def State.cqHeadWrite (s : State) (n v : Nat) : State :=
  let m := 2 ^ (s.cqLog n + 1)
  let r := s.ring n
  if (s.ringState n = 1 ∨ s.ringState n = 2) ∧ v < m ∧ (v + m - r.cqHead) % m ≤ (r.cqTail + m - r.cqHead) % m then
    s.upRing n (fun r => { r with cqHead := v })
  else s.dbErr n

-- Checks at acceptance (03 R137)

/-- The structural limits of FLUSH_CACHE (07 R290). -/
def State.flushOk (s : State) (d : Desc) : Bool :=
  d.opc != oFlush ||
  ((d.scope == 1 || d.tbl == 0) &&
   (if d.scope = 2 then
      gBlock d.rbase == s.id && decide (gTier d.rbase ≤ 3) && decide (1 ≤ d.rlen) && s.addressOk d.rbase d.rlen
    else d.op 72 8 == 0 && d.op 80 8 == 0))

/-- Checks 1 and 2: the status, and the descriptor with reserved bits taken as 0 where the ring is lenient. -/
def State.firstChecks (s : State) (n : Nat) (d : Desc) : Nat × Desc :=
  let known := knownOpc d.opc || (isDiag d.opc && n == 63 && s.flag (RF_CFG 63) 36)
  if !known then (sIllegal, d)
  else if (d.reservedSet && !s.flag (RF_CFG n) 11) || !d.featuresOk (s.ring n).minor || !s.flushOk d then (sReserved, d)
  else
    let d := d.cleaned
    if d.valuesOk && d.structureOk then (sOk, d) else (sReserved, d)

/-- Bytes of a checkpoint image (12 R475, R476). -/
def sectionBytes (f : Fmt) (recipe : Nat) : Nat := 64 + groupBytes f recipe
def imageBytes (f : Fmt) (recipe ngroup : Nat) : Nat := 64 + padTo 64 f.auxSize + ngroup * sectionBytes f recipe

/-- A reserved identifier (02 R48). -/
def badTblId (t : Nat) : Bool := t == 0 || t == 0xFFFFFF

/-- This block is in the table's holder set (12 R449): the record that a coordinator or a mirror keeps in its registry entry alone
(12 R447) is not one that its commands have. -/
def State.holds (s : State) (t : Nat) : Bool :=
  (s.rec? t).isSome && ((s.tab.registry.find? (fun e => e.tbl == t)).map (fun e => e.holders.contains s.id)).getD true

/-- Tables that the command names and whose records are not held here. -/
def State.missing (s : State) (d : Desc) : List Nat :=
  (if d.needsTable then [d.tbl] else []) ++ (if d.opc = oPool ∧ d.project then [d.ptbl] else []) |>.filter (fun t =>
    !badTblId t && !s.holds t)

/-- The structural checks that need the record: the inline result, the image size and the auxiliary range (03 R116, R135,
12 R476). -/
def State.lateStructure (s : State) (d : Desc) (r : TableRec) : Bool :=
  let f := s.tblFmt r.tbl
  let n := if d.opc = oPool ∧ d.project then (s.tblFmt d.ptbl).dim else f.dim
  (!(d.inlRes && d.inlOk) || d.dstp != 0 || d.inlineFits n f.size f.dim) &&
  (!(d.opc == oCheckpoint || d.opc == oRestore) || decide (d.imglen ≥ imageBytes f r.recipe d.ngroup)) &&
  (!(d.isRows && d.target == 2) || decide (d.start + d.nidx ≤ f.auxSize))

/-- A table that a TABLE_DESTROY among earlier commands is going to destroy, or has destroyed with its record still to be written, or that its
coordinator is destroying (02 R92, R93). -/
def State.doomed (s : State) (earlier : List Cmd) (t : Nat) : Bool :=
  (s.rec? t).any (fun r => r.dying) ||
  earlier.any (fun c => leAt c.desc 0 1 == oDestroy && leAt c.desc 8 3 == t && c.status == sOk)

/-- Check 3 for a table of the command. -/
def badTable (d : Desc) (r : TableRec) : Bool :=
  (d.isRows && d.target == 1 && !r.dfltStored) ||
  (d.isRows && d.target == 0 && d.idxp == 0 && decide (d.start + d.nidx > r.rows)) ||
  (d.isRows && d.target == 2 && (bindVer r d.ver == some r.curVer)) ||
  (d.isGroup && decide (d.group + d.ngroup > r.ngroups))

/-- The context check of 02 R52. -/
def ctxDenied (r : TableRec) (ctx : Nat) (read : Bool) : Bool := r.ctx != ctx && !(read && r.readAny)

/-- A command whose VER is bound under R55. -/
def Desc.binds (d : Desc) : Bool := d.isRead || d.isBack || d.isRows || d.isGroup

/-- Checks 2 (its record-dependent part) to 7 at the home block: status, bound version, bound projection version. A PUBLISH or SWITCH that is
queued behind another operation of its table meets R54 and R71 when its turn comes (12 R458). -/
def State.tableChecks (s : State) (n : Nat) (d : Desc) (earlier : List Cmd) (queued : Bool) : Nat × Nat × Nat :=
  if d.opc = oCreate then
    -- its other checks are the coordinator's (02 R49, 12 R449)
    (if badTblId d.tbl || s.doomed earlier d.tbl then sBadTable else sOk, 0, 0)
  else if !d.needsTable then
    (if d.nullPointer (d.inlineFits 0 0 0) then sTransFault else sOk, 0, 0)
  else
    let proj := d.opc == oPool && d.project
    if badTblId d.tbl || (proj && badTblId d.ptbl) then (sBadTable, 0, 0)
    else
      match s.rec? d.tbl with
      | none => (sBadTable, 0, 0)
      | some r =>
        let pr := if proj then s.rec? d.ptbl else some r
        match pr with
        | none => (sBadTable, 0, 0)
        | some p =>
          let f := s.tblFmt d.tbl
          let pf := s.tblFmt d.ptbl
          let read := d.isRead || d.opc == oRowsRead
          let ctx := s.ringCtx n
          let v := bindVer r d.ver
          let pv := if proj then bindVer p d.pver else some 0
          let fits := d.inlineFits (if proj then pf.dim else f.dim) f.size f.dim
          -- without a coordinator these three have no version to compare with: they end in askCoordinator (12 R594)
          let led := ((s.coordinator d.tbl).isSome && !queued) || !(d.opc == oPublish || d.opc == oSwitch || d.opc == oMigrate)
          if !s.lateStructure d r then (sReserved, 0, 0)
          else if badTable d r || s.doomed earlier d.tbl || (proj && s.doomed earlier d.ptbl) then (sBadTable, 0, 0)
          else if ctxDenied r ctx read || (proj && ctxDenied p ctx true) then (sDenied, 0, 0)
          else if led && d.binds && (v.isNone || pv.isNone) then (sVersion, 0, 0)
          else if led ∧ d.opc = oPublish ∧ (r.pubVer ≠ 0 ∨ r.curVer = 0) then (sVersion, 0, 0)
          else if led ∧ d.opc = oSwitch ∧ (r.pubVer = 0 ∨ (d.ver ≠ 0 ∧ d.ver ≠ r.pubVer)) then (sVersion, 0, 0)
          else if (d.isRead && !lookupFormatOk d f) || (proj && !projectionOk f pf p.rows) || (d.isBack && !backFormatOk d f) then
            (sBadFormat, 0, 0)
          else if led ∧ d.opc = oPublish ∧ d.fmt ≠ 0 ∧ d.fmt ≠ bits (s.reg (TK_FMT (((s.tab.vers.find? (fun x => x.tbl == d.tbl)).map
              (fun x => x.fmt)).getD 0))) 0 44 then (sBadFormat, 0, 0)
          else if d.nullPointer fits then (sTransFault, 0, 0)
          else (sOk, v.getD 0, pv.getD 0)

/-- Another operation of a table is in progress at this coordinator (12 R458). -/
def State.opRunning (s : State) (t : Nat) : Bool := s.tab.ops.any (fun o => o.tbl == t)

-- What admission needs

def State.sumOf_ (s : State) (t v : Nat) : List (Nat × Nat) :=
  match s.rec? t, s.ver? t v with
  | some r, some x => s.summary r x
  | _, _ => []

/-- Tiers of this block in which a version of a table has row groups or an auxiliary region; one that writes may also map a group that is
still unmapped (08 R313, R318). -/
def State.tiersIn (s : State) (t v : Nat) (writes : Bool) : List Nat :=
  let gs := s.tab.groups.filter (fun g => g.tbl == t && g.ver == v)
  gs.map (·.tier) ++ (if (s.verFmt t v).aux = 0 then [] else [0]) ++
  (match s.rec? t with
   | some r => if writes && r.owners.contains s.id && decide (gs.length < r.ngroups) then [r.otier] else []
   | none => [])

/-- A group of the version is on its way from this block: past the wait of its move, and not yet cut over (12 R466). -/
def State.leaving (s : State) (t v : Nat) : Bool :=
  s.tab.ops.any (fun o => o.tbl == t && decide (o.phase ≥ 1) && (match o.kind with
    | .moving v' _ _ _ false => v' == v
    | _ => false)) ||
  (match s.ver? t v with
   | some x => s.tab.groups.any (fun g => g.tbl == t && g.ver == v && !g.secondary && !g.leaving && (s.pentry x.pmap g.g).state == 2)
   | none => false)

/-- Facts about a command for Narrows. -/
def State.factsOf (s : State) (n : Nat) (d : Desc) (status ver pver : Nat) (known : Bool) : Facts :=
  let r := s.rec? d.tbl
  let f := s.tblFmt d.tbl
  let live := status == sOk
  let proj := d.opc == oPool && d.project
  let pf := s.tblFmt d.ptbl
  let out := if proj then pf.dim else f.dim
  let backed := d.binds || d.opc == oCommit
  let cur := (r.map (fun x => x.curVer)).getD 0
  { d := d, ring := n, known := known, live := live, f := f
    sum := if !known || !live || !backed then []
           else if d.opc = oCommit then s.sumOf_ d.tbl cur else s.sumOf_ d.tbl ver
    others := if d.isBack && known && live then
        [s.sumOf_ d.tbl cur, s.sumOf_ d.tbl ((r.map (fun x => x.pubVer)).getD 0)] else []
    psum := if proj && known && live then s.sumOf_ d.ptbl pver else []
    pdim := if proj then pf.dim else 0
    psize := if proj then pf.size else 0
    pub := (r.map (fun x => x.pubVer)).getD 0
    recipe := if d.recipe = 1 then 0 else (r.map (fun x => x.recipe)).getD 0
    ordered := ((r.map (fun x => x.ordered)).getD false)
    moving := s.leaving d.tbl ver || (proj && s.leaving d.ptbl pver)
    inl := d.inlineFits out f.size f.dim
    outBytes := if !live then 0 else if d.isBack || d.opc == oRowsWrite then 0 else d.resultBytes out f.size f.dim
    order := s.holmOrder n
    tiers := if !known || !live || !backed then []
      else sortUnique (s.tiersIn d.tbl (if d.opc = oCommit then cur else ver) (d.isBack || d.opc == oRowsWrite) ++
        (if proj then s.tiersIn d.ptbl pver false else [])) }

/-- No record can be evicted for a new one (12 R450). -/
def State.cannotEvict (s : State) : Bool :=
  decide (s.tab.recs.length ≥ 16384) && !(s.tab.recs.any (fun r =>
    !(s.tab.groups.any (fun g => g.tbl == r.tbl)) && !(s.cmds.any (fun c => leAt c.desc 8 3 == r.tbl))))

-- Acceptance (03 R96 to R99, R102, R105, R108, R109)

/-- The doorbell that made the slot at an index visible. -/
def bellOf (bells : List Bell) (head idx m : Nat) : Nat :=
  ((bells.find? (fun b => decide ((idx + m - head) % m < (b.1 + m - head) % m))).map (fun b => b.2)).getD 0

/-- What reading a slot gives. -/
inductive SlotRead where
  /-- Its bytes, and whether its words could be corrected. -/
  | got (bytes : List Byte) (good : Bool)
  /-- The read is still on its way. -/
  | wait
  /-- The read is denied (R146). -/
  | denied
  deriving DecidableEq, Repr

/-- A read of a slot of a local ring: from a tier or host memory here through the Metadata Cache, from another block by MEM_READ (R95). -/
def State.readSlot (s : State) (n idx : Nat) : State × SlotRead :=
  let r := s.ringReach n (s.reg (RF_SQ_BASE n) + 128 * (idx % 2 ^ s.sqLog n)) 128 false
  match r.2 with
  | .here t off =>
    let g := gAddr r.1.id t off
    ((if t = 3 then r.1.hostCached (s.ringCtx n) off 128 (some n) noHandle.toNat else r.1.mdRead g 128),
     .got (r.1.bytesAt (memKey t off) 128) (!(r.1.mdBad g 128)))
  | .away g =>
    if r.1.fab.xchg.any (fun x => x.kind == .slotRead n idx) then (r.1, .wait)
    else (r.1.request (gBlock g) 1 0x09 noHandle.toNat (.slotRead n idx)
      (leBytes 8 g ++ leBytes 4 128 ++ leBytes 2 (s.ringCtx n) ++ leBytes 2 0), .wait)
  | .held => (r.1, .wait)
  | .stop st => (r.1, if st = sUncorr then .got (zeros 128) false else .denied)
  | .retry => (r.1, .denied)

/-- The slot at an index: one that another block has sent, or one to be read. -/
def State.slotBytes (s : State) (n idx : Nat) : State × SlotRead :=
  match lookupBy idx (s.ring n).slots with
  | some b => (s, .got (fitTo 128 b) (!b.isEmpty))
  | none => if s.remoteRing n then (s, .wait) else s.readSlot n idx

/-- The acceptance record (R109). -/
def acceptRecord (handle result reason cls phase bound slot tag : Nat) : List Byte :=
  leBytes 4 handle ++ leBytes 1 result ++ leBytes 1 reason ++ leBytes 1 (cls + 128 * phase) ++ leBytes 1 0 ++ leBytes 4 bound ++
  leBytes 2 slot ++ leBytes 2 tag

/-- What a decision shows: SADM, t_adm, and the acknowledgement of a pending floor (10 R386, R389, R403). -/
def State.narrowsDecides (s : State) : State :=
  let s := s.setFld NW_STATUS 0 16 (s.sadm false)
  let s := s.showTadm
  if s.fld PW_SPEED 32 16 ≠ 0 ∧ s.ctl.vfpAck = none then s.upCtl (fun c => { c with vfpAck := some c.now }) else s

/-- The handle of a ring's next descriptor (03 R108). -/
def handleOf (n seq : Nat) : Nat := n * 2 ^ 26 + seq

/-- A descriptor judged: status and bound versions after the checks, what admission used, and the decision. -/
structure Judged where
  d : Desc
  status : Nat
  ver : Nat
  pver : Nat
  facts : Facts
  /-- The completion takes five slots (03 R114). -/
  five : Bool
  slots : Nat
  /-- The checks that need the table's record have been made (03 R137). -/
  known : Bool
  dec : Decision

/-- The checks on a descriptor and the decision on it (03 R105, R137, 10 R401). A command whose record can carry an inline result reserves five
slots; where check 1, check 2 or BAD_TABLE has already decided its status it reserves one, and where a later check has, five (DESIGN CHOICE,
log 104: R114 does not say). -/
def State.judge (s : State) (n : Nat) (bytes : List Byte) (good : Bool) (ref : Nat) : Judged :=
  let c1 := s.firstChecks n (Desc.of bytes)
  let d := c1.2
  let miss := if c1.1 = sOk ∧ good then s.missing d else []
  let here := miss.any (fun t => s.coordinator t == some s.id && (s.rec? t).isNone)
  let c2 := if !good then (sUncorr, 0, 0)
            else if c1.1 ≠ sOk then (c1.1, 0, 0)
            else if here then (sBadTable, 0, 0)
            else if !miss.isEmpty then (sOk, 0, 0)
            else s.tableChecks n d s.cmds ((d.opc == oPublish || d.opc == oSwitch) &&
              (s.opRunning d.tbl || s.coordinator d.tbl != some s.id))
  let known := miss.isEmpty || here
  let x := s.factsOf n d c2.1 c2.2.1 c2.2.2 known
  let five := d.inlRes && d.inlOk && c1.1 == sOk && good && (!known || (x.inl && c2.1 != sBadTable))
  let slots := if five then 5 else 1
  { d := d, status := c2.1, ver := c2.2.1, pver := c2.2.2, facts := x, five := five, slots := slots, known := known
    dec := s.decide_ x ref slots (!known && s.cannotEvict) }

/-- The head of a ring passes the slots of a descriptor. -/
def State.passHead (s : State) (n nslots : Nat) : State :=
  let r := s.ring n
  let m := 2 ^ (s.sqLog n + 1)
  let to_ := (r.head + nslots) % m
  s.upRing n (fun r => { r with
    head := to_, seq := if r.seq ≥ 0x3FFFFFE then 0 else r.seq + 1
    slots := r.slots.filter (fun z => z.1 != r.head && z.1 != (r.head + nslots - 1) % m)
    bells := r.bells.filter (fun b => decide (nslots < (b.1 + m - r.head) % m)) })

/-- The copies of a descriptor's slots leave the Metadata Cache. -/
def State.flushSlots (s : State) (n slot nslots : Nat) : State :=
  if s.remoteRing n then s else
    (upTo nslots).foldl (fun s i =>
      let q := s.ringReach n (s.reg (RF_SQ_BASE n) + 128 * ((slot + i) % 2 ^ s.sqLog n)) 128 false
      match q.2 with
      | .here t off => q.1.mdFlush (gAddr q.1.id t off) 128
      | _ => q.1) s

/-- The command that a granted descriptor becomes. -/
def Judged.command (j : Judged) (s : State) (n handle ref cls bound fin jrsv : Nat) : Cmd :=
  { handle := handle, ring := n, desc := j.d.raw, ref := ref, bound := bound, fin := fin, cls := cls, cqStart := (s.ring n).cqRsv,
    cqCount := (s.cqFit n j.slots).getD j.slots, cqFive := j.five, ver := j.ver, pver := j.pver, ctx := s.ringCtx n
    noPub := j.facts.pub == 0, order := j.facts.order, kcmd := commandKey (s.reg (RF_SEED n)) j.d.seed, work := s.workOf j.facts, tiers := j.facts.tiers
    jrsv := jrsv, phase := if j.status = sOk then .accepted else .done, status := j.status, flags := 0, rows := 0, residx := 0
    failblk := 0xFFFF, faultaddr := 0, result := [], inl := j.facts.inl, fetched := [], pos := [], pieces := [], owners := []
    parts := [], got := [], adds := [], handedOff := false, events := [], next := 0, stage := 0, offs := [], limit := 0
    endStatus := sOk, ppos := [], pevents := [], mapByte := 0, expired := false, unsent := [], checked := j.known }

/-- A granted command takes its place: completion slots, counters, journal room. -/
def State.takeCmd (s : State) (n : Nat) (cmd : Cmd) : State :=
  let s := s.upCmds (· ++ [cmd])
  let s := s.upRing n (fun r => { r with cqRsv := (r.cqRsv + cmd.cqCount) % 2 ^ (s.cqLog n + 1), accepted := r.accepted + 1 })
  (s.upSpine (fun p => { p with acceptedAll := p.acceptedAll + 1 })).bump (NW_GRANT (cmd.cls - 1)) 1

/-- The acceptance record of the descriptor at a slot is written; the flag says whether it was. -/
def State.putAccept (s : State) (n slot handle phase tag result reason cls bound : Nat) : State × Bool :=
  s.ringPut n (s.reg (RF_AQ_BASE n) + 16 * slot) (acceptRecord handle result reason cls phase bound slot tag)

/-- A judged descriptor is answered and, when granted, becomes a command. -/
def State.answerDesc (s : State) (n slot handle phase nslots ref : Nat) (j : Judged) : State :=
  match j.dec with
  | .refuse reason =>
    (((s.putAccept n slot handle phase j.d.tag sRefused reason 0 0).1.flushSlots n slot nslots).upRing n
      (fun r => { r with refused := r.refused + 1 })).bump (NW_REFUSE reason) 1
  | .grant cls bound fin jrsv =>
    let w := ((s.denyIf j.status).takeCmd n (j.command s n handle ref cls bound fin jrsv)).putAccept n slot handle phase j.d.tag 0 0 cls bound
    let s := if w.2 then w.1 else w.1.upCmds (·.filter (fun c => c.handle != handle))
    (s.flushSlots n slot nslots).syncJournal

/-- A descriptor in hand is decided on, answered and, when granted, becomes a command. -/
def State.acceptDesc (s : State) (n : Nat) (bytes : List Byte) (good : Bool) (nslots ref : Nat) : State :=
  let r := s.ring n
  (((s.passHead n nslots).setLastRef ref).narrowsDecides).answerDesc n (r.head % 2 ^ s.sqLog n) (handleOf n r.seq)
    (b2n (!bit r.head (s.sqLog n))) nslots ref (s.judge n bytes good ref)

/-- Visible slots of a ring that its head has not passed. -/
def State.slotsAhead (s : State) (n : Nat) : Nat :=
  let m := 2 ^ (s.sqLog n + 1)
  ((s.ring n).tail + m - (s.ring n).head) % m

/-- The commit of the doorbell that made a ring's next descriptor of some slots visible. -/
def State.nextBell (s : State) (n nslots : Nat) : Nat :=
  let m := 2 ^ (s.sqLog n + 1)
  bellOf (s.ring n).bells (s.ring n).head (((s.ring n).head + nslots - 1) % m) m

/-- A ring has a descriptor that the Ring Front can take now and that was made visible before an instant. -/
def State.rungBefore (s : State) (n t : Nat) : Bool :=
  s.ringState n == 1 && s.slotsAhead n != 0 &&
  (match (s.slotBytes n (s.ring n).head).2 with
   | .wait => false
   | .denied => decide (s.nextBell n 1 < t)
   | .got b _ =>
     if bit (leAt b 2 2) 0 then decide (s.slotsAhead n ≥ 2) && decide (s.nextBell n 2 < t) else decide (s.nextBell n 1 < t))

/-- Take the next descriptor of a ring (R96, R98, R102), when no other ring's doorbell comes before it (R105). -/
def State.acceptNext (s : State) (n : Nat) : State :=
  let r := s.ring n
  let m := 2 ^ (s.sqLog n + 1)
  if s.ringState n ≠ 1 ∨ s.slotsAhead n = 0 ∨ s.ringHeld n (s.reg (RF_AQ_BASE n) + 16 * (r.head % 2 ^ s.sqLog n)) then s
  else
    let a := s.slotBytes n r.head
    match a.2 with
    | .wait => a.1
    | .denied => a.1.faultRing n
    | .got b1 g1 =>
      let expert := bit (leAt b1 2 2) 0
      let nslots := if expert then 2 else 1
      let bell := s.nextBell n nslots
      if s.slotsAhead n < nslots then a.1
      else if s.rings.any (fun q => q.1 != n && s.rungBefore q.1 bell) then s
      else
        let b := if expert then a.1.slotBytes n ((r.head + 1) % m) else (a.1, .got [] true)
        match b.2 with
        | .wait => b.1
        | .denied => b.1.faultRing n
        | .got b2 g2 =>
          let ref := if s.lastRef = 0 then bell else max bell (s.lastRef + 2500)
          b.1.acceptDesc n (b1 ++ b2) (g1 && g2) nslots ref

-- Completion (03 R112 to R117, R129; 10 R402)

/-- The header of a completion record (R112). -/
def completionHeader (handle status flags tag residx inlen failblk rows elapsed faultaddr : Nat) : List Byte :=
  leBytes 4 handle ++ leBytes 1 status ++ leBytes 1 flags ++ leBytes 2 tag ++ leBytes 4 residx ++ leBytes 1 inlen ++ leBytes 1 0 ++
  leBytes 2 failblk ++ leBytes 4 rows ++ leBytes 4 elapsed ++ leBytes 8 faultaddr

/-- A reserved run is written: CQ_TAIL passes every contiguous written run. -/
def absorbRuns (m : Nat) : Nat → Nat → List (Nat × Nat) → Nat × List (Nat × Nat)
  | 0, tail, runs => (tail, runs)
  | fuel + 1, tail, runs =>
    match runs.find? (fun x => x.1 == tail) with
    | none => (tail, runs)
    | some x => absorbRuns m fuel ((tail + x.2) % m) (runs.erase x)

def Ring.wrote (r : Ring) (m start count : Nat) : Ring :=
  let a := absorbRuns m (r.cqDone.length + 1) r.cqTail (r.cqDone ++ [(start, count)])
  { r with cqTail := a.1, cqDone := a.2 }

/-- A notification leaves with the NDATA of a configuration (R117); while the host path holds it, it stays due. -/
def State.notifyNow (s : State) (n cfg : Nat) : State :=
  if s.ringHeld n (s.reg (RF_NOTIFY_ADDR n)) then s
  else
    let s := s.upRing n (fun r => { r with notifyCount := 0 })
    (s.ringPut n (s.reg (RF_NOTIFY_ADDR n)) (leBytes 4 (bits cfg 0 32))).1

/-- A record with NOTIFY has been written. -/
def State.notifyRecord (s : State) (n : Nat) : State :=
  if !s.flag (RF_CFG n) 35 then s
  else
    let first := (s.ring n).notifyCount == 0
    let s := s.upRing n (fun r => { r with
      notifyCount := r.notifyCount + 1, notifyFirst := if first then s.ctl.now else r.notifyFirst
      notifyCfg := if first then s.reg (RF_NOTIFY_CFG n) else r.notifyCfg })
    if (s.ring n).notifyCount ≥ max 1 (s.fld (RF_NOTIFY_CFG n) 32 8) then s.notifyNow n (s.reg (RF_NOTIFY_CFG n)) else s

/-- The hold-off since the first gathered record has passed; that record triggers the notification, so its configuration applies (R143). -/
def State.notifyDue (s : State) (n : Nat) : State :=
  let r := s.ring n
  if r.notifyCount ≠ 0 ∧ s.flag (RF_CFG n) 35 ∧ r.notifyFirst + bits r.notifyCfg 40 16 * 100 * ns ≤ s.ctl.now then
    s.notifyNow n r.notifyCfg
  else s

/-- The statuses whose record names a block in FAILBLK (R112). -/
def namesBlock (status : Nat) : Bool := status == sTimeout || status == sUnreach || status == sPartial

/-- The completion record of a block's TABLE_DESTROY is written: the identifier is free once the table is gone (02 R93). -/
def State.idFreed (s : State) (t src : Nat) : State :=
  let gone := (s.rec? t).isNone
  s.upTab (fun x => { x with
    registry := x.registry.filter (fun e => !(e.tbl == t && e.destroying && gone))
    ops := x.ops.map (fun o => if o.tbl = t ∧ o.kind = .destroy ∧ o.from_ = src then { o with handle := noHandle.toNat } else o) })

/-- Whom a completion record concerns: owners of an ordered table, whose reservations for the command are over (06 R239), and the
coordinator of a destroyed table. -/
def State.tellDone (s : State) (c : Cmd) (d : Desc) : State :=
  if d.isBack && (s.rec? d.tbl).any (fun r => r.ordered) then
    (sortUnique ((c.adds.map (fun a => a.1)).filter (fun o => o != s.id))).foldl (fun s o =>
      s.sendTk o c.handle (.releaseSlots c.handle false)) s
  else if d.opc = oDestroy ∧ c.stage ≠ 0 then
    match s.coordinator d.tbl with
    | none => s
    | some b => if b = s.id then s.idFreed d.tbl s.id else s.sendTk b noHandle.toNat (.freed d.tbl)
  else s

/-- Write the completion record of a finished command, and drop it. ELAPSED counts a started ns as a whole one (DESIGN CHOICE, log 103: R112 does
not say how it is rounded). -/
def State.writeCompletion (s : State) (c : Cmd) : State :=
  let n := c.ring
  let d := Desc.of c.desc
  let lg := s.cqLog n
  let cq := 2 ^ lg
  let late := decide (s.ctl.now > c.ref + c.bound * ns)
  let status := if late ∧ c.status = sOk then sMissed else c.status
  let elapsed := min (ceilDiv (s.ctl.now - c.ref) ns) 0xFFFFFFFF
  let k := if c.cqFive then 5 else 1
  let fill := c.cqCount - k
  let start := (c.cqStart + fill) % (2 * cq)
  let phaseAt := fun (i : Nat) => if bit i lg then 0 else fPhase
  let base := s.reg (RF_CQ_BASE n)
  let fillRec := completionHeader noHandle.toNat 0 (fSkip + phaseAt c.cqStart) 0 0 0 0 0 0 0
  let res := if c.inl then c.result else []
  let hdr := completionHeader c.handle status (c.flags % 32 + (if c.cqFive then fInline else 0) + phaseAt start) d.tag
    (if status = sPartial then c.residx else 0) res.length (if namesBlock status then c.failblk else 0xFFFF) (min c.rows 0xFFFFFFFF) elapsed
    -- FAULTADDR names the page (11 R429)
    (if status = sTransFault then c.faultaddr / 4096 * 4096 else 0)
  let s := s.upCmds (·.filter (fun z => z.handle != c.handle))
  let s := if late then (s.bump NW_MISSED 1).fault 5 1 0x0030
      (c.handle + min ((s.ctl.now - c.ref) / ns - c.bound) 0xFFFFFFFF * 2 ^ 32) else s
  let s := if (s.ring n).broken then s
    else
      let w := if fill = 0 then (s, true) else s.ringPut n (base + 32 * (c.cqStart % cq)) fillRec
      let w := if c.cqFive ∧ w.2 then w.1.ringPut n (base + 32 * ((start + 1) % cq)) (fitTo 128 res) else w
      let w := if w.2 then w.1.ringPut n (base + 32 * (start % cq)) hdr else w
      let ok := status == sOk || status == sDegraded
      let s := w.1.upRing n (fun r => { r.wrote (2 * cq) c.cqStart c.cqCount with
        doneOk := r.doneOk + b2n ok, doneErr := r.doneErr + b2n (!ok), rows := r.rows + c.rows, elapsed := r.elapsed + elapsed
        late := r.late + b2n late, maxElapsed := max r.maxElapsed elapsed })
      if d.notify ∧ w.2 then s.notifyRecord n else s
  ((s.tellDone c d).settleRing n).syncJournal

/-- Commands accepted earlier on the same ring. -/
def State.ahead (s : State) (c : Cmd) : List Cmd := (s.cmds.takeWhile (fun z => z.handle != c.handle)).filter (fun z => z.ring == c.ring)

/-- A command does not begin behind a FENCE whose record is not written (R129). -/
def State.mayBegin (s : State) (c : Cmd) : Bool := !((s.ahead c).any (fun z => leAt z.desc 0 1 == oFence))

-- Attach and detach (03 R144, R146; 11 R421)

/-- Pages of a ring's structures: address, bytes and direction. -/
def State.ringSpans (s : State) (n : Nat) : List (Nat × Nat × Bool) :=
  (if s.remoteRing n then [] else [(s.reg (RF_SQ_BASE n), 128 * 2 ^ s.sqLog n, false)]) ++
  [(s.reg (RF_AQ_BASE n), 16 * 2 ^ s.sqLog n, true), (s.reg (RF_CQ_BASE n), 32 * 2 ^ s.cqLog n, true)] ++
  (if s.flag (RF_CFG n) 35 then [(s.reg (RF_NOTIFY_ADDR n), 4, true)] else [])

/-- The GLOBAL check of R144: every page that lies at this block. -/
def State.globalSpans (s : State) (n : Nat) : Nat :=
  let runs := ((s.ringSpans n).map (fun x => (pageRuns x.1 x.2.1).map (fun r => (r.1, r.2, x.2.2)))).flatten
  let mine := runs.filter (fun r => gBlock r.1 == s.id)
  if mine.any (fun r => !s.addressOk r.1 r.2.1) then sTransFault
  else if mine.any (fun r => !s.windowOk (s.ringCtx n) (gTier r.1) (gOff r.1) r.2.1 r.2.2) then sDenied
  else sOk

/-- Translate every page into the ring map; none when a page fails. No migration starts. -/
def State.buildMap (s : State) (n : Nat) : State × Option (List (Nat × Nat × Bool)) :=
  let runs := ((s.ringSpans n).map (fun x => (pageRuns x.1 x.2.1).map (fun r => (r.1, r.2, x.2.2)))).flatten
  let r := runs.foldl (fun (acc : State × Option (List (Nat × Nat × Bool))) x =>
    match acc.2 with
    | none => acc
    | some l =>
      let q := acc.1.reachVirt (s.ringCtx n) x.1 x.2.1 x.2.2
      match q.2 with
      | .here t off => (q.1, some (l ++ [(x.1 / 4096, gAddr s.id t (off - x.1 % 4096), x.2.2)]))
      | _ => (q.1, none)) (s, some [])
  (r.1.upTu (fun u => { u with migs := s.tu.migs }), r.2)

/-- The checks of an attach before the ring map: ATTACH_RESULT so far. -/
def State.attachChecks (s : State) (n major : Nat) : Nat :=
  let lg := fun (x : Nat) => decide (6 ≤ x ∧ x ≤ 16)
  if major ≠ s.fld RF_IFACE_VERSION 8 8 then sVersion
  else if !lg (s.sqLog n) || !lg (s.cqLog n) || s.reg (RF_SQ_BASE n) == 0 || s.reg (RF_AQ_BASE n) == 0 || s.reg (RF_CQ_BASE n) == 0 then sReserved
  else if (s.remoteRing n && !s.ptrGlobal n) || (!s.remoteRing n && s.headless) then sDenied
  else if !s.ctxKnown (s.ringCtx n) (s.ptrGlobal n) then sDenied
  else if s.ptrGlobal n then s.globalSpans n
  else sOk

/-- A write of ATTACH. -/
def State.attachRing (s : State) (n major minor : Nat) : State :=
  if s.ringState n ≠ 0 then s
  else
    let st := s.attachChecks n major
    let fail := fun (s : State) (x : Nat) => s.setFld (RF_STATUS n) 2 8 x
    if st ≠ sOk then fail s st
    else
      let m := if s.ptrGlobal n then (s, some []) else s.buildMap n
      match m.2 with
      | none => fail m.1 sTransFault
      | some map =>
        let minor := if minor > m.1.fld RF_IFACE_VERSION 0 8 then m.1.fld RF_IFACE_VERSION 0 8 else minor
        ((m.1.setRing n { Ring.zero with map := map, minor := minor }).setFld (RF_STATUS n) 2 8 sOk).setRingState n 1

/-- A write of DETACH, with FORCE or without. -/
def State.detachRing (s : State) (n : Nat) (force : Bool) : State :=
  if s.ringState n = 0 ∨ (s.ringState n = 2 ∧ !force) then s
  else
    let s := (s.setRingState n 2).dropSlots n
    let s := if force then
        s.upCmds (·.map (fun c => if c.ring == n && c.phase == .accepted then
            { c with phase := .done, status := sAborted } else c))
      else s
    s.settleRing n

end Sys2Proof.Machine
end

