-- ==== Sys2Proof/Machine/Buffers.lean ====
section
/-! DEFINITION. What every command does around its own work: beginning (12 R450, 03 R129), reading its lists and buffers, writing
its results unit by unit (11 R428, R429), and ending. -/

namespace Sys2Proof.Machine

-- Ending

/-- Exchanges that only their command waits for. -/
def XKind.ofCmd : XKind → Bool
  | .bundle | .proj | .listRead _ | .record _ | .entry .. | .ask | .slots | .commit => true
  | _ => false

/-- What a finished command no longer waits for, and the extension lists staged for it (09 R355). -/
def State.release (s : State) (h : Nat) : State :=
  let mine := s.fab.stage.filter (fun x => x.1 == h)
  let s := s.upFab (fun f => { f with
    xchg := f.xchg.filter (fun x => !(x.handle == h && x.kind.ofCmd)), stage := f.stage.filter (fun x => x.1 != h) })
  let s := s.upTu (fun u => { u with waits := u.waits.filter (fun w => w.1 != h) })
  mine.foldl (fun s x => s.free 0 x.2.1) s

/-- The command ends: its record is due. -/
def State.endCmd (s : State) (h status : Nat) (f : Cmd → Cmd) : State :=
  (s.release h).upCmd h (fun c => { f c with status := status, phase := .done })

def State.endWith (s : State) (h status : Nat) : State := s.endCmd h status (fun c => c)
/-- A failure that a block caused (03 R112, R591). -/
def State.endAt (s : State) (h status block : Nat) : State := s.endCmd h status (fun c => { c with failblk := block })
/-- A translation fault at an address, or a denial (11 R428, R429). -/
def State.endFault (s : State) (h status addr : Nat) : State :=
  s.endCmd h status (fun c => { c with faultaddr := if status = sTransFault then addr else 0 })
/-- A stop that a driver can resume (03 R140). -/
def State.endResume (s : State) (h residx : Nat) : State := s.endCmd h sPartial (fun c => { c with residx := residx, flags := c.flags &&& fDefault })

/-- A command waits on an address (11 R424, 15 R551). -/
def State.waitOn (s : State) (h a : Nat) : State :=
  (s.upTu (fun u => { u with waits := addOnce (h, a) u.waits })).upCmd h (fun c => { c with phase := .waiting })

-- Beginning

/-- Why a record cannot be fetched, or that it is being fetched (12 R450, R594). -/
def State.fetchRecords (s : State) (c : Cmd) (miss : List Nat) : State :=
  let s := s.upCmd c.handle (fun x => { x with phase := .wantRecord })
  miss.foldl (fun s t =>
    if (s.cmd? c.handle).any (fun x => x.phase == .done) then s
    else
      match s.coordinator t with
      | none => s.endAt c.handle sUnreach ((s.registryList.head?).getD 0xFFFF)
      | some b =>
        if b = s.id then
          -- the coordinator's own record becomes one of its commands (R450)
          if (s.rec? t).isNone then s.endWith c.handle sBadTable
          else s.upTab (fun y => { y with registry := updFirst (fun e => e.tbl == t) (fun e => { e with holders := addOnce s.id e.holders }) y.registry })
        else if s.noRoute b then s.endAt c.handle sUnreach b
        else if s.fab.xchg.any (fun x => x.handle == c.handle && x.kind == .record t) then s
        else s.askTk b c.handle (.record t) (.recordFetch t)) s

/-- The checks that had to wait for the record (03 R116, R137). -/
def State.checkLate (s : State) (c : Cmd) (d : Desc) : State :=
  let x := s.tableChecks c.ring d (s.cmds.takeWhile (fun z => z.handle != c.handle)) false
  let s := s.upCmd c.handle (fun y => { y with checked := true })
  if x.1 ≠ sOk then (s.denyIf x.1).endWith c.handle x.1
  else
    let f := s.tblFmt d.tbl
    let out := if d.opc = oPool ∧ d.project then (s.tblFmt d.ptbl).dim else f.dim
    -- the journal reservation takes its size once the dimension is known (06 R249; DESIGN CHOICE, log 112)
    (s.upCmd c.handle (fun y => { y with
      jrsv := if y.jrsv = 0 then 0 else journalNeed f d.nidx
      ver := x.2.1, pver := x.2.2, inl := d.inlineFits out f.size f.dim, phase := .accepted
      noPub := ((s.rec? d.tbl).map (fun r => r.pubVer == 0)).getD true })).syncJournal

/-- A command begins, or goes on: the flag says that its own work can run. -/
def State.begin_ (s : State) (c : Cmd) : State × Bool :=
  let d := Desc.of c.desc
  if c.phase = .done ∨ (c.phase = .accepted ∧ !s.mayBegin c) then (s, false)
  else if c.checked then (s, true)
  else
    let miss := s.missing d
    let s := if miss.isEmpty then s else s.fetchRecords c miss
    if (s.cmd? c.handle).any (fun x => x.phase == .done) || !(s.missing d).isEmpty then (s, false)
    else
      let s := s.checkLate c d
      (s, (s.cmd? c.handle).any (fun x => x.phase != .done))

/-- Free bytes: their values are those of the free constant. -/
def State.freeBytes (s : State) (n : Nat) : List Byte × State :=
  let r := s.draw
  (leBytes n r.1, r.2)

/-- Destination bytes at this block that hold no defined value (03 R139) take free values. -/
def State.scribble (s : State) (c : Cmd) (a n : Nat) : State :=
  (pageRuns a n).foldl (fun s p =>
    match (s.reach (s.ptrGlobal c.ring) c.ctx p.1 p.2 true).2 with
    | .here t off => let r := s.freeBytes p.2; r.2.putData (memKey t off) r.1
    | _ => s) s

/-- The destination of the units of a look-up from unit `u` on: address and length. In split mode `q` is the first partial slot of unit `u`
(04 R184, R185, R188). -/
def Desc.destFrom (d : Desc) (n dim u q : Nat) : List (Nat × Nat) :=
  if d.opc = oPool ∧ d.split then
    let slot := padTo 128 (dim * 4)
    [(d.dstp + 16 * u, 16 * (d.nbag - u)), (d.dstp + padTo 128 (16 * d.nbag) + q * slot, (d.nbag + d.nidx - q) * slot)]
  else [(d.dstp + u * d.stride n, (d.units - u) * d.stride n)]

/-- Row dimension and output dimension of a look-up. -/
def State.outDims (s : State) (d : Desc) : Nat × Nat :=
  let dim := (s.tblFmt d.tbl).dim
  (dim, if d.opc = oPool ∧ d.project then (s.tblFmt d.ptbl).dim else dim)

/-- A look-up ends before its first output: its destination holds no defined value (03 R139). A fault or a denial at its lists has no effect
(11 R428). Where the bag offsets are not known, the slots that no earlier bag can hold are meant (04 R189). -/
def State.freeDest (s : State) (h status : Nat) : State :=
  match s.cmd? h with
  | none => s
  | some c =>
    let d := Desc.of c.desc
    if !d.isRead || c.inl || status == sTransFault || status == sDenied || status == sPartial then s
    else
      let q := d.resume + (match c.offs[d.resume]? with
        | some o => o
        | none => if d.resume = 0 then 0 else d.nidx)
      let n := s.outDims d
      (d.destFrom n.2 n.1 d.resume q).foldl (fun s p => s.scribble c p.1 p.2) s

-- Reading

/-- Lane of a command's requests: 1 for P0 to P2 and explicit deadlines, 2 for P3 (09 R337). -/
def Cmd.lane (c : Cmd) : Nat := if c.cls = 4 then 2 else 1

/-- What reading a buffer gives. -/
inductive Buf where
  | bytes (bs : List Byte)
  /-- Parts at other blocks are being read. -/
  | away
  | stop (status addr : Nat)
  | retry
  | held (addr : Nat)
  deriving DecidableEq, Repr

/-- Bytes of another block's memory that a command has fetched, or a request for them (09 R362). -/
def State.readAway (s : State) (c : Cmd) (g n : Nat) : State × Buf :=
  match ((s.cmd? c.handle).bind (fun x => lookupBy g x.fetched)).filter (fun bs => decide (n ≤ bs.length)) with
  | some bs => (s, .bytes (bs.take n))
  | none =>
    if s.fab.xchg.any (fun x => x.handle == c.handle && x.kind == .listRead g) then (s, .away)
    else (s.request (gBlock g) c.lane 0x09 c.handle (.listRead g) (leBytes 8 g ++ leBytes 4 n ++ leBytes 2 c.ctx ++ leBytes 2 0), .away)

/-- One page of a buffer; an uncorrectable word of a tier ends the command (08 R310). Lists pass through the Metadata Cache, data at
DSTP does not (11 R441). -/
def State.readRun (s : State) (c : Cmd) (cached : Bool) (a n : Nat) : State × Buf :=
  let r := s.reach (s.ptrGlobal c.ring) c.ctx a n false
  match r.2 with
  | .here t off =>
    let s := if t = 3 then (if cached then r.1.hostCached c.ctx off n none c.handle else r.1.hostRead c.ctx off n none c.handle)
             else
               let part := r.1.ringPart c.ring
               if cached then (r.1.mdRead (gAddr s.id t off) n).charge t part (r.1.mdMisses (gAddr s.id t off) n) false
               else r.1.charge t part (transfersOf t off n) false
    let bad := if cached then r.1.mdBad (gAddr s.id t off) n else decide (t < 3) && !r.1.tierReadOk t off n
    if bad then (s, .stop sUncorr 0) else (s, .bytes (s.bytesAt (memKey t off) n))
  | .away g => r.1.readAway c g n
  | .stop st => (r.1, .stop st a)
  | .retry => (r.1, .retry)
  | .held => (r.1, if c.expired then .retry else .held a)

/-- A whole buffer, page after page, with prefetch in VIRTUAL mode (11 R422). A stop or a wait ends it; parts at other blocks are
asked for together. -/
def State.readBuf (s : State) (c : Cmd) (cached : Bool) (a n : Nat) : State × Buf :=
  (pageRuns a n).foldl (fun (acc : State × Buf) p =>
    match acc.2 with
    | .bytes bs =>
      let r := acc.1.readRun c cached p.1 p.2
      let s := if s.ptrGlobal c.ring then r.1 else r.1.prefetch c.ctx p.1 (a + n)
      match r.2 with
      | .bytes x => (s, .bytes (bs ++ x))
      | y => (s, y)
    | .away =>
      let r := acc.1.readRun c cached p.1 p.2
      match r.2 with
      | .bytes _ => (r.1, .away)
      | y => (r.1, y)
    | _ => acc) (s, .bytes [])

/-- As the Index Sorter releases a run of 65,536 sorted positions, up to 64 pages of the next run's rows at DSTP are prefetched (11 R422, 04
R155); `pos` pairs each non-padding index with its position, and rows of `n` bytes lie `stride` apart. -/
def State.prefetchRows (s : State) (c : Cmd) (dstp stride n : Nat) (pos : List (Nat × Nat)) : State :=
  if s.ptrGlobal c.ring || s.fld TU_CFG 0 3 == 0 then s
  else
    ((chunks 65536 pos).drop 1).foldl (fun s run =>
      let rows := run.mergeSort (fun x y => decide (x.1 < y.1 ∨ (x.1 = y.1 ∧ x.2 ≤ y.2)))
      let pages := (rows.map (fun p => (pageRuns (dstp + stride * p.2) n).map (fun r => r.1 / 4096))).flatten
      ((pages.eraseDups).take 64).foldl (fun s p => s.prefetchPage c.ctx (p * 4096)) s) s

/-- Several buffers under one rule: all of them, or the first obstacle. -/
def State.readBufs (s : State) (c : Cmd) (cached : Bool) (l : List (Nat × Nat)) : State × List Buf :=
  l.foldl (fun (acc : State × List Buf) p =>
    if acc.2.any (fun b => match b with | .stop .. => true | .retry => true | .held _ => true | _ => false) then acc
    else
      let r := acc.1.readBuf c cached p.1 p.2
      (r.1, acc.2 ++ [r.2])) (s, [])

/-- The obstacle among buffers: a stop, a retry or a wait before an absence. -/
def obstacle (l : List Buf) : Option Buf :=
  match l.find? (fun b => match b with | .stop .. => true | .retry => true | .held _ => true | _ => false) with
  | some b => some b
  | none => if l.contains .away then some .away else none

def Buf.get : Buf → List Byte
  | .bytes bs => bs
  | _ => []

/-- What an obstacle does to a command whose reads have no effect (11 R428): `residx` is where it would resume. -/
def State.meet (s : State) (c : Cmd) (b : Buf) (residx : Nat) : State :=
  match b with
  | .stop st a =>
    let s := s.freeDest c.handle st
    if st = sUnreach then s.endAt c.handle st (gBlock a) else s.endFault c.handle st a
  | .retry => s.endResume c.handle residx
  | .held a => s.waitOn c.handle a
  | _ => s.upCmd c.handle (fun x => { x with phase := .waiting })

-- Writing

/-- Store data where an access leads; it does not pass through the merging buffer (03 R106, 07 R282, 09 R362). -/
def State.put (s : State) (c : Cmd) (r : Reach) (kind : XKind) (lane : Nat) (bs : List Byte) : State :=
  match r with
  | .here 3 off => s.hostWrite c.ctx off bs none c.handle
  | .here t off => (s.putData (memKey t off) bs).charge t (s.ringPart c.ring) (transfersOf t off bs.length) true
  | .away g => s.memWriteTo g c.ctx lane c.handle kind bs
  | _ => s

/-- A unit's output: pieces with their addresses. -/
abbrev OutUnit := List (Nat × List Byte)

/-- The accesses of a unit, within pages. -/
def unitRuns (u : OutUnit) : List (Nat × List Byte) :=
  (u.map (fun p => (pageRuns p.1 p.2.length).map (fun r => (r.1, (p.2.drop (r.1 - p.1)).take r.2)))).flatten

/-- How writing the units ends. -/
inductive WEnd where
  | done
  | stop (unit status addr : Nat)
  | retry (unit : Nat)
  | held (addr : Nat)
  deriving DecidableEq, Repr

/-- Where each access of a list of units leads, until the first that fails: it names the first unit in the faulting page, since
units ascend. The pages after it are prefetched but for a LOOKUP, whose rows do not ascend (11 R422). -/
def State.reachUnits (s : State) (c : Cmd) (first : Nat) (units : List OutUnit) : State × List (Nat × Reach × List Byte) × WEnd :=
  let accesses := ((units.zipIdx first).map (fun u => (unitRuns u.1).map (fun r => (u.2, r)))).flatten
  let stop_ := maxOf (accesses.map (fun x => x.2.1 + x.2.2.length))
  let ahead := fun (s : State) (a : Nat) => if s.ptrGlobal c.ring || (Desc.of c.desc).opc == oLookup then s else s.prefetch c.ctx a stop_
  accesses.foldl (fun (acc : State × List (Nat × Reach × List Byte) × WEnd) x =>
    match acc.2.2 with
    | .done =>
      let r := acc.1.reach (s.ptrGlobal c.ring) c.ctx x.2.1 x.2.2.length true
      match r.2 with
      | .stop st => (r.1, acc.2.1, .stop x.1 st x.2.1)
      | .retry => (r.1, acc.2.1, .retry x.1)
      | .held => (r.1, acc.2.1, if c.expired then .retry x.1 else .held x.2.1)
      | y => (ahead r.1 x.2.1, acc.2.1 ++ [(x.1, y, x.2.2)], .done)
    | _ => acc) (s, [], .done)

/-- Write the units before the one that stops them (11 R428); nothing while an access is held. -/
def State.writeUnits (s : State) (c : Cmd) (first : Nat) (units : List OutUnit) (kind : XKind) (lane : Nat) : State × WEnd :=
  let r := s.reachUnits c first units
  let upTo_ := match r.2.2 with
    | .done => first + units.length
    | .stop u _ _ => u
    | .retry u => u
    | .held _ => 0
  ((r.2.1.filter (fun x => decide (x.1 < upTo_))).foldl (fun s x => s.put c x.2.1 kind lane x.2.2) r.1, r.2.2)

end Sys2Proof.Machine
end

