-- ==== Sys2Proof/Machine/Gather.lean ====
section
/-! DEFINITION. LOOKUP and LOOKUP_POOL (04): lists, sort and unique, owners, bundles, replies, events, combining, output layouts;
and the service of bundles for other blocks (04 R165; 09 R354 to R357). -/

namespace Sys2Proof.Machine

-- Lists (03 R122 to R125)

structure Lists where
  idx : List Nat
  offs : List Nat
  w : List F32
  deriving DecidableEq, Repr

/-- `n` numbers of `w` bytes. -/
def nums (bs : List Byte) (w n : Nat) : List Nat := (chunks w (fitTo (w * n) bs)).map leNat

def Desc.indices (d : Desc) (bs : List Byte) : List Nat :=
  let l := nums bs d.iw d.nidx
  if d.idx32 then l.map Machine.widen else l

def floats (bs : List Byte) (n : Nat) : List F32 := (nums bs 4 n).map (fun x => BitVec.ofNat 32 x)

/-- The lists of an inline command (03 R125). -/
def Desc.inlineLists (d : Desc) : Lists :=
  { idx := d.indices (d.raw.drop 64), offs := 0 :: d.bagEnds,
    w := if d.weighted then floats (d.raw.drop (64 + d.iw * d.nidx)) d.nidx else [] }

/-- Buffers of a command's indices and offsets. -/
def Desc.listSpecs (d : Desc) : List (Nat × Nat) :=
  [(d.idxp, d.iw * d.nidx), (d.offp, if d.bags then 4 * (d.nbag + 1) else 0)]

/-- Maximal runs of positions that hold no padding index: first position and length. -/
def liveRuns (idx : List Nat) : List (Nat × Nat) :=
  (idx.zipIdx.foldl (fun (acc : List (Nat × Nat)) p =>
    if p.1 = padIndex then acc
    else match acc with
      | (a, n) :: rest => if a + n = p.2 then (a, n + 1) :: rest else (p.2, 1) :: acc
      | [] => [(p.2, 1)]) []).reverse

/-- Weights of runs laid out by position; a padding position has none (02 R58). -/
def spreadWeights (runs : List (Nat × Nat)) (l : List Buf) : List F32 :=
  (runs.zip l).foldl (fun acc p => acc ++ List.replicate (p.1.1 - acc.length) 0#32 ++ floats p.2.get p.1.2) []

/-- Read the lists: the indices and offsets, then the weights of the positions that are no padding (02 R58, 03 R124); none when the command
waits or has ended. -/
def State.readLists (s : State) (c : Cmd) (d : Desc) : State × Option Lists :=
  if d.inl then (s, some d.inlineLists)
  else
    let r := s.readBufs c true d.listSpecs
    match obstacle r.2 with
    | some b => (r.1.meet c b d.resume, none)
    | none =>
      let at_ := fun (i : Nat) => ((r.2[i]?).map Buf.get).getD []
      let idx := d.indices (at_ 0)
      let runs := if d.weighted then liveRuns idx else []
      let w := r.1.readBufs c true (runs.map (fun p => (d.wgtp + 4 * p.1, 4 * p.2)))
      match obstacle w.2 with
      | some b => (w.1.meet c b d.resume, none)
      | none => (w.1, some { idx := idx, offs := if d.bags then nums (at_ 1) 4 (d.nbag + 1) else [], w := spreadWeights runs w.2 })

/-- The bad entry of the offsets (03 R124). -/
def badOffset (offs : List Nat) (nbag nidx : Nat) : Option Nat :=
  (upTo (nbag + 1)).find? (fun k =>
    let o := (offs[k]?).getD 0
    (k == 0 && o != 0) || (decide (k ≥ 1) && decide (o < (offs[k - 1]?).getD 0)) || decide (o > nidx) || (k == nbag && o != nidx))

-- Positions (R155 to R158)

/-- What fetching a row gives. -/
inductive Fetched where
  | row (v : List F32) (fnd : Findings)
  /-- The stored row, or its rebuild, cannot be corrected. -/
  | bad
  /-- The residency entry cannot be read. -/
  | noEntry
  deriving DecidableEq, Repr

/-- Rows of one version fetched here, in ascending order; the residency entry of each group is read first (R158). -/
def State.fetchLocal (s : State) (t ver part : Nat) (f : Fmt) (l : List Nat) : State × List (Nat × Fetched) :=
  (sortUnique (l.map (fun i => i / 4096))).foldl (fun (acc : State × List (Nat × Fetched)) gi =>
    let mine := l.filter (fun i => i / 4096 == gi)
    match acc.1.group? t ver gi with
    | none => (acc.1, acc.2 ++ mine.map (fun i => (i, .bad)))
    | some g =>
      let e := acc.1.readEntry g part
      if !e.2 then (e.1, acc.2 ++ mine.map (fun i => (i, .noEntry)))
      else mine.foldl (fun acc i =>
        let r := acc.1.rowLocal g f (i % 4096) part
        (r.1.touch t ver gi (sectorsOf (g.rowOff f (i % 4096)) f.size), acc.2 ++ [(i, match r.2 with
          | some x => .row x.1 x.2
          | none => .bad)])) (e.1, acc.2)) (s, [])

/-- The default row as a look-up uses it: zeros for a table with INTACC (R82, R170). -/
def State.dfltRow (s : State) (r : TableRec) (f : Fmt) : List F32 :=
  if f.intacc then List.replicate f.dim 0#32 else s.defaultRow r f

/-- What resolving a list of row numbers gives: positions, distinct stored rows, and the first position whose entry is corrupt. -/
structure Resolved where
  pos : List Pos
  uniq : Nat
  corruptAt : Option Nat
  deriving DecidableEq, Repr

/-- Resolve row numbers in a version and fetch the local ones once each (R155, R156). -/
def State.resolveAll (s : State) (r : TableRec) (v : Version) (part : Nat) (idx : List Nat) (w : List F32) : State × Resolved :=
  let f := s.fmtAt v.fmt
  let rs := s.resolveRows r v part (sortUnique (idx.filter (fun i => i != padIndex)))
  let s := rs.1
  let res := rs.2
  let stored := res.filter (fun p => p.2 != .kind .dflt)
  let loc := (res.filter (fun p => p.2 == .kind .loc)).map (fun p => p.1)
  let got := s.fetchLocal r.tbl v.ver part f loc
  let dflt := s.dfltRow r f
  let one := fun (p : Nat × Nat) =>
    let wt := (w[p.2]?).getD 0#32
    if p.1 = padIndex then { idx := p.1, kind := .pad, w := wt, v := [], fnd := 0 : Pos }
    else match lookupBy p.1 res with
    | some (.kind .loc) =>
      match lookupBy p.1 got.2 with
      | some (.row x fl) => { idx := p.1, kind := .loc, w := wt, v := x, fnd := fl.toByte : Pos }
      | some .noEntry => { idx := p.1, kind := .failed s.id 6, w := wt, v := dflt, fnd := 0 }
      | _ => { idx := p.1, kind := .bad, w := wt, v := dflt, fnd := 0 }
    | some (.kind k) => { idx := p.1, kind := k, w := wt, v := dflt, fnd := 0 }
    | _ => { idx := p.1, kind := .failed s.id 6, w := wt, v := dflt, fnd := 0 }
  (got.1, { pos := idx.zipIdx.map one, uniq := stored.length
            corruptAt := idx.findIdx? (fun i => i != padIndex && lookupBy i res == some .corrupt) })

-- Bundles (R163, R164; 09 R354, R355)

/-- ns from now to the remote cutoff. -/
def State.relcut (s : State) (c : Cmd) : Nat := min ((c.deadline - s.ctl.now) / ns) 0xFFFFFFFF

/-- The request header of 09 R354. -/
def reqHeader (tbl rflags ver ctx ofmt nent relcut kcmd : Nat) : List Byte :=
  leBytes 3 tbl ++ leBytes 1 rflags ++ leBytes 2 ver ++ leBytes 2 ctx ++ leBytes 1 ofmt ++ leBytes 1 0 ++ leBytes 2 nent ++
  leBytes 4 relcut ++ leBytes 8 kcmd ++ zeros 8

/-- Positions of an owner that no exchange has asked for take the number of the one that does. -/
def markAsked (o xid : Nat) (p : Pos → Bool) (l : List Pos) : List Pos :=
  l.map (fun x => if x.kind == .remote o && x.xid.isNone && p x then { x with xid := some xid } else x)

/-- A READ_REQ bundle: distinct rows, as many messages as it needs. -/
def State.sendReads (s : State) (c : Cmd) (o tbl ver ofmt : Nat) (comp degr : Bool) (kind : XKind) (rows : List Nat) : State :=
  (chunks 8186 rows).foldl (fun s l =>
    let xid := s.newXid.1
    let asked := fun (p : Pos) => l.contains p.idx
    let s := s.upCmd c.handle (fun x => if kind = .proj then { x with ppos := markAsked o xid asked x.ppos } else { x with pos := markAsked o xid asked x.pos })
    s.request o c.lane 0x01 c.handle kind
      (reqHeader tbl (4 * b2n comp + 8 * b2n degr) ver c.ctx ofmt l.length (s.relcut c) c.kcmd ++ (l.map (leBytes 8)).flatten)) s

/-- Indices and weights of a bag entry in the inline layout. -/
def bagList (weighted : Bool) (ps : List Pos) : List Byte :=
  let ws := if weighted then (ps.map (fun p => leBytes 4 p.w.toNat)).flatten else []
  (ps.map (fun p => leBytes 8 p.idx)).flatten ++ fitTo (padTo 8 ws.length) ws

/-- Stage an extension list in Tier S (09 R355). -/
def State.stageList (s : State) (h : Nat) (bs : List Byte) : Option (Nat × State) :=
  if sumOf (s.fab.stage.map (fun x => x.2.2)) + bs.length > s.fld FP_BUF_CFG 56 8 * 2 ^ 20 then none
  else (s.alloc 0 bs.length 64).map (fun r =>
    (gAddr s.id 0 r.1, (r.2.putData (memKey 0 r.1) bs).upFab (fun f => { f with stage := f.stage ++ [(h, r.1, bs.length)] })))

/-- A bag entry, its list inline or staged; none when the staging area is full. -/
def State.bagEntry (s : State) (h bag : Nat) (weighted : Bool) (ps : List Pos) : Option (List Byte × State) :=
  let bs := bagList weighted ps
  let head := leBytes 4 bag ++ leBytes 4 ps.length
  if ps.length ≤ 1024 then some (head ++ leBytes 8 0 ++ bs, s)
  else (s.stageList h bs).map (fun r => (head ++ leBytes 8 r.1, r.2))

/-- Whole entries packed into bodies of at most `room` bytes. -/
def packEntries (room : Nat) (l : List (List Byte)) : List (List (List Byte)) :=
  (l.foldl (fun (acc : List (List (List Byte)) × Nat) e =>
    match acc.1 with
    | [] => ([[e]], e.length)
    | x :: xs => if acc.2 + e.length ≤ room then ((x ++ [e]) :: xs, acc.2 + e.length) else ([e] :: x :: xs, e.length)) ([], 0)).1.reverse

/-- Unit of a position counted from the first one of the command. -/
def unitOf (d : Desc) (offs : List Nat) (p : Nat) : Nat :=
  if !d.bags then d.resume + p
  else
    let x := (offs[d.resume]?).getD 0 + p
    ((upTo d.nbag).find? (fun b => decide ((offs[b]?).getD 0 ≤ x ∧ x < (offs[b + 1]?).getD 0))).getD d.nbag

/-- Bags of a command with positions at an owner that no exchange has asked for: bag and positions. -/
def Cmd.bagsAt (c : Cmd) (d : Desc) (o : Nat) : List (Nat × List Pos) :=
  let first := (c.offs[d.resume]?).getD 0
  ((List.range c.limit).drop d.resume).filterMap (fun b =>
    let lo := (c.offs[b]?).getD 0
    let hi := (c.offs[b + 1]?).getD 0
    let ps := ((c.pos.drop (lo - first)).take (hi - lo)).filter (fun p => p.kind == .remote o && p.xid.isNone)
    if ps.isEmpty then none else some (b, ps))

/-- A POOL_REQ bundle; none when the staging area is full. -/
def State.sendPools (s : State) (c : Cmd) (d : Desc) (o : Nat) : Option State :=
  let r := (c.bagsAt d o).foldl (fun (acc : Option (List (List Byte) × State)) b =>
    acc.bind (fun a => (a.2.bagEntry c.handle b.1 (d.mode == 3) b.2).map (fun e => (a.1 ++ [e.1], e.2)))) (some ([], s))
  r.map (fun a => (packEntries (65536 - 48) a.1).foldl (fun s l =>
    let xid := s.newXid.1
    let bags := l.map (fun e => leAt e 0 4)
    let s := s.upCmd c.handle (fun x => { x with pos := (x.pos.zipIdx.map (fun p =>
      if p.1.kind == .remote o && p.1.xid.isNone && bags.contains (unitOf d x.offs p.2) then { p.1 with xid := some xid } else p.1)) })
    s.request o c.lane 0x02 c.handle .bundle
      (reqHeader d.tbl (d.mode + 4 * b2n d.comp + 8 * b2n d.degr) c.ver c.ctx 0 l.length (s.relcut c) c.kcmd ++ l.flatten)) a.2)

/-- Rows at an owner that no exchange has asked for, each once. -/
def freshRows (o : Nat) (l : List Pos) : List Nat :=
  sortUnique ((l.filter (fun p => p.kind == .remote o && p.xid.isNone)).map (fun p => p.idx))

/-- Send the bundle of one owner: what no exchange has asked for yet. -/
def State.sendBundle (s : State) (c : Cmd) (d : Desc) (o : Nat) : State :=
  let rows := freshRows o c.pos
  let s := if rows.isEmpty then s
    else if d.opc = oLookup then
      (s.sendReads c o d.tbl c.ver d.ofmt d.comp d.degr .bundle rows).upCmd c.handle (fun x => { x with unsent := x.unsent.filter (· != o) })
    else
      match s.sendPools c d o with
      | some s => s.upCmd c.handle (fun x => { x with unsent := x.unsent.filter (· != o) })
      | none => s.upCmd c.handle (fun x => { x with unsent := insertNat o x.unsent })
  let prow := freshRows o c.ppos
  if prow.isEmpty then s else s.sendReads c o d.ptbl c.pver 0 d.comp false .proj prow

/-- Owners with positions that no exchange has asked for. -/
def posOwners (l : List Pos) : List Nat :=
  sortUnique (l.filterMap (fun p => match p.kind with
    | .remote o => if p.xid.isNone then some o else none
    | _ => none))

/-- Send the bundles of a command in ascending order of owner (R164). -/
def State.sendBundles (s : State) (c : Cmd) (d : Desc) : State :=
  (sortUnique (posOwners c.pos ++ posOwners c.ppos)).foldl (fun s o => s.sendBundle c d o) s

-- From the lists to the owners' requests

/-- Pieces of a bag (R161). -/
def bagPieces (offs : List Nat) (b : Nat) : Nat := max 1 (ceilDiv ((offs[b + 1]?).getD 0 - (offs[b]?).getD 0) 1024)

/-- Number of pieces of the units below a limit (R161, R597). Under a bad bag offset the pieces of the bags before it are formed (DESIGN
CHOICE, log 106). -/
def pieceCount (d : Desc) (offs : List Nat) (limit : Nat) : Nat :=
  if !d.bags then (d.nidx - 1) / 1024 - d.resume / 1024 + 1
  else sumOf (((List.range limit).drop d.resume).map (bagPieces offs))

/-- Holms that carry the pieces (R162). -/
def pieceHolms (order : List Nat) (n : Nat) : List Nat :=
  (List.range n).map (fun q => (order[q % max order.length 1]?).getD 0)

/-- The byte of the degraded map that holds bit RESUME (R186): read, or waited for; a fault there is one of the unit RESUME (11 R428). -/
def State.readMapByte (s : State) (c : Cmd) (d : Desc) (n : Nat) : State × Option Nat :=
  if d.degr && !d.split && !c.inl && d.resume % 8 != 0 then
    let r := s.readBuf c false (d.dstp + d.units * d.stride n + d.resume / 8) 1
    match r.2 with
    | .bytes bs => (r.1, some (leNat bs))
    | .stop _ _ | .retry =>
      -- a page that cannot be written either is met again, and counted, when the outputs are written
      match (s.reach (s.ptrGlobal c.ring) c.ctx (d.dstp + d.units * d.stride n + d.resume / 8) 1 true).2 with
      | .here .. | .away _ => (r.1.meet c r.2 d.resume, none)
      | _ => (s, some 0)
    | b => (r.1.meet c b d.resume, none)
  else (s, some 0)

/-- Resolve the projection matrix (R179, R180); none when a corrupt entry ends the command (R65). -/
def State.loadMatrix (s : State) (c : Cmd) (d : Desc) (dim : Nat) : State × Option (List Pos × List (Nat × Nat)) :=
  if d.opc != oPool || !d.project then (s, some ([], []))
  else
    match s.rec? d.ptbl, s.ver? d.ptbl c.pver with
    | some r, some v =>
      let x := s.resolveAll r v (s.ringPart c.ring) (List.range dim) []
      let home := (c.order[0]?).getD 0
      let dfl := (x.2.pos.filter (fun p => p.kind == .dflt)).length
      let s := ((x.1.bump (IX_INDEX home) dim).bump (IX_UNIQUE home) x.2.uniq).bump (IX_DEFAULT home) dfl
      let evs := x.2.pos.filterMap (fun p => match p.kind with
        | .failed o e => some (e, o)
        | .bad => some (5, s.id)
        | _ => none)
      if x.2.corruptAt.isSome then (s, none) else (s, some (x.2.pos, evs))
    | _, _ => (s, some ([], [(6, s.id)]))

/-- Stage 0: the lists are in hand; resolve, fetch, and ask the owners. -/
def State.gatherStart (s : State) (c : Cmd) (d : Desc) (l : Lists) (mapByte : Nat) : State :=
  match s.rec? d.tbl, s.ver? d.tbl c.ver with
  | some r, some v =>
    let bad := if d.bags then badOffset l.offs d.nbag d.nidx else none
    let limit := match bad with
      | some k => k - 1
      | none => d.units
    let first := if d.bags then (l.offs[d.resume]?).getD 0 else d.resume
    let last := if d.bags then (l.offs[limit]?).getD 0 else limit
    let f := s.fmtAt v.fmt
    let m := s.loadMatrix c d f.dim
    match m.2 with
    | none => (m.1.freeDest c.handle sBadTable).endWith c.handle sBadTable
    | some (ppos, pev) =>
      let x := m.1.resolveAll r v (s.ringPart c.ring) ((l.idx.drop first).take (last - first)) (l.w.drop first)
      let home := (c.order[0]?).getD 0
      let np := pieceCount d l.offs limit
      let count := fun (k : Pos → Bool) => (x.2.pos.filter k).length
      let ahead := fun (s : State) =>
        if d.opc = oLookup ∧ !c.inl then
          s.prefetchRows c d.dstp (padTo 16 (f.dim * osize d.ofmt)) (f.dim * osize d.ofmt)
            ((((l.idx.take last).zipIdx).drop first).filter (fun p => p.1 != padIndex))
        else s
      let s := ((((ahead x.1).bump (IX_INDEX home) (count (fun p => p.idx != padIndex))).bump (IX_UNIQUE home) x.2.uniq).bump (IX_DEFAULT home)
        (count (fun p => p.kind == .dflt))).bump (IX_PIECE home) np
      let cut := match x.2.corruptAt with
        | some p => unitOf d l.offs p
        | none => limit
      let st := if cut < limit then sBadTable else if bad.isSome then sBadFormat else sOk
      let keep := if d.bags then (l.offs[cut]?).getD 0 - first else cut - first
      let c2 := { c with
        stage := 1, phase := .waiting, offs := l.offs, limit := cut, endStatus := st, pos := x.2.pos.take keep, mapByte := mapByte
        pieces := pieceHolms c.order np, ppos := ppos, pevents := pev }
      (s.upCmd c.handle (fun _ => c2)).sendBundles c2 d
  | _, _ => s.endWith c.handle sBadTable

-- Units of output (R169 to R176, R182 to R189)

/-- One finished unit. -/
structure UnitOut where
  /-- Output bytes: a row or a vector; in split mode the values of each partial. -/
  parts : List (List Byte)
  fnd : Findings
  count : Nat
  dflts : Nat
  degr : Nat
  deriving DecidableEq, Repr

def accMode (d : Desc) (f : Fmt) : AccMode := if f.intacc then .int else if d.comp then .comp else .plain

/-- The owner of a position has answered for it. -/
def Cmd.replied (c : Cmd) (d : Desc) (o u : Nat) (p : Pos) : Bool :=
  if d.opc = oLookup then c.got.any (fun x => x.1 == o && x.2.1 == p.idx)
  else c.parts.any (fun x => x.owner == o && x.bag == u && some x.xid == p.xid)

/-- The event of a position in unit `u`, by its row in the table of R181: none when its row is at hand. -/
def Cmd.posEvent (c : Cmd) (d : Desc) (u : Nat) (p : Pos) : Option Nat :=
  match p.kind with
  | .remote o => if c.replied d o u p then none else some (((c.events.find? (fun e => e.2 == o)).map (fun e => e.1)).getD 1)
  | .failed _ e => some e
  | .bad => some 5
  | _ => none

/-- Positions of a unit that take the default row for want of their own (R182). -/
def Cmd.degraded (c : Cmd) (d : Desc) (u : Nat) (ps : List Pos) : Nat :=
  (ps.filter (fun p => (c.posEvent d u p).any (fun e => decide (e ≤ 5)))).length

/-- One position of a LOOKUP. -/
def gatherUnit (c : Cmd) (d : Desc) (stride : Nat) (dflt : List F32) (u : Nat) (p : Pos) : UnitOut :=
  let deg := c.degraded d u [p]
  let conv := fun (v : List F32) (fnd dfl : Nat) =>
    let r := outBytes d.ofmt stride v
    { parts := [r.1], fnd := r.2.or (Findings.ofByte fnd), count := 1, dflts := dfl, degr := deg : UnitOut }
  match p.kind with
  | .pad => { parts := [zeros stride], fnd := .none, count := 0, dflts := 0, degr := 0 }
  | .dflt => conv p.v 0 1
  | .loc => conv p.v p.fnd 0
  | .remote o =>
    match c.got.find? (fun x => x.1 == o && x.2.1 == p.idx) with
    | some x => { parts := [fitTo stride x.2.2.1], fnd := Findings.ofByte p.fnd, count := 1, dflts := 0, degr := b2n x.2.2.2 }
    | none => conv dflt 0 0
  | _ => conv dflt 0 0

/-- Terms of positions. -/
def terms (weighted : Bool) (ps : List Pos) : List (Option F32 × List F32) :=
  ps.map (fun p => (if weighted then some p.w else none, p.v))

/-- The remote and substitute partials of a bag, in the order of R173, and the positions that owners have degraded. -/
def bagRemotes (id : Nat) (c : Cmd) (d : Desc) (m : AccMode) (dim b : Nat) (ps : List Pos) : List Partial × Findings × Nat :=
  let owners := sortUnique (ps.filterMap (fun p => match p.kind with
    | .remote o => some o
    | .failed o _ => if o = id then none else some o
    | _ => none))
  owners.foldl (fun acc o =>
    let mine := c.parts.filter (fun x => x.owner == o && x.bag == b)
    let rem := mine.map (fun x => x.s.zip x.c)
    let fl := mine.foldl (fun (a : Findings) x => a.or (Findings.ofByte (x.flags / 2))) Findings.none
    let nd := sumOf (mine.map (fun x => x.ndeg))
    let sub := ps.filter (fun p => match p.kind with
      | .failed q _ => q == o
      | .remote q => q == o && !c.replied d o b p
      | _ => false)
    let sp := partialSum m dim (terms (d.mode == 3) sub)
    let merged := match rem with
      | [] => []
      | x :: xs => [xs.foldl (fun a y => (join m a y).1) x]
    (acc.1 ++ merged ++ (if sub.isEmpty then [] else [sp.1]), acc.2.1.or (fl.or sp.2), acc.2.2 + nd))
    ([], .none, 0)

/-- A position whose term is local to the home block: a local row, read or not, the default row, or a failed row of a group whose entry names
the home block (R172, R182). -/
def Pos.isLocal (id : Nat) (p : Pos) : Bool :=
  match p.kind with
  | .loc | .dflt | .bad => true
  | .failed o _ => o == id
  | _ => false

/-- One bag of a LOOKUP_POOL. -/
def poolUnit (id : Nat) (c : Cmd) (d : Desc) (m : AccMode) (dim stride : Nat) (matrix : List (List F32)) (pdim b : Nat) (ps : List Pos) : UnitOut :=
  let pieces := (chunks 1024 ps).map (fun l => partialSum m dim (terms (d.mode == 3) (l.filter (Pos.isLocal id))))
  let loc := joinAll m dim (pieces.map (fun x => x.1))
  let f0 := pieces.foldl (fun (a : Findings) x => a.or x.2) loc.2
  let f0 := ps.foldl (fun (a : Findings) p => a.or (Findings.ofByte p.fnd)) f0
  let rem := bagRemotes id c d m dim b ps
  let count := (ps.filter (fun p => p.kind != .pad)).length
  let dfl := (ps.filter (fun p => p.kind == .dflt)).length
  let deg := rem.2.2 + c.degraded d b ps
  if d.split then
    let slots := (loc.1 :: rem.1).map (fun x => fold m x)
    { parts := slots.map (fun x => (outBytes 0 (padTo 128 (dim * 4)) x.1).1)
      fnd := slots.foldl (fun (a : Findings) x => a.or x.2) (f0.or rem.2.1), count := count, dflts := dfl, degr := deg }
  else
    let out := rem.1.foldl (fun (acc : Partial × Findings) x => let r := join m acc.1 x; (r.1, acc.2.or r.2)) (loc.1, f0.or rem.2.1)
    let v := fold m out.1
    let mn := if d.mode = 2 then meanOf count v.1 else (v.1, .none)
    let pr := if d.project then project matrix pdim mn.1 else (mn.1, .none)
    let z := outBytes d.ofmt stride pr.1
    { parts := [z.1], fnd := out.2.or (v.2.or (mn.2.or (pr.2.or z.2))), count := count, dflts := dfl, degr := deg }

-- Events (R181)

/-- Status of an event by its row in the table of R181. -/
def eventStatus (e : Nat) : Nat :=
  match e with
  | 1 => sTimeout
  | 2 => sUnreach
  | 3 => sUnreach
  | 7 => sDenied
  | _ => sUncorr

/-- Events of the command and of its projection matrix, each with the block at fault. -/
def Cmd.allEvents (c : Cmd) (d : Desc) (id : Nat) : List (Nat × Nat) × List (Nat × Nat) :=
  (c.pos.zipIdx.filterMap (fun p => (c.posEvent d (unitOf d c.offs p.2) p.1).map (fun e => (e, match p.1.kind with
    | .remote o => o
    | .failed o _ => o
    | _ => id))),
   c.pevents ++ c.ppos.filterMap (fun p => match p.kind with
    | .remote o => some (1, o)
    | _ => none))

/-- An event that the default row does not stand in for (R181). -/
def hardEvent (degrade : Bool) (e : Nat) : Bool := !degrade || decide (e ≥ 6)

/-- The status that events decide, with the block at fault (R181, R591); none when every event substitutes. -/
def decideEvents (degrade : Bool) (evs pevs : List (Nat × Nat)) : Option (Nat × Nat) :=
  let hard := evs.filter (fun e => hardEvent degrade e.1) ++ pevs
  match hard with
  | [] => none
  | e :: es =>
    let k := es.foldl (fun m x => min m x.1) e.1
    let blocks := (hard.filter (fun x => x.1 == k)).map (fun x => x.2)
    some (eventStatus k, if k ≤ 3 then blocks.foldl min ((blocks.head?).getD 0) else 0xFFFF)

-- Layout (R184 to R189)

/-- Slot of the first bag written (R189). -/
def Cmd.firstSlot (c : Cmd) (d : Desc) : Nat := d.resume + (c.offs[d.resume]?).getD 0

/-- The degraded map from the byte of unit `first`, when a command has all its units (R186). -/
def mapPiece (d : Desc) (mapByte first n : Nat) (us : List UnitOut) : List (Nat × List Byte) :=
  if !d.degr || d.split then []
  else
    let count := d.units
    let b0 := first / 8
    let bytes := (List.range (padTo 16 ((count + 7) / 8) - b0)).map (fun i =>
      BitVec.ofNat 8 ((upTo 8).foldl (fun m j =>
        let u := (b0 + i) * 8 + j
        if u < first then (if bit mapByte j then m + 2 ^ j else m)
        else if ((us[u - first]?).map (fun x => decide (x.degr > 0))).getD false then m + 2 ^ j else m) 0))
    [(d.dstp + count * d.stride n + b0, bytes)]

/-- The units as pieces with addresses, in the layouts of R184 to R189. -/
def layout (c : Cmd) (d : Desc) (n dim : Nat) (us : List UnitOut) : List OutUnit :=
  if d.opc = oPool ∧ d.split then
    let slot := padTo 128 (dim * 4)
    let base := d.dstp + padTo 128 (16 * d.nbag)
    (us.zipIdx.foldl (fun (acc : List OutUnit × Nat) u =>
      let q := acc.2
      let entry := leBytes 4 q ++ leBytes 2 u.1.parts.length ++
        leBytes 1 (b2n (decide (u.1.degr > 0)) + 2 * b2n u.1.fnd.inf + 4 * b2n u.1.fnd.nan) ++ leBytes 1 0 ++ leBytes 4 u.1.count ++
        leBytes 4 0
      let vals := u.1.parts.zipIdx.map (fun p => (base + (q + p.2) * slot, p.1))
      (acc.1 ++ [(d.dstp + 16 * (d.resume + u.2), entry) :: vals], q + u.1.parts.length)) ([], c.firstSlot d)).1
  else
    us.zipIdx.map (fun u =>
      (d.dstp + (d.resume + u.2) * d.stride n, u.1.parts.flatten) ::
      (if d.resume + u.2 + 1 = d.units then mapPiece d c.mapByte d.resume n us else []))

/-- The destination bytes of the units from `u` on: address and length. -/
def restOfBuffer (c : Cmd) (d : Desc) (n dim u : Nat) (us : List UnitOut) : List (Nat × Nat) :=
  d.destFrom n dim u (c.firstSlot d + sumOf ((us.take (u - d.resume)).map (fun x => x.parts.length)))

/-- The inline result: the bytes from the start of the result, those of earlier units free (R187). -/
def inlineResult (d : Desc) (free : List Byte) (us : List OutUnit) : List Byte :=
  us.flatten.foldl (fun bs p =>
    let off := p.1 - d.dstp
    bs ++ (free.drop bs.length).take (off - bs.length) ++ p.2) []

-- Finishing

/-- Everything a look-up reports about its units. -/
def reportUnits (status : Nat) (us : List UnitOut) (c : Cmd) : Cmd :=
  let fl := us.foldl (fun (a : Findings) u => a.or u.fnd) Findings.none
  { c with
    flags := fl.flags + (if us.any (fun u => decide (u.dflts > 0)) || c.ppos.any (fun p => p.kind == .dflt) then fDefault else 0) +
      (if us.any (fun u => decide (u.degr > 0)) then fDegraded else 0)
    rows := sumOf (us.map (fun u => u.count)), status := status }

/-- The projection matrix is in hand: it is loaded into the Pooling Array (R179). -/
def State.loadedMatrix (s : State) (c : Cmd) (home : Nat) : State :=
  let gone := c.ppos.any (fun p => match p.kind with
    | .remote _ | .bad | .failed .. => true
    | _ => false)
  if c.ppos.isEmpty || gone || !c.pevents.isEmpty then s else s.bump (PA_PROJ_LOADS home) 1

/-- Matrix rows as they stand. -/
def Cmd.matrix (c : Cmd) : List (List F32) := c.ppos.map (fun p => p.v)

/-- Positions of unit u. -/
def Cmd.posOf (c : Cmd) (d : Desc) (u : Nat) : List Pos :=
  if d.bags then
    let first := (c.offs[d.resume]?).getD 0
    let lo := (c.offs[u]?).getD 0
    (c.pos.drop (lo - first)).take ((c.offs[u + 1]?).getD 0 - lo)
  else (c.pos.drop (u - d.resume)).take 1

/-- All units that a look-up finishes. -/
def State.unitsOf (s : State) (c : Cmd) (d : Desc) (r : TableRec) (f : Fmt) (n : Nat) : List UnitOut :=
  let m := accMode d f
  let dflt := s.dfltRow r f
  let fix := fun (p : Pos) => match p.kind with
    | .remote _ => { p with v := dflt }
    | .failed .. => { p with v := dflt }
    | .bad => { p with v := dflt }
    | _ => p
  (List.range (c.limit - d.resume)).map (fun i =>
    let ps := c.posOf d (d.resume + i)
    if d.opc = oLookup then
      gatherUnit c d (d.stride n) dflt (d.resume + i) ((ps.head?).getD { idx := padIndex, kind := .pad, w := 0#32, v := [], fnd := 0 })
    else poolUnit s.id c d m f.dim (d.stride n) c.matrix n (d.resume + i) (ps.map fix))

/-- The Holm whose Pooling Array converts a unit: for a position of a LOOKUP whose term is local the Holm of its piece, else the home Holm
(R162, R173, 05 R217). -/
def Cmd.unitHolm (c : Cmd) (d : Desc) (id u : Nat) : Nat :=
  let home := (c.order[0]?).getD 0
  if d.opc = oLookup && (c.posOf d u).any (Pos.isLocal id) then (c.pieces[u / 1024 - d.resume / 1024]?).getD home else home

/-- Conversions of the units that clamped are counted (05 R217). -/
def State.countClamps (s : State) (c : Cmd) (d : Desc) (us : List UnitOut) : State :=
  us.zipIdx.foldl (fun s u => s.bump (PA_CLAMP (c.unitHolm d s.id (d.resume + u.2))) u.1.fnd.clamps) s

/-- A unit of a look-up has an event that the default row does not stand in for: what its output holds is not stated. -/
def Cmd.unitOpen (c : Cmd) (d : Desc) (u : Nat) : Bool :=
  (c.posOf d u).any (fun p => (c.posEvent d u p).any (hardEvent d.degr)) || !c.pevents.isEmpty ||
    c.ppos.any (fun p => match p.kind with | .remote _ => true | _ => false)

/-- Outputs of open units take free values. -/
def State.freeUnits (s : State) (open_ : Nat → Bool) (outs : List OutUnit) : List OutUnit × State :=
  outs.zipIdx.foldl (fun acc o =>
    if open_ o.2 then
      let r := o.1.foldl (fun (a : OutUnit × State) p => let f := a.2.freeBytes p.2.length; (a.1 ++ [(p.1, f.1)], f.2)) ([], acc.2)
      (acc.1 ++ [r.1], r.2)
    else (acc.1 ++ [o.1], acc.2)) ([], s)

/-- Finish a look-up. A corrupt entry or a bad bag offset ends it ahead of every event, with the units before it written (02 R65, 03 R124);
else its events decide, or its outputs are written (R139, R181, R428). -/
def State.finishGather (s : State) (c : Cmd) (d : Desc) : State :=
  match s.rec? d.tbl, s.ver? d.tbl c.ver with
  | some r, some v =>
    let f := s.fmtAt v.fmt
    let n := if d.opc = oPool ∧ d.project then (s.tblFmt d.ptbl).dim else f.dim
    let home := (c.order[0]?).getD 0
    let us := s.unitsOf c d r f n
    let deg := if d.degr then sumOf (us.map (fun u => u.degr)) else 0
    let counted := fun (s : State) => (s.loadedMatrix c home).bump (IX_DEGRADED home) deg
    let rest := fun (s : State) (u : Nat) => (restOfBuffer c d n f.dim u us).foldl (fun s p => s.scribble c p.1 p.2) s
    let evs := c.allEvents d s.id
    match if c.endStatus = sOk then decideEvents d.degr evs.1 evs.2 else none with
    | some (st, blk) =>
      let s := if c.inl then s else rest s d.resume
      let dflt := us.any (fun u => decide (u.dflts > 0)) || c.ppos.any (fun p => p.kind == .dflt)
      (counted s).endCmd c.handle st (fun x => { x with
        failblk := blk, flags := (if dflt then fDefault else 0) + (if deg > 0 then fDegraded else 0) })
    | none =>
      let fo := s.freeUnits (fun i => c.unitOpen d (d.resume + i)) (layout c d n f.dim us)
      let outs := fo.1
      let s := fo.2
      let us := us.zipIdx.map (fun u => if c.unitOpen d (d.resume + u.2) then { u.1 with fnd := .none, count := 0, dflts := 0, degr := 0 } else u.1)
      let whole := if c.endStatus ≠ sOk then c.endStatus else if deg > 0 then sDegraded else sOk
      let close := fun (s : State) => (counted s).countClamps c d us
      if c.inl then
        let fr := if d.resume = 0 then ([], s) else s.freeBytes 128
        (close fr.2).endCmd c.handle whole (fun x => { reportUnits whole us x with result := inlineResult d fr.1 outs })
      else
        let w := s.writeUnits c d.resume outs (.ringWrite c.ring) 1
        match w.2 with
        | .done =>
          let s := if c.endStatus ≠ sOk then rest w.1 c.limit else w.1
          (close s).endCmd c.handle whole (reportUnits whole us)
        | .stop u st a =>
          let x := us.take (u - d.resume)
          if st = sUnreach then (close w.1).endCmd c.handle st (fun y => { reportUnits st x y with failblk := gBlock a })
          else (rest (close w.1) u).endCmd c.handle st (fun y => { reportUnits st x y with faultaddr := if st = sTransFault then a else 0 })
        | .retry u => (close w.1).endCmd c.handle sPartial (fun y => { reportUnits sPartial (us.take (u - d.resume)) y with residx := u })
        | .held a => w.1.waitOn c.handle a
  | _, _ => s.endWith c.handle sBadTable

/-- Replies for which a look-up still waits. -/
def State.gatherWaits (s : State) (c : Cmd) : Bool :=
  !c.unsent.isEmpty || s.fab.xchg.any (fun x => x.handle == c.handle && (match x.kind with
    | .bundle | .proj | .entry .. => true
    | _ => false))

/-- Run a look-up as far as it goes. -/
def State.runGather (s : State) (h : Nat) : State :=
  match s.cmd? h with
  | none => s
  | some c0 =>
    let d := Desc.of c0.desc
    let b := s.begin_ c0
    match b.2, b.1.cmd? h with
    | true, some c =>
      let s := b.1
      let start := fun (s : State) =>
        let l := s.readLists c d
        match l.2 with
        | none => l.1
        | some lists =>
          let n := if d.opc = oPool ∧ d.project then (l.1.tblFmt d.ptbl).dim else (l.1.tblFmt d.tbl).dim
          let mb := l.1.readMapByte c d n
          match mb.2 with
          | none => mb.1.upCmd h (fun x => { x with phase := .waiting })
          | some m => mb.1.gatherStart c d lists m
      let s := if c.stage = 0 then start s else s
      match s.cmd? h with
      | some c => if c.phase = .waiting ∧ c.stage = 1 ∧ !s.gatherWaits c then s.finishGather c d else s
      | none => s
    | _, _ => b.1

-- Replies (09 R356, R357)

/-- Rows asked for by a READ_REQ. -/
def readRows (msg : List Byte) : List Nat := nums (msg.drop 48) 8 (leAt msg 26 2)

/-- Bags of a POOL_REQ: number, positions, address of an extension list, and the inline list. -/
def poolBags (weighted : Bool) : Nat → List Byte → List (Nat × Nat × Nat × List Byte)
  | 0, _ => []
  | k + 1, bs =>
    let n := leAt bs 4 4
    let ext := leAt bs 8 8
    let len := if ext = 0 then 8 * n + (if weighted then padTo 8 (4 * n) else 0) else 0
    (leAt bs 0 4, n, ext, (bs.drop 16).take len) :: poolBags weighted k (bs.drop (16 + len))

def msgBags (msg : List Byte) : List (Nat × Nat × Nat × List Byte) :=
  poolBags (bits (leAt msg 19 1) 0 2 == 3) (leAt msg 26 2) (msg.drop 48)

/-- Partials of a POOL_REPLY. -/
def replyParts (owner xid dim : Nat) (comp : Bool) : Nat → List Byte → List Part
  | 0, _ => []
  | k + 1, bs =>
    let size := 8 + 4 * dim * (if comp then 2 else 1)
    { owner := owner, xid := xid, bag := leAt bs 0 4, s := floats (bs.drop 8) dim
      c := if comp then floats (bs.drop (8 + 4 * dim)) dim else List.replicate dim 0#32
      ndeg := leAt bs 5 3, flags := leAt bs 4 1 } :: replyParts owner xid dim comp k (bs.drop size)

/-- Rows of a READ_REPLY: bytes and degraded mark. -/
def replyRows (stride : Nat) (body : List Byte) : List (List Byte × Bool) :=
  let n := leAt body 0 4
  let rows := (chunks stride ((body.drop 16).take (n * stride))).take n
  let map := body.drop (16 + n * stride)
  rows.zipIdx.map (fun p => (p.1, bit (leAt map (p.2 / 8) 1) (p.2 % 8)))

/-- The event that a reply's status names (09 R357). -/
def replyEvent (degrade : Bool) (st : Nat) : Nat :=
  if st = sDenied then 7 else if st = sUncorr then (if degrade then 6 else 5) else if st = sTimeout then 1 else 2

-- Refresh after STALE_OWNER (R159; 12 R457)

/-- Positions of a remote owner that no exchange under way will answer and whose owner has no event. -/
def State.unanswered (s : State) (c : Cmd) (answered : Nat → Pos → Bool) (p : Nat × Pos) : Bool :=
  match p.2.kind with
  | .remote o => !(answered o p.2) && !(c.events.any (fun e => e.2 == o)) && !(s.fab.xchg.any (fun x => some x.xid == p.2.xid))
  | _ => false

/-- Resolve again the positions of a list that a predicate names, and fetch what is now here: the list, and whether one of them is in a group
with a corrupt entry. -/
def State.resolveAgain (s : State) (r : TableRec) (v : Version) (part : Nat) (open_ : Nat × Pos → Bool) (l : List Pos) :
    State × List Pos × Option Nat :=
  let named := l.zipIdx.map (fun p => (p.1, open_ (p.2, p.1)))
  let idx := sortUnique ((named.filter (fun p => p.2)).map (fun p => p.1.idx))
  if idx.isEmpty then (s, l, none)
  else
    let x := s.resolveAll r v part idx []
    let bad := x.2.corruptAt.bind (fun i => idx[i]?)
    (x.1, named.map (fun p => if !p.2 then p.1 else match x.2.pos.find? (fun q => q.idx == p.1.idx) with
      | some q => { q with w := p.1.w }
      | none => p.1), named.findIdx? (fun p => p.2 && some p.1.idx == bad))

/-- The entries are in: resolve again what has no answer, fetch what is now here, count the uses of the default row (02 R61), and ask the
new owners. A corrupt entry ends the command, with the units before its first position written (02 R65). -/
def State.regather (s : State) (c : Cmd) (d : Desc) : State :=
  match s.rec? d.tbl, s.ver? d.tbl c.ver with
  | some r, some v =>
    let home := (c.order[0]?).getD 0
    let part := s.ringPart c.ring
    let dfl := fun (l : List Pos) => (l.filter (fun p => p.kind == .dflt)).length
    let x := s.resolveAgain r v part (fun p => s.unanswered c (fun o q => c.replied d o (unitOf d c.offs p.1) q) p) c.pos
    let y := match s.rec? d.ptbl, s.ver? d.ptbl c.pver with
      | some pr, some pv => x.1.resolveAgain pr pv part (x.1.unanswered c (fun _ _ => false)) c.ppos
      | _, _ => (x.1, c.ppos, none)
    let s := y.1.bump (IX_DEFAULT home) (dfl x.2.1 - dfl c.pos + (dfl y.2.1 - dfl c.ppos))
    if y.2.2.isSome then (s.freeDest c.handle sBadTable).endWith c.handle sBadTable
    else
      let first := (c.offs[d.resume]?).getD 0
      let cut := match x.2.2 with
        | some p => unitOf d c.offs p
        | none => c.limit
      let keep := if d.bags then (c.offs[cut]?).getD 0 - first else cut - d.resume
      let pev := y.2.1.filterMap (fun p => match p.kind with
        | .failed o e => some (e, o)
        | .bad => some (5, s.id)
        | _ => none)
      let c2 := { c with pos := x.2.1.take keep, ppos := y.2.1, limit := cut, endStatus := if cut < c.limit then sBadTable else c.endStatus
                         pevents := pev.foldl (fun l e => addOnce e l) c.pevents }
      (s.upCmd c.handle (fun _ => c2)).sendBundles c2 d
  | _, _ => s

/-- The row groups that an exchange's positions name. -/
def askedGroups (xid : Nat) (l : List Pos) : List Nat := sortUnique ((l.filter (fun p => p.xid == some xid)).map (fun p => p.idx / 4096))

/-- A STALE_OWNER reply: ask the coordinator for the groups, while time remains before the remote cutoff (12 R457). A coordinator has the
entries itself. -/
def State.staleBundle (s : State) (c : Cmd) (d : Desc) (xid : Nat) (proj : Bool) : State :=
  let s := s.bump TK_STALE 1
  let t := if proj then d.ptbl else d.tbl
  let v := if proj then c.pver else c.ver
  match s.coordinator t with
  | none => s
  | some b =>
    if decide (s.ctl.now ≥ c.deadline) then s
    else if b = s.id then s.regather c d
    else if s.noRoute b then s
    else (askedGroups xid (if proj then c.ppos else c.pos)).foldl (fun s g => s.askTk b c.handle (.entry t v g) (.entryFetch t v g)) s

/-- Rows of the matrix that a reply brings. -/
def fillMatrix (rows : List (Nat × List Byte)) (dim : Nat) (l : List Pos) : List Pos :=
  l.map (fun p => match p.kind, lookupBy p.idx rows with
    | .remote _, some bs => { p with kind := .loc, v := floats bs dim }
    | _, _ => p)

/-- A look-up reply that its command still awaits. -/
def State.takeReply (s : State) (x : Xchg) (pool : Bool) (msg : List Byte) : State :=
  match s.cmd? x.handle with
  | none => s.dropXchg x.xid
  | some c =>
    let d := Desc.of c.desc
    let st := mStatus msg
    let proj := x.kind == .proj
    let body := msg.drop 16
    if st = 0xF0 then (s.dropXchg x.xid).staleBundle c d x.xid proj
    else if st ≠ 0 then
      (s.dropXchg x.xid).upCmd x.handle (fun c =>
        if proj then { c with pevents := c.pevents ++ [(replyEvent false st, x.dst)]
                              ppos := c.ppos.map (fun p => if p.kind == .remote x.dst then { p with kind := .bad } else p) }
        else { c with events := c.events ++ [(replyEvent d.degr st, x.dst)] })
    else if proj then
      let dim := (s.tblFmt d.ptbl).dim
      let left := (readRows x.msg).filter (fun i => c.ppos.any (fun p => p.kind == .remote x.dst && p.idx == i))
      let rows := left.zip ((replyRows (padTo 16 (4 * dim)) body).map (fun p => p.1))
      let s := s.upCmd x.handle (fun c => { c with ppos := fillMatrix rows dim c.ppos })
      if rows.length < left.length then s else s.dropXchg x.xid
    else if pool then
      let dim := (s.verFmt d.tbl c.ver).dim
      let ps := (replyParts x.dst x.xid dim d.comp (leAt body 0 4) (body.drop 16)).filter (fun p =>
        !(c.parts.any (fun q => q.xid == p.xid && q.bag == p.bag)))
      let c2 := { c with parts := c.parts ++ ps }
      let s := s.upCmd x.handle (fun _ => c2)
      if (msgBags x.msg).all (fun b => c2.parts.any (fun q => q.xid == x.xid && q.bag == b.1)) then s.dropXchg x.xid else s
    else
      let dim := (s.verFmt d.tbl c.ver).dim
      let asked := readRows x.msg
      let left := asked.filter (fun i => !(c.got.any (fun g => g.1 == x.dst && g.2.1 == i)))
      let rows := left.zip (replyRows (d.stride dim) body)
      let fl := Findings.ofByte (leAt body 4 1)
      let s := s.upCmd x.handle (fun c => { c with
        got := c.got ++ rows.map (fun p => (x.dst, p.1, p.2.1, p.2.2))
        pos := if fl = Findings.none then c.pos else c.pos.map (fun p =>
          if p.kind == .remote x.dst && rows.any (fun q => q.1 == p.idx) then { p with fnd := fl.toByte } else p) })
      if rows.length < left.length then s else s.dropXchg x.xid

/-- READ_REPLY and POOL_REPLY (09 R353, R356): a reply that nobody awaits, or that arrives after the cutoff of its command, is late and
discarded (R166). -/
def State.gatherReply (s : State) (src : Nat) (pool : Bool) (msg : List Byte) : State × Option Nat :=
  match s.xchg? src (mXid msg) with
  | some x =>
    match x.kind with
    | .bundle | .proj =>
      if (s.cmd? x.handle).any (fun c => decide (c.deadline < s.ctl.now)) then (s.bump FP_LATE_REPLY 1, none)
      else (s.takeReply x pool msg, some x.handle)
    | _ => (s, none)
  | none => (s.bump FP_LATE_REPLY 1, none)

/-- The remote cutoff (R166): parts of replies that have not fully arrived count as missing. -/
def State.cutGather (s : State) (c : Cmd) : State :=
  let out := s.fab.xchg.filter (fun x => x.handle == c.handle && x.kind == .bundle)
  let goneRow := fun (o i : Nat) => out.any (fun x => x.dst == o && (readRows x.msg).contains i)
  let pool := leAt c.desc 0 1 == oPool
  let s := s.release c.handle
  let c2 := { c with unsent := []
                     parts := c.parts.filter (fun p => !(out.any (fun x => x.xid == p.xid)))
                     got := if pool then c.got else c.got.filter (fun g => !(goneRow g.1 g.2.1)) }
  s.upCmd c.handle (fun _ => c2)

-- Service (R165; 09 R354 to R357)

/-- The partition of work for other blocks (08 R319). -/
def State.remotePart (s : State) : Nat := s.fld RC_GLOBAL_CFG 22 4

/-- Rows of a request held here as primary: the group of each index, or none when one is missing. -/
def State.heldRows (s : State) (tbl ver : Nat) (idx : List Nat) : Bool :=
  idx.all (fun i => match s.group? tbl ver (i / 4096) with
    | some g => !g.secondary
    | none => false)

/-- Rows of a bundle, fetched once for all of its messages (R156): what an earlier message has fetched is used again, and the rest is kept
until the remote cutoff of the bundle. -/
def State.fetchServed (s : State) (src handle relcut t ver : Nat) (f : Fmt) (l : List Nat) : State × List (Nat × Fetched) :=
  let mine := fun (x : ServedRow) (i : Nat) => x.src == src && x.handle == handle && x.tbl == t && x.ver == ver && x.row == i
  let s := s.upTab (fun y => { y with srvRows := y.srvRows.filter (fun x => decide (s.ctl.now ≤ x.due)) })
  let old := l.filterMap (fun i => (s.tab.srvRows.find? (fun x => mine x i)).map (fun x => (i, match x.val with
    | some v => Fetched.row v.1 (Findings.ofByte v.2)
    | none => .bad)))
  let x := s.fetchLocal t ver s.remotePart f (l.filter (fun i => (lookupBy i old).isNone))
  let keep := x.2.filterMap (fun p => match p.2 with
    | .noEntry => none
    | .bad => some { src := src, handle := handle, tbl := t, ver := ver, row := p.1, val := none, due := s.ctl.now + relcut * ns : ServedRow }
    | .row v fl => some { src := src, handle := handle, tbl := t, ver := ver, row := p.1, val := some (v, fl.toByte), due := s.ctl.now + relcut * ns })
  (x.1.upTab (fun y => { y with srvRows := y.srvRows ++ keep }), old ++ x.2)

/-- One bag summed for another block: bytes of its entry, findings, and whether a row could not be read. -/
def serveBag (m : AccMode) (dim bag : Nat) (weighted comp : Bool) (rows : List (Nat × Fetched)) (dflt : List F32)
    (idx : List Nat) (w : List F32) : List Byte × Findings × Bool :=
  let ts := idx.zipIdx.map (fun p =>
    let wt := if weighted then some ((w[p.2]?).getD 0#32) else none
    match lookupBy p.1 rows with
    | some (.row v fl) => ((wt, v), fl, false)
    | _ => ((wt, dflt), Findings.none, true))
  let r := partialSum m dim (ts.map (fun t => t.1))
  let fl := ts.foldl (fun (a : Findings) t => a.or t.2.1) r.2
  let nd := (ts.filter (fun t => t.2.2)).length
  (leBytes 4 bag ++ leBytes 1 (b2n (decide (nd > 0)) + 2 * fl.toByte) ++ leBytes 3 (min nd 0xFFFFFF) ++
    (r.1.map (fun p => leBytes 4 p.1.toNat)).flatten ++ (if comp then (r.1.map (fun p => leBytes 4 p.2.toNat)).flatten else []),
   fl, decide (nd > 0))

/-- A reply header (09 R356). -/
def replyHeader (n : Nat) (f : Findings) : List Byte := leBytes 4 n ++ leBytes 1 f.toByte ++ zeros 11

/-- What the rows of a request allow: none when a residency entry cannot be read, or, without DEGRADE_OK, a row (R181, R182). -/
def servable (degr : Bool) (rows : List (Nat × Fetched)) : Bool :=
  rows.all (fun x => match x.2 with
    | .row .. => true
    | .bad => degr
    | .noEntry => false)

/-- Answer a READ_REQ whose rows are held. Its conversions are counted at the first Holm online (DESIGN CHOICE, log 107). -/
def State.serveRead (s : State) (src lane : Nat) (msg : List Byte) (r : TableRec) (ver : Nat) : State :=
  let f := s.verFmt r.tbl ver
  let idx := readRows msg
  let ofmt := leAt msg 24 1
  let degr := bit (leAt msg 19 1) 3
  let x := s.fetchLocal r.tbl ver s.remotePart f (sortUnique idx)
  let s := x.1
  let dflt := s.dfltRow r f
  let stride := padTo 16 (f.dim * osize ofmt)
  let rows := idx.map (fun i => match lookupBy i x.2 with
    | some (.row v fl) => let o := outBytes ofmt stride v; (o.1, o.2.or fl, false)
    | _ => let o := outBytes ofmt stride dflt; (o.1, o.2, true))
  if !servable degr x.2 then s.answer src lane msg sUncorr []
  else
    let fl := rows.foldl (fun (a : Findings) y => a.or y.2.1) Findings.none
    let s := s.bump (PA_CLAMP ((s.holmsOnline.head?).getD 0)) fl.clamps
    (chunks ((65536 - 64) / (stride + 1)) rows).foldl (fun s l =>
      let map := (List.range (padTo 16 ((l.length + 7) / 8))).map (fun i => BitVec.ofNat 8 ((upTo 8).foldl (fun m j =>
        if ((l[i * 8 + j]?).map (fun y => y.2.2)).getD false then m + 2 ^ j else m) 0))
      s.answer src lane msg 0 (replyHeader l.length fl ++ (l.map (fun y => y.1)).flatten ++ map)) s

/-- Answer a POOL_REQ whose lists are at hand. -/
def State.servePool (s : State) (src lane : Nat) (msg : List Byte) (r : TableRec) (ver : Nat) (lists : List (Nat × List Byte)) : State :=
  let f := s.verFmt r.tbl ver
  let rf := leAt msg 19 1
  let weighted := bits rf 0 2 == 3
  let m := if f.intacc then AccMode.int else if bit rf 2 then .comp else .plain
  let bags := (msgBags msg).map (fun b =>
    let bs := if b.2.2.1 = 0 then b.2.2.2 else (lookupBy b.2.2.1 lists).getD []
    (b.1, nums bs 8 b.2.1, if weighted then floats (bs.drop (8 * b.2.1)) b.2.1 else []))
  let idx := sortUnique (bags.map (fun b => b.2.1)).flatten
  if !s.heldRows r.tbl ver idx then s.answer src lane msg 0xF0 []
  else
    let x := s.fetchServed src (mHandle msg) (leAt msg 28 4) r.tbl ver f idx
    let s := x.1
    let outs := bags.map (fun b => serveBag m f.dim b.1 weighted (bit rf 2) x.2 (s.dfltRow r f) b.2.1 b.2.2)
    if !servable (bit rf 3) x.2 then s.answer src lane msg sUncorr []
    else
      let fl := outs.foldl (fun (a : Findings) o => a.or o.2.1) Findings.none
      (packEntries (65536 - 32) (outs.map (fun o => o.1))).foldl (fun s l =>
        s.answer src lane msg 0 (replyHeader l.length fl ++ l.flatten)) s

/-- A bundle arrives (R165, R52, 09 R355, 12 R457): an extension list is read first. -/
def State.serveBundle (s : State) (src : Nat) (pool : Bool) (msg : List Byte) : State :=
  let lane := s.laneOf src msg 1
  let tbl := leAt msg 16 3
  let ver := leAt msg 20 2
  let ctx := leAt msg 22 2
  match s.rec? tbl with
  | none => s.answer src lane msg 0xF0 []
  | some r =>
    if ctx = 0 ∨ ctxDenied r ctx true then s.deny.answer src lane msg sDenied []
    else if !pool then
      if s.heldRows tbl ver (readRows msg) then s.serveRead src lane msg r ver else s.answer src lane msg 0xF0 []
    else
      let ext := (msgBags msg).filter (fun b => b.2.2.1 != 0)
      if ext.isEmpty then s.servePool src lane msg r ver []
      else
        let weighted := bits (leAt msg 19 1) 0 2 == 3
        let id := s.tab.nextOp
        let s := s.upTab (fun t => { t with
          nextOp := id + 1, served := t.served ++ [{ id := id, src := src, lane := lane, msg := msg, lists := [], left := ext.length }] })
        ext.foldl (fun s b =>
          let n := 8 * b.2.1 + (if weighted then padTo 8 (4 * b.2.1) else 0)
          (pageBatches b.2.2.1 n).foldl (fun s p =>
            s.request (gBlock p.1) lane 0x09 noHandle.toNat (.extRead id p.1) (leBytes 8 p.1 ++ leBytes 4 p.2 ++ leBytes 2 ctx ++ leBytes 2 0)) s) s
where
  /-- MEM_READs of at most 65,504 B (09 R362). -/
  pageBatches (a n : Nat) : List (Nat × Nat) :=
    (List.range (ceilDiv n 65504)).map (fun i => (a + i * 65504, min 65504 (n - i * 65504)))

/-- Part of an extension list has arrived: serve the bundle once every part has. -/
def State.extArrived (s : State) (id addr : Nat) (bs : List Byte) : State :=
  match s.tab.served.find? (fun v => v.id == id) with
  | none => s
  | some v =>
    let v2 := { v with lists := insertBy addr bs v.lists }
    if s.fab.xchg.any (fun x => match x.kind with | .extRead i _ => i == id | _ => false) then
      s.upTab (fun t => { t with served := t.served.map (fun y => if y.id == id then v2 else y) })
    else
      let s := s.upTab (fun t => { t with served := t.served.filter (fun y => y.id != id) })
      -- parts of one list follow one another in ascending address order
      let joined := (msgBags v.msg).filterMap (fun b =>
        if b.2.2.1 = 0 then none
        else
          let n := 8 * b.2.1 + (if bits (leAt v.msg 19 1) 0 2 = 3 then padTo 8 (4 * b.2.1) else 0)
          some (b.2.2.1, ((v2.lists.filter (fun l => decide (b.2.2.1 ≤ l.1 ∧ l.1 < b.2.2.1 + n))).map (fun l => l.2)).flatten))
      match s.rec? (leAt v.msg 16 3) with
      | none => s.answer v.src v.lane v.msg 0xF0 []
      | some r => s.servePool v.src v.lane v.msg r (leAt v.msg 20 2) joined

end Sys2Proof.Machine
end

