-- ==== Sys2Proof/Machine/Keeper.lean ====
section
/-! DEFINITION. Shared parts of the Table Keeper (12): registry entries, holders, updates, placement entries and copies. -/

namespace Sys2Proof.Machine

def State.reg? (s : State) (t : Nat) : Option RegEntry := s.tab.registry.find? (fun e => e.tbl == t)
def State.upReg (s : State) (t : Nat) (f : RegEntry → RegEntry) : State :=
  s.upTab (fun x => { x with registry := updFirst (fun e => e.tbl == t) f x.registry })

/-- The registry block that mirrors a table's entry (12 R447). -/
def State.mirrorOf (s : State) (t : Nat) : Option Nat :=
  let l := s.registryList
  let i := t % max l.length 1
  let alive := (l.drop i ++ l.take i).filter s.regAlive
  alive[1]?

/-- The holder set of a table (12 R449). -/
def State.holders (s : State) (t : Nat) : List Nat := ((s.reg? t).map (fun e => e.holders)).getD []

/-- The other blocks that follow a table's changes at its coordinator, without those marked failed: the holder set and the mirror. -/
def State.others (s : State) (t : Nat) : List Nat :=
  let l := match s.mirrorOf t with
    | some b => addOnce b (s.holders t)
    | none => s.holders t
  l.filter (fun b => b != s.id && !s.isFailed b)

/-- The block that holds the secondary copy of a group by the replica map, or as assigned (12 R453). -/
def State.secondaryOf (s : State) (t g : Nat) : Option Nat :=
  match (s.reg? t).bind (fun e => lookupBy g e.replicas) with
  | some b => some b
  | none => (s.rec? t).bind (fun r => if r.repl2 then r.owners[(g + 1) % max r.owners.length 1]? else none)

/-- Send an update to every other holder and the mirror, and await each acknowledgement (12 R447, R451). -/
def State.sendUpdate (s : State) (t : Nat) (u : TkUpdate) : State :=
  (s.others t).foldl (fun s b => s.askTk b noHandle.toNat .update (.update u)) s

/-- A placement entry of a version held here takes a value. -/
def State.applyEntry (s : State) (t v g : Nat) (e : PEntry) : State :=
  match s.ver? t v with
  | some x => s.setPentry x.pmap g e
  | none => s

/-- The coordinator changes an entry at every holder. -/
def State.pushEntry (s : State) (t v g : Nat) (e : PEntry) : State := (s.applyEntry t v g e).sendUpdate t (.entry t v g e)

/-- A secondary that did not confirm: its entry loses REPL at the coordinator and a rebuild is due, or the coordinator is told (06 R235,
12 R469). -/
def State.reportSecondary (s : State) (t v g : Nat) : State :=
  match s.coordinator t with
  | none => s
  | some b =>
    if b = s.id then
      match s.ver? t v with
      | some x => (s.pushEntry t v g { s.pentry x.pmap g with repl := false }).upTab (fun y => { y with rebuilds := addOnce (t, v, g) y.rebuilds })
      | none => s
    else s.sendTk b noHandle.toNat (.secondaryLost t v g)

/-- The partition of the Table Keeper's own traffic (08 R319). -/
def State.tkPart (s : State) : Nat := s.fld MT_CFG 31 4

-- Copies (06 R235, 12 R466)

/-- Recent identifiers for rows of a group. -/
def State.logOf (s : State) (g : Nat) : List (Nat × Nat × Nat) :=
  (s.tab.recent.filter (fun x => x.2.2.1 / 4096 == g)).map (fun x => (x.1, x.2.1, x.2.2.1))

/-- Words of a group's storage that hold rows, or their accumulators, and cannot be corrected (08 R310). -/
def State.badRows (s : State) (x : Group) (f : Fmt) (recipe : Nat) (ps : List Nat) : List Nat :=
  let at_ := fun (off n : Nat) => (s.badWords (memKey x.tier (x.base + off)) n).map (fun w => w + off / 8)
  (ps.map (fun p => at_ (p * f.size) f.size ++ (if recipe = 3 then at_ ((4096 * f.size + 4 * p) / 8 * 8) 8 else []))).flatten

/-- The stored bytes of rows of a group, with accumulators, as a copy for another block. -/
def State.copyRows (s : State) (x : Group) (f : Fmt) (recipe : Nat) (ps : List Nat) : CopyData :=
  { tbl := x.tbl, ver := x.ver, group := x.g
    rows := ps.map (fun p => (p, s.bytesAt (memKey x.tier (x.rowOff f p)) f.size))
    accs := if recipe = 3 then ps.map (fun p => (p, s.bytesAt (memKey x.tier (x.accOff f p)) 4)) else []
    held := [], taken := [], bad := s.badRows x f recipe ps, step := none, load := x.load, log := [] }

/-- The whole group with its log and held partials. -/
def State.copyGroup (s : State) (x : Group) (f : Fmt) (recipe : Nat) : CopyData :=
  { s.copyRows x f recipe (List.range 4096) with
    held := (s.tab.slots.filter (fun z => z.tbl == x.tbl && z.ver == x.ver && z.row / 4096 == x.g && !z.mirror)).filterMap (fun z =>
      z.val.map (fun v => { tbl := z.tbl, ver := z.ver, src := z.src, row := z.row, plain := z.plain, val := v }))
    log := s.logOf x.g }

/-- Bytes of a slot of the ordered pool (06 R238). -/
def slotSize (nel : Nat) : Nat := 64 + (4 * nel + 63) / 64 * 64

/-- MT_ORD_POOL_USED follows the slots. -/
def State.syncPool (s : State) : State :=
  s.setFld MT_ORD_POOL_USED 0 46 (sumOf ((s.tab.slots.filter (fun z => !z.mirror)).map (fun z => slotSize z.nel)))

/-- A held partial takes a value: its slot, or a new one. -/
def State.holdPartial (s : State) (h : HeldData) (mirror : Bool) (user : Option (Nat × Nat)) : State :=
  let same := fun (z : Slot) => z.tbl == h.tbl && z.ver == h.ver && z.src == h.src && z.row == h.row && z.plain == h.plain &&
    z.mirror == mirror
  let drop := fun (l : List (Nat × Nat)) => l.filter (fun x => user != some x)
  (if s.tab.slots.any same then
    s.upTab (fun t => { t with slots := updFirst same (fun z => { z with val := some h.val, users := drop z.users, ended := drop z.ended }) t.slots })
  else
    let z : Slot := { tbl := h.tbl, ver := h.ver, src := h.src, row := h.row, plain := h.plain, nel := h.val.length
                      val := some h.val, users := [], mirror := mirror }
    s.upTab (fun t => { t with slots := t.slots ++ [z] })).syncPool

/-- A group is held here in a tier that is in service (08 R315). -/
def State.groupUp (s : State) (t v g : Nat) : Bool := (s.group? t v g).any (fun x => !s.tierOut x.tier)

/-- Store a copy in a group held here: bytes as sent, nothing computed (06 R235); the accumulators cost their sectors (08 R317). Mirrored
partials that a commit has taken go. -/
def State.storeCopy (s : State) (d : CopyData) : State :=
  match s.group? d.tbl d.ver d.group with
  | none => s
  | some x =>
    let f := s.verFmt d.tbl d.ver
    let s := d.rows.foldl (fun s r => (s.putData (memKey x.tier (x.rowOff f r.1)) (fitTo f.size r.2)).charge x.tier s.tkPart
      (transfersOf x.tier (x.rowOff f r.1) f.size) true) s
    let s := d.accs.foldl (fun s r => (s.putData (memKey x.tier (x.accOff f r.1)) (fitTo 4 r.2)).charge x.tier s.tkPart
      (transfersOf x.tier (x.accOff f r.1) 4) true) s
    let s := s.spoil (memKey x.tier x.base) d.bad
    let s := d.held.foldl (fun s h => s.holdPartial h true none) s
    let gone := fun (z : Slot) => z.mirror && z.tbl == d.tbl && z.ver == d.ver && d.taken.contains z.row
    let s := s.upTab (fun t => { t with slots := t.slots.filter (fun z => !(gone z)) })
    let s := s.upTab (fun t => { t with
      recent := t.recent ++ (d.log.filter (fun z => !(t.recent.any (fun r => r.1 == z.1 && r.2.1 == z.2.1 && r.2.2.1 == z.2.2)))).map
        (fun z => (z.1, z.2.1, z.2.2, s.ctl.now)) })
    s.upGroup d.tbl d.ver d.group (fun y => { y with step := d.step.getD y.step })

end Sys2Proof.Machine
end

