-- ==== Sys2Proof/Machine/Adder.lean ====
section
/-! DEFINITION. The adder sites (06): recipes, stores, the recent-add log, ordered partials, carried and forwarded adds, the
journal, acknowledgements and commits. -/

namespace Sys2Proof.Machine

-- One add to one row (R230, R231)

/-- A parameter of the recipe block (R227). -/
def State.recipeParam (s : State) (r : TableRec) (off : Nat) : F32 := BitVec.ofNat 32 (s.numAt (gKey r.rcpp + off) 4)

/-- Exact elements of a stored row: values, or factors for code 9. -/
def storedElems (f : Fmt) (row : List Byte) : List FV :=
  if f.code = 5 then (List.range f.dim).map (fun j => ((FV.ofInt (intCode f row j)).mul (rowScale f row)).add (rowBias f row))
  else if f.code = 6 then (List.range f.dim).map (fun j => (FV.ofInt (intCode f row j)).mul (rowScale f row))
  else
    let c := if f.code = 9 then f.efmt else f.code
    (elems row 0 (esize c) f.nel).map (fmtOf c).decode

/-- An integer row whose header leaves no exact quotient (R231). -/
def badScale (f : Fmt) (row : List Byte) : Bool :=
  (f.code == 5 || f.code == 6) &&
  ((match rowScale f row with | .fin _ n _ => n == 0 | _ => true) || (match rowBias f row with | .fin .. => false | _ => true))

/-- The new accumulator and the divisor of row-wise Adagrad, with findings. -/
def adagrad (acc eps : F32) (g : List F32) : F32 × F32 × Findings :=
  let sq := g.foldl (fun (a : F32 × Findings) x => let r := ffma a.1 x x; (r.1, a.2.or r.2)) (0#32, .none)
  let m := fdivCount sq.1 g.length
  let a := fadd acc m.1
  let d := fsqrtPlus a.1 eps
  (a.1, d.1, sq.2.or (m.2.or (a.2.or d.2)))

/-- The exact new value of one element. -/
def recipeStep (recipe : Nat) (lr decay den : FV) (v g : FV) : FV :=
  if recipe = 1 then v.add (lr.mul g).neg
  else if recipe = 2 then v.add (lr.mul (g.add (decay.mul v))).neg
  else if recipe = 3 then v.add ((lr.mul g).div den).neg
  else v.add g

/-- store(x, j): the code of one element with findings (R231). -/
def storeElem (f : Fmt) (row : List Byte) (key i seqn : Nat) (x : FV) (j : Nat) : Nat × Findings :=
  let bits_ := roundBits key i j seqn
  if f.code = 5 ∨ f.code = 6 then
    let lo : Int := if f.code = 5 then -128 else -8
    let q := stochInt lo (-lo - 1) ((x.add (rowBias f row).neg).div (rowScale f row)) bits_
    ((q.1 % 256).toNat, q.2)
  else
    let c := if f.code = 9 then f.efmt else f.code
    if c = 0 then fp32.rne x else (fmtOf c).stoch x bits_

/-- Put codes back into the bytes of a row; header and padding stay. -/
def packRow (f : Fmt) (row : List Byte) (codes : List Nat) : List Byte :=
  let body := if f.code = 6 then
      (List.range ((f.dim + 1) / 2)).map (fun k =>
        let old := leAt row (f.header + k) 1
        let lo := (codes[2 * k]?).getD 0 % 16
        let hi := match codes[2 * k + 1]? with
          | some h => h % 16
          | none => old / 16
        BitVec.ofNat 8 (lo + 16 * hi))
    else
      let w := if f.code = 5 then 1 else esize (if f.code = 9 then f.efmt else f.code)
      (codes.map (leBytes w)).flatten
  row.take f.header ++ body ++ row.drop (f.header + body.length)

/-- The new bytes of a row, the new accumulator, and the findings (R230, R231). -/
def addToRow (f : Fmt) (recipe : Nat) (lr decay eps acc : F32) (key i seqn : Nat) (row : List Byte) (g : List F32) :
    List Byte × F32 × Findings :=
  let v := storedElems f row
  let ad := if recipe = 3 then adagrad acc eps g else (acc, 0#32, .none)
  let xs := (v.zip g).map (fun p => recipeStep recipe (fv lr) (fv decay) (fv ad.2.1) p.1 (fv p.2))
  let st := xs.zipIdx.map (fun x => storeElem f row key i seqn x.1 x.2)
  let fl := st.foldl (fun (a : Findings) x => a.or x.2) ad.2.2
  let fl := (v.map FV.seen ++ g.map (fun x => (fv x).seen)).foldl (fun (a : Findings) x => a.or x) fl
  (packRow f row (st.map (fun x => x.1)), ad.1, fl)

/-- Apply a row add to a row of a group held here (R230 to R234); none when the row cannot be corrected. -/
def State.applyRow (s : State) (r : TableRec) (x : Group) (recipe row kcmd src seqn part : Nat) (commit : Bool) (g : List F32) :
    State × Option Findings :=
  let f := s.verFmt x.tbl x.ver
  let p := row % 4096
  let off := x.rowOff f p
  let acc := x.accOff f p
  if !s.tierReadOk x.tier off f.size || (recipe == 3 && !s.tierReadOk x.tier acc 4) then (s.bump MT_ADD_DROP 1, none)
  else
    let row_ := s.bytesAt (memKey x.tier off) f.size
    if badScale f row_ then ((s.bump MT_BAD_SCALE 1).bump MT_ADD_APPLIED 1, some .none)
    else
      let a := addToRow f recipe (s.recipeParam r 0) (s.recipeParam r 4) (s.recipeParam r 8)
        (BitVec.ofNat 32 (s.numAt (memKey x.tier acc) 4)) (roundingKey kcmd x.tbl src) row seqn row_ g
      let s := s.putData (memKey x.tier off) a.1
      let s := if r.through then s else s.invalidateSectors x.tier off f.size
      let s := if recipe = 3 then s.putData (memKey x.tier acc) (leBytes 4 a.2.1.toNat) else s
      let n := transfersOf x.tier off f.size + (if recipe = 3 then transfersOf x.tier acc 4 else 0)
      let s := (s.charge x.tier part n false).charge x.tier part n true
      let s := s.touch x.tbl x.ver x.g (2 * sectorsOf off f.size)
      let site := decide (f.code ≤ 4) && decide (recipe ≤ 2) && !commit
      let s := s.bump (if site then MT_CLAMP else PA_CLAMP (s.slice (lineNo x.tier off))) a.2.2.clamps
      (s.bump MT_ADD_APPLIED 1, some a.2.2)

-- Waits and the journal

def State.upWait (s : State) (w : Nat) (f : AddWait → AddWait) : State :=
  s.upTab (fun t => { t with addWaits := updFirst (fun x => x.id == w) f t.addWaits })

/-- A wait opens. -/
def State.openWait (s : State) (x : AddWait) : Nat × State :=
  (s.tab.nextOp, s.upTab (fun t => { t with nextOp := t.nextOp + 1, addWaits := t.addWaits ++ [{ x with id := t.nextOp }] }))

/-- The answer of a wait with nothing left (09 R359; 06 R242). -/
def State.answerWait (s : State) (x : AddWait) : State :=
  if x.src = s.id then
    let evs := x.drops.filterMap (fun d => if d.2 = sUncorr then some (11, s.id) else none)
    s.upCmd x.handle (fun c => if x.commit then
        { c with rows := min (c.rows + x.napplied) 0xFFFFFFFF, flags := c.flags ||| x.findings, owners := c.owners.filter (· != s.id) }
      else { c with flags := c.flags ||| x.findings, events := c.events ++ evs })
  else if x.commit then
    s.send x.src x.lane (mkMsg 0x96 0 x.handle x.xid (Config.tkEncodeAnswer s.registryList (.commit x.napplied x.findings)))
  else
    s.send x.src x.lane (mkMsg 0x83 0 x.handle x.xid (leBytes 2 x.napplied ++ leBytes 2 x.drops.length ++ leBytes 1 x.findings ++
      zeros 3 ++ (x.drops.map (fun d => leBytes 8 d.1 ++ leBytes 1 d.2 ++ zeros 7)).flatten))

/-- A wait with nothing left answers and closes. -/
def State.settleWait (s : State) (w : Nat) : State :=
  match s.tab.addWaits.find? (fun x => x.id == w) with
  | none => s
  | some x =>
    if x.left ≠ 0 then s
    else (s.upTab (fun t => { t with addWaits := t.addWaits.filter (fun y => y.id != w) })).answerWait x

/-- One thing less to wait for, with a drop or without. -/
def State.lessWait (s : State) (w : Nat) (drop : Option (Nat × Nat)) (findings : Nat) : State :=
  (s.upWait w (fun x => { x with
    left := x.left - 1, findings := x.findings ||| findings
    drops := match drop with | some d => x.drops ++ [d] | none => x.drops
    napplied := if drop.isSome && !x.commit then x.napplied - 1 else x.napplied })).settleWait w

/-- The ADD message of entries of one batch (09 R358). -/
def addBody (e : JEntry) (redelivered : Bool) (relcut : Nat) (l : List JEntry) : List Byte :=
  let nel := e.val.length
  leBytes 3 e.tbl ++ leBytes 1 (b2n e.plain + 2 * b2n e.carried + 4 * b2n redelivered) ++ leBytes 2 e.ver ++ leBytes 2 e.ctx ++
  leBytes 2 e.origin ++ leBytes 2 l.length ++ leBytes 2 nel ++ leBytes 2 0 ++ leBytes 4 relcut ++ leBytes 4 0 ++ leBytes 8 e.kcmd ++
  (l.map (fun x => leBytes 8 x.row ++ fitTo (padTo 8 (4 * nel)) (x.val.map (fun v => leBytes 4 v.toNat)).flatten)).flatten

/-- Entries that one ADD can carry together. -/
def sameBatch (a b : JEntry) : Bool :=
  a.owner == b.owner && a.tbl == b.tbl && a.ver == b.ver && a.ctx == b.ctx && a.plain == b.plain && a.carried == b.carried &&
  a.origin == b.origin && a.handle == b.handle && a.kcmd == b.kcmd && a.val.length == b.val.length

/-- Send entries to an owner in as many ADDs as they need, and keep them in the journal until they are acknowledged (R249). -/
def State.sendAdds (s : State) (redelivered : Bool) (relcut : Nat) (l : List JEntry) : State :=
  let batches := l.foldl (fun (acc : List (List JEntry)) e =>
    match acc.reverse with
    | (x :: xs) :: rest =>
      if sameBatch x e && decide ((xs.length + 2) * (8 + padTo 8 (4 * e.val.length)) ≤ 65536 - 48) then
        (rest.reverse) ++ [(x :: xs) ++ [e]]
      else acc ++ [[e]]
    | _ => acc ++ [[e]]) []
  batches.foldl (fun s b =>
    match b with
    | [] => s
    | e :: _ =>
      let xid := s.fab.xid % 2 ^ 32
      let s := s.upTab (fun t => { t with journal := t.journal ++ b.map (fun x => { x with xid := xid }) })
      s.request e.owner 3 0x03 e.handle .add (addBody e redelivered relcut b)) s

/-- The journal has room for an entry (R249). -/
def State.journalFits (s : State) (e : JEntry) : Bool := decide (s.journalUsed + jentryBytes e ≤ s.fld MT_JOURNAL_SIZE 0 32)

/-- A carried or forwarded add leaves for the owner that its group's entry names; while the group is PROMOTING it stays in the journal, not
sent, until the promotion redelivers it (R245, R251). -/
def State.launch (s : State) (e : JEntry) : State :=
  let p := (s.ver? e.tbl e.ver).map (fun v => s.pentry v.pmap (e.row / 4096))
  (match p with
   | some p =>
     if p.state = 3 then s.upTab (fun t => { t with journal := t.journal ++ [{ e with owner := p.owner, xid := 2 ^ 32 }] })
     else s.sendAdds false 0 [if (p.state = 1 ∨ p.state = 2) ∧ p.owner ≠ s.id then { e with owner := p.owner } else e]
   | none => s.sendAdds false 0 [e]).syncJournal

/-- An add that this block carries or forwards: it waits while the journal is full (R249). -/
def State.carryOut (s : State) (e : JEntry) : State :=
  if s.journalFits e then s.launch e else s.upTab (fun t => { t with carries := t.carries ++ [e] })

/-- Journal space may have come free: waiting carries leave in order, as far as it reaches (R249). -/
def State.retryCarries (s : State) : State :=
  s.tab.carries.foldl (fun s e =>
    if s.tab.carries.head? = some e ∧ s.journalFits e then (s.upTab (fun t => { t with carries := t.carries.drop 1 })).launch e else s) s

-- One add at its owner (R235 to R237, R245, R247)

/-- A row add as it reaches an owner. -/
structure AddIn where
  tbl : Nat
  ver : Nat
  ctx : Nat
  row : Nat
  val : List F32
  plain : Bool
  carried : Bool
  origin : Nat
  handle : Nat
  kcmd : Nat
  deriving DecidableEq, Repr

/-- How an add ends at its owner for now. -/
inductive AddEnd where
  | done (f : Findings)
  | drop (cause : Nat)
  | stale
  deriving DecidableEq, Repr

def causeStale : Nat := 0xF0

/-- The identifier is in the recent-add log (R236). -/
def State.recentAdd (s : State) (a : AddIn) : Bool :=
  s.tab.recent.any (fun x => x.1 == a.origin && x.2.1 == a.handle && x.2.2.1 == a.row)

def State.logAdd (s : State) (a : AddIn) : State :=
  s.upTab (fun t => { t with recent := t.recent ++ [(a.origin, a.handle, a.row, s.ctl.now)] })

/-- Mirror one row, or one held partial, at a block; the wait holds until it confirms (R235, R238, R247). -/
def State.mirrorTo (s : State) (w dst : Nat) (d : CopyData) : State :=
  (s.upWait w (fun x => { x with left := x.left + 1 })).askTk dst noHandle.toNat (.secondary w d.tbl d.ver d.group) (.replicaWrite d)

/-- The block that mirrors a group: its secondary, while REPL is set (R235). -/
def State.mirrorFor (s : State) (x : Group) : Option Nat :=
  if ((s.ver? x.tbl x.ver).map (fun v => s.pentry v.pmap x.g)).any (fun e => e.repl) then
    (s.secondaryOf x.tbl x.g).filter (fun b => b != s.id && !s.isFailed b)
  else none

/-- After an add has changed a row or a partial: copies to the secondary, and to the destination of a running move. -/
def State.mirrorAdd (s : State) (w : Nat) (x : Group) (d : CopyData) : State :=
  let s := match s.mirrorFor x with
    | some b => s.mirrorTo w b d
    | none => s
  match x.moving with
  | some b => if b = s.id then s else s.mirrorTo w b d
  | none => s

/-- The kind of an add: plain for RECIPE 1, and for every add to a table of recipe 0 (R237). -/
def AddIn.isPlain (a : AddIn) (r : TableRec) : Bool := a.plain || r.recipe == 0

/-- An add is folded into its held partial (R237), which it answers with the findings. -/
def State.foldAdd (s : State) (r : TableRec) (a : AddIn) : State × HeldData × Findings :=
  let plain := a.isPlain r
  let old := ((s.tab.slots.find? (fun z => z.tbl == a.tbl && z.ver == a.ver && z.src == a.origin && z.row == a.row &&
    z.plain == plain && !z.mirror)).bind (fun z => z.val)).getD (List.replicate a.val.length 0#32)
  let sum := (old.zip a.val).map (fun p => fadd p.1 p.2)
  let h : HeldData := { tbl := a.tbl, ver := a.ver, src := a.origin, row := a.row, plain := plain, val := sum.map (fun y => y.1) }
  ((s.holdPartial h false (some (a.origin, a.handle))).logAdd a, h, sum.foldl (fun (acc : Findings) y => acc.or y.2) Findings.none)

/-- The add reaches a version that is current or published here, in a group held here. -/
def State.addHere (s : State) (w part : Nat) (r : TableRec) (x : Group) (a : AddIn) : State × AddEnd :=
  let f := s.verFmt a.tbl a.ver
  let id := (a.origin, a.handle, a.row)
  if r.ordered && !a.carried then
    let h := s.foldAdd r a
    (h.1.mirrorAdd w x { h.1.copyRows x f r.recipe [] with held := [h.2.1], log := [id] }, .done h.2.2)
  else
    let p := s.applyRow r x (if a.isPlain r then 0 else r.recipe) a.row a.kcmd a.origin 0 part false a.val
    match p.2 with
    | none => (p.1, .drop sUncorr)
    | some fl =>
      let s := p.1.logAdd a
      (s.mirrorAdd w x { s.copyRows x f r.recipe [a.row % 4096] with log := [id] }, .done fl)

/-- The add leaves for another owner; the wait holds until it is acknowledged. -/
def State.passOn (s : State) (w owner ver : Nat) (carried : Bool) (a : AddIn) : State :=
  let e : JEntry := { owner := owner, tbl := a.tbl, ver := ver, ctx := a.ctx, row := a.row, val := a.val, plain := a.plain
                      carried := carried, origin := a.origin, handle := a.handle, kcmd := a.kcmd, xid := 2 ^ 32, wait := some w }
  (s.upWait w (fun x => { x with left := x.left + 1 })).carryOut e

/-- A group held here takes the add, or the former owner forwards it (R247). -/
def State.addAtGroup (s : State) (w part : Nat) (r : TableRec) (v : Version) (a : AddIn) : State × AddEnd :=
  match s.group? a.tbl v.ver (a.row / 4096) with
  | none => (s, .stale)
  | some x =>
    if x.secondary then (s, .stale)
    else if s.tierOut x.tier then
      -- the group's tier is out of service: the add is held until the group is RESIDENT at its new owner (12 R474)
      let j : JEntry := { owner := s.id, tbl := a.tbl, ver := v.ver, ctx := a.ctx, row := a.row, val := a.val, plain := a.plain
                          carried := a.carried, origin := a.origin, handle := a.handle, kcmd := a.kcmd, xid := 2 ^ 32, wait := some w }
      (((s.upWait w (fun x => { x with left := x.left + 1 })).upTab (fun t => { t with journal := t.journal ++ [j] })).syncJournal, .done .none)
    else if x.leaving then (s.passOn w (s.pentry v.pmap x.g).owner v.ver a.carried a, .done .none)
    else s.addHere w part r x { a with ver := v.ver }

/-- An add to a retired version (R245). -/
def State.carryAdd (s : State) (w part : Nat) (r : TableRec) (a : AddIn) : State × AddEnd :=
  let drop := fun (cause : Nat) => (s.bump MT_ADD_DROP 1, AddEnd.drop cause)
  match s.ver? a.tbl r.curVer with
  | none => drop sVersion
  | some v =>
    if !r.carry || decide (a.row ≥ r.rows) then drop sVersion
    else
      let e := s.pentry v.pmap (a.row / 4096)
      if s.corrupt e then drop sUncorr
      else if e.state = 0 then drop sVersion
      else if e.state = 4 then drop sUncorr
      else
        let s := s.bump MT_ADD_CARRY 1
        let a := { a with carried := true, ver := v.ver }
        if e.state ≠ 3 ∧ e.owner = s.id then s.addAtGroup w part r v a
        else (s.passOn w e.owner v.ver true a, .done .none)

/-- The version that follows a version (02 R53). -/
def nextVer (v : Nat) : Nat := if v = 0xFFFF then 1 else v + 1

/-- The version of an add has been retired here: it is marked so, or it is neither current, published nor still to come. -/
def State.verRetired (s : State) (r : TableRec) (v : Nat) : Bool :=
  (match s.ver? r.tbl v with
   | some x => x.st == .retired
   | none => v != r.curVer && v != r.pubVer && v != nextVer (if r.pubVer = 0 then r.curVer else r.pubVer))

/-- A late add to a retired version of an ordered table: it is held, and carried or dropped at the next commit (R245, R595). -/
def State.holdLate (s : State) (w : Nat) (r : TableRec) (a : AddIn) : State × AddEnd :=
  let h := s.foldAdd r a
  match (h.1.group? a.tbl a.ver (a.row / 4096)).filter (fun x => !x.secondary && !x.leaving) with
  | some x => (h.1.mirrorAdd w x { h.1.copyRows x (h.1.verFmt a.tbl a.ver) r.recipe [] with
      held := [h.2.1], log := [(a.origin, a.handle, a.row)] }, .done h.2.2)
  | none => (h.1, .done h.2.2)

/-- One row add at this block (R236, R245; 12 R457). -/
def State.takeAdd (s : State) (w part : Nat) (a : AddIn) : State × AddEnd :=
  match s.rec? a.tbl with
  | none => (s, .stale)
  | some r =>
    if s.recentAdd a then (s.bump MT_ADD_DUP 1, .done .none)
    else if s.verRetired r a.ver then (if r.ordered && !a.carried then s.holdLate w r a else s.carryAdd w part r a)
    else
      match s.ver? a.tbl a.ver with
      | none => (s, .stale)
      | some v => s.addAtGroup w part r v a

/-- Take a list of adds under one wait. -/
def State.takeAdds (s : State) (w part : Nat) (l : List AddIn) : State :=
  l.foldl (fun s a =>
    let r := s.takeAdd w part a
    match r.2 with
    | .done f => r.1.upWait w (fun x => { x with napplied := x.napplied + 1, findings := x.findings ||| f.toByte })
    | .drop c => r.1.upWait w (fun x => { x with drops := x.drops ++ [(a.row, c)] })
    | .stale => r.1.upWait w (fun x => { x with drops := x.drops ++ [(a.row, causeStale)] })) s

-- ADD and ADD_ACK (09 R358, R359)

/-- The adds of an ADD message. -/
def addsOf (msg : List Byte) : List AddIn :=
  let fl := leAt msg 19 1
  let nel := leAt msg 28 2
  let size := 8 + padTo 8 (4 * nel)
  ((chunks size ((msg.drop 48).take (size * leAt msg 26 2))).take (leAt msg 26 2)).map (fun e =>
    { tbl := leAt msg 16 3, ver := leAt msg 20 2, ctx := leAt msg 22 2, row := leAt e 0 8, val := floats (e.drop 8) nel, plain := bit fl 0
      carried := bit fl 1, origin := bits (leAt msg 24 2) 0 15, handle := mHandle msg, kcmd := leAt msg 40 8 })

/-- An ADD arrives. -/
def State.recvAdd (s : State) (src lane : Nat) (msg : List Byte) : State :=
  let l := addsOf msg
  let ctx := leAt msg 22 2
  let denied := ctx == 0 || (match s.rec? (leAt msg 16 3) with
    | some r => ctxDenied r ctx false
    | none => false)
  let o := s.openWait { id := 0, src := src, lane := lane, xid := mXid msg, handle := mHandle msg, commit := false, napplied := 0,
                        drops := [], findings := 0, left := 0, due := s.ctl.now + leAt msg 32 4 * ns }
  if denied then
    (s.deny.bump MT_ADD_DROP l.length).send src lane (mkMsg 0x83 sDenied (mHandle msg) (mXid msg)
      (leBytes 2 0 ++ leBytes 2 l.length ++ zeros 4 ++ (l.map (fun a => leBytes 8 a.row ++ leBytes 1 sDenied ++ zeros 7)).flatten))
  else (o.2.takeAdds o.1 s.remotePart l).settleWait o.1

/-- Rows that an ADD_ACK lists, with causes. -/
def ackDrops (msg : List Byte) : List (Nat × Nat) :=
  ((chunks 16 (msg.drop 24)).take (leAt msg 18 2)).map (fun e => (leAt e 0 8, leAt e 8 1))

/-- Ask the coordinator for the entry of a group, for a resend (12 R457). -/
def State.refetch (s : State) (t v g : Nat) : State :=
  match s.coordinator t with
  | none => s
  | some b =>
    if b = s.id || s.noRoute b || s.fab.xchg.any (fun x => x.kind == .entry t v g && x.handle == noHandle.toNat) then s
    else s.askTk b noHandle.toNat (.entry t v g) (.entryFetch t v g)

/-- One journal entry is answered: cleared, or kept for a resend when it is stale. -/
def State.clearEntry (s : State) (src findings : Nat) (drops : List (Nat × Nat)) (e : JEntry) : State :=
  match lookupBy e.row drops with
  | some 0xF0 =>
    ((s.bump TK_STALE 1).upTab (fun t => { t with journal := t.journal.map (fun j => if j == e then { j with xid := 2 ^ 32 } else j) })).refetch
      e.tbl e.ver (e.row / 4096)
  | cause =>
    let s := s.upTab (fun t => { t with journal := t.journal.erase e })
    match e.wait with
    | some w =>
      s.lessWait w (cause.map (fun c => (e.row, if c = sVersion then sVersion else sUncorr))) findings
    | none =>
      let ev := match cause with
        | some c => if c = sDenied then [(10, src)] else if c = sUncorr then [(11, src)] else []
        | none => []
      s.upCmd e.handle (fun c => { c with flags := c.flags ||| findings, events := c.events ++ ev })

/-- ADD_ACK (09 R359; 06 R250): also a late one clears its entries. -/
def State.recvAddAck (s : State) (src : Nat) (msg : List Byte) : State :=
  match s.xchg? src (mXid msg) with
  | none => s
  | some x =>
    if x.kind != .add then s
    else
      let mine := s.tab.journal.filter (fun j => j.xid == x.xid && j.owner == src)
      let drops := if mStatus msg = sDenied then mine.map (fun j => (j.row, sDenied)) else ackDrops msg
      ((mine.foldl (fun s e => s.clearEntry src (leAt msg 20 1) drops e) (s.dropXchg x.xid)).retryCarries).syncJournal

/-- An entry is known again: journal entries of the group that are not under way are sent to the owner that it names, under their
identifiers (12 R457, 06 R251). -/
def State.resend (s : State) (t v g : Nat) (redelivered : Bool) (l : JEntry → Bool) : State :=
  match s.ver? t v with
  | none => s
  | some x =>
    let e := s.pentry x.pmap g
    let pick := fun (j : JEntry) => j.tbl == t && j.ver == v && j.row / 4096 == g && l j
    let mine := s.tab.journal.filter pick
    if mine.isEmpty || e.state == 3 || e.state == 4 then s
    else
      let s := s.upTab (fun y => { y with journal := y.journal.filter (fun j => !(pick j)) })
      let s := s.upFab (fun f => { f with xchg := f.xchg.filter (fun z => !(z.kind == .add && mine.any (fun j => j.xid == z.xid) &&
        !(s.tab.journal.any (fun j => j.xid == z.xid && j.owner == z.dst)))) })
      let s := if redelivered then s.bump MT_ADD_REDELIVER mine.length else s
      s.sendAdds redelivered 0 (mine.map (fun j => { j with owner := e.owner }))

-- Confirmations (R235)

/-- Slots that hold nothing and that nobody relies on are free (R239, R240). -/
def State.freeSlots (s : State) : State :=
  (s.upTab (fun t => { t with slots := t.slots.filter (fun z => z.mirror || z.val.isSome || !z.users.isEmpty || z.hold.isSome) })).syncPool

/-- A secondary has confirmed, or is given up: slots whose commit waited for that exchange are free (R235, R240). -/
def State.confirmed (s : State) (xid w : Nat) : State :=
  ((s.upTab (fun t => { t with slots := t.slots.map (fun z => if z.hold = some xid then { z with hold := none } else z) })).freeSlots).lessWait
    w none 0

/-- Waits past their cutoff give up on secondaries and report them (R235). -/
def State.sweepWaits (s : State) : State :=
  (s.fab.xchg.filterMap (fun x => match x.kind with
    | .secondary w t v g => if s.tab.addWaits.any (fun y => y.id == w && decide (y.due ≤ s.ctl.now)) then some (x.xid, w, t, v, g) else none
    | _ => none)).foldl (fun s x =>
      ((s.dropXchg x.1).reportSecondary x.2.2.1 x.2.2.2.1 x.2.2.2.2).confirmed x.1 x.2.1) s

-- Reservations of the ordered pool (R238, R239)

def sameSlot (z : Slot) (t v src row : Nat) (plain : Bool) : Bool :=
  z.tbl == t && z.ver == v && z.src == src && z.row == row && z.plain == plain && !z.mirror

/-- Reserve a slot for each row and kind of a source, or refuse them all. -/
def State.reserveHere (s : State) (src handle t v nel : Nat) (rows : List (Nat × Bool)) : State × Bool :=
  let used := sumOf ((s.tab.slots.filter (fun z => !z.mirror)).map (fun z => slotSize z.nel))
  let fresh := rows.filter (fun p => !(s.tab.slots.any (fun z => sameSlot z t v src p.1 p.2)))
  if used + fresh.length * slotSize nel > s.fld MT_ORD_POOL_SIZE 0 46 ∨ s.fld MT_ORD_POOL_SIZE 0 46 = 0 ∨ s.tierOut 2 then
    (s.bump MT_ORD_REFUSE 1, false)
  else
    let new := fresh.map (fun p => { tbl := t, ver := v, src := src, row := p.1, plain := p.2, nel := nel, val := none
                                     users := [], mirror := false : Slot })
    let mark := fun (z : Slot) =>
      if rows.any (fun p => sameSlot z t v src p.1 p.2) then { z with users := addOnce (src, handle) z.users } else z
    ((s.upTab (fun x => { x with slots := (x.slots ++ new).map mark })).syncPool, true)

/-- Release what a command of a source reserved: now, or at the next commit of the table once the command has completed (R239). -/
def State.releaseSlots (s : State) (src handle : Nat) (now : Bool) : State :=
  let unmark := fun (z : Slot) =>
    if now then { z with users := z.users.filter (fun u => u != (src, handle)) }
    else if z.users.contains (src, handle) then { z with ended := addOnce (src, handle) z.ended } else z
  (s.upTab (fun x => { x with slots := x.slots.map unmark })).freeSlots

-- Commit (R240, R241)

/-- Sum held partials of one kind in ascending source order. -/
def sumHeld (l : List Slot) (nel : Nat) : List F32 × Findings :=
  let byS := l.foldl (fun (acc : List (Nat × List F32)) z => insertBy z.src (z.val.getD []) acc) []
  byS.foldl (fun acc p =>
    let r := (acc.1.zip p.2).map (fun q => fadd q.1 q.2)
    (r.map (fun q => q.1), r.foldl (fun (a : Findings) q => a.or q.2) acc.2)) (List.replicate nel 0#32, .none)

/-- One kind of one row of a live version. -/
def State.commitKind (s : State) (w part leader kcmd : Nat) (r : TableRec) (x : Group) (row : Nat) (plain : Bool) (l : List Slot) : State :=
  match l with
  | [] => s
  | z :: _ =>
    let g := sumHeld l z.nel
    let p := s.applyRow r x (if plain then 0 else r.recipe) row kcmd leader (b2n plain) part true g.1
    let fl := g.2.or (p.2.getD .none)
    p.1.upWait w (fun y => { y with findings := y.findings ||| fl.toByte })

/-- A commit takes the value of slots: they stay, empty, for the commands that rely on them, and until the secondary has confirmed (R239,
R240). -/
def State.takeSlots (s : State) (taken : Slot → Bool) (hold : Option Nat) : State :=
  (s.upTab (fun t => { t with slots := t.slots.map (fun z => if taken z then { z with val := none, hold := hold } else z) })).freeSlots

/-- Reservations of commands that have completed, unused, go at a commit of the table (R239); a failed block runs no command. -/
def State.dropUnused (s : State) (t : Nat) : State :=
  let live := fun (z : Slot) (u : Nat × Nat) => if u.1 = s.id then (s.cmd? u.2).isSome else !z.ended.contains u && !s.isFailed u.1
  (s.upTab (fun x => { x with slots := x.slots.map (fun z =>
    if z.tbl = t ∧ !z.mirror then { z with users := z.users.filter (live z), ended := [] } else z) })).freeSlots

/-- One row of a live version: recipe step, then plain step. -/
def State.commitRow (s : State) (w part leader kcmd : Nat) (r : TableRec) (x : Group) (row : Nat) : State :=
  let here := fun (z : Slot) => z.tbl == x.tbl && z.ver == x.ver && z.row == row && z.val.isSome && !z.mirror
  let mine := s.tab.slots.filter here
  let s := s.commitKind w part leader kcmd r x row false (mine.filter (fun z => !z.plain))
  let s := s.commitKind w part leader kcmd r x row true (mine.filter (fun z => z.plain))
  let s := s.takeSlots here ((s.mirrorFor x).map (fun _ => s.fab.xid % 2 ^ 32))
  let s := s.upWait w (fun y => { y with napplied := y.napplied + 1 })
  s.mirrorAdd w x { s.copyRows x (s.verFmt x.tbl x.ver) r.recipe [row % 4096] with taken := [row] }

/-- Held partials of a retired version at commit: carried or dropped (R245, R595). -/
def State.commitRetired (s : State) (w part leader kcmd ctx : Nat) (r : TableRec) (z : Slot) : State :=
  let n := s.tab.nextOp
  let s := (s.upTab (fun t => { t with nextOp := n + 1 })).takeSlots (fun y => y == z) none
  let a : AddIn := { tbl := z.tbl, ver := z.ver, ctx := ctx, row := z.row, val := z.val.getD [], plain := z.plain, carried := true
                     origin := leader, handle := 0xF0000000 + n % 2 ^ 28, kcmd := kcmd }
  let x := s.carryAdd w part r a
  match x.2 with
  | .done f => x.1.upWait w (fun y => { y with findings := y.findings ||| f.toByte })
  | _ => x.1

/-- A commit at this block as owner, under a wait. -/
def State.commitHere (s : State) (w part t step kcmd leader : Nat) : State :=
  match s.rec? t with
  | none => s
  | some r =>
    let live := fun (v : Nat) => v == r.curVer || v == r.pubVer
    let gs := s.tab.groups.filter (fun x => x.tbl == t && live x.ver && !x.secondary && !x.leaving &&
      (match x.step with | none => true | some n => decide (step > n)))
    let retired := s.tab.slots.filter (fun z => z.tbl == t && !live z.ver && z.val.isSome && !z.mirror)
    let s := s.dropUnused t
    let s := gs.foldl (fun s x =>
      let rows := sortUnique ((s.tab.slots.filter (fun z => z.tbl == t && z.ver == x.ver && z.row / 4096 == x.g && z.val.isSome &&
        !z.mirror)).map (fun z => z.row))
      let s := rows.foldl (fun s row => s.commitRow w part leader kcmd r x row) s
      let s := s.upGroup t x.ver x.g (fun y => { y with step := some step })
      -- the record follows the group to its secondary, and to the destination of a move (R241)
      s.mirrorAdd w x { s.copyRows x (s.verFmt t x.ver) r.recipe [] with step := some (some step) }) s
    (retired.foldl (fun s z => s.commitRetired w part leader kcmd r.ctx r z) s).syncPool

end Sys2Proof.Machine
end

