-- ==== Sys2Proof/Machine/Scatter.lean ====
section
/-! DEFINITION. SCATTER_ADD, POOL_BACKWARD and COMMIT_STEP at their home block (06 R218 to R225, R239 to R242, R249 to R254). -/

namespace Sys2Proof.Machine

-- Stage 0: lists and owners

/-- Lists in hand: resolve, count, and go on to the gradients. A bad bag offset ends the command with nothing sorted or counted (DESIGN
CHOICE, log 109). -/
def State.scatterStart (s : State) (c : Cmd) (d : Desc) (l : Lists) : State :=
  match s.rec? d.tbl, s.ver? d.tbl c.ver with
  | some r, some v =>
    if d.bags ∧ (badOffset l.offs d.nbag d.nidx).isSome then s.endWith c.handle sBadFormat
    else
      let rs := s.resolveRows r v (s.ringPart c.ring) (sortUnique (l.idx.filter (fun i => i != padIndex)))
      let s := rs.1
      let res := rs.2
      let home := (c.order[0]?).getD 0
      let one := fun (p : Nat × Nat) =>
        let wt := (l.w[p.2]?).getD 0#32
        match if p.1 = padIndex then some (Res.kind .pad) else lookupBy p.1 res with
        | some (.kind k) => { idx := p.1, kind := k, w := wt, v := [], fnd := 0 : Pos }
        | _ => { idx := p.1, kind := .failed s.id 6, w := wt, v := [], fnd := 0 }
      let pos := l.idx.zipIdx.map one
      let dfl := (pos.filter (fun p => p.kind == .dflt)).length
      let np := pieceCount d l.offs d.nbag
      let s := if d.bags then s else s.prefetchRows c d.dstp (padTo 16 ((s.fmtAt v.fmt).dim * osize d.ofmt)) ((s.fmtAt v.fmt).dim * osize d.ofmt)
        (l.idx.zipIdx.filter (fun p => p.1 != padIndex))
      let s := ((s.bump (IX_INDEX home) (pos.filter (fun p => p.kind != .pad)).length).bump (IX_UNIQUE home)
        (res.filter (fun p => p.2 != .kind .dflt)).length).bump (IX_DEFAULT home) dfl
      let s := s.bump (IX_PIECE home) np
      if res.any (fun p => p.2 == .corrupt) then s.endWith c.handle sBadTable
      else s.upCmd c.handle (fun x => { x with
        stage := 1, phase := .waiting, offs := l.offs, pos := pos, pieces := pieceHolms c.order np
        flags := if dfl > 0 then fDefault else 0, events := if pos.any (fun p => p.kind == .failed s.id 6) then [(6, s.id)] else [] })
  | _, _ => s.endWith c.handle sBadTable

-- Stage 1: gradients and row adds (R218, R220 to R225)

/-- Gradient rows that are read: address and bytes, none for a padding position. -/
def gradSpecs (d : Desc) (dim : Nat) (pos : List Pos) : List (Nat × Nat) :=
  let n := dim * osize d.ofmt
  let at_ := fun (i : Nat) => d.dstp + i * padTo 16 n
  if d.bags then (List.range d.nbag).map (fun b => (at_ b, n))
  else pos.zipIdx.map (fun p => (at_ p.2, if p.1.kind = .pad then 0 else n))

/-- A piece: first and last position, and its bag. -/
def piecesOf (d : Desc) (offs : List Nat) : List (Nat × Nat × Nat) :=
  if !d.bags then (List.range ((d.nidx + 1023) / 1024)).map (fun p => (1024 * p, min d.nidx (1024 * (p + 1)), 0))
  else ((List.range d.nbag).map (fun b =>
    let lo := (offs[b]?).getD 0
    let hi := (offs[b + 1]?).getD 0
    (List.range (max 1 (ceilDiv (hi - lo) 1024))).map (fun p => (lo + 1024 * p, min hi (lo + 1024 * (p + 1)), b)))).flatten

/-- The factor contribution of R224: products with the rows of the shared matrix. -/
def factorGrad (matrix : List (List F32)) (u : List F32) : List F32 × Findings :=
  matrix.foldr (fun m acc =>
    let r := (u.zip m).foldl (fun (a : F32 × Findings) p => let x := ffma a.1 p.1 p.2; (x.1, a.2.or x.2)) (0#32, .none)
    (r.1 :: acc.1, acc.2.or r.2)) ([], .none)

/-- Piece partials by row, ascending. -/
abbrev RowParts := List (Nat × Partial)

/-- One contribution to a row's piece partial. -/
def contribute (m : AccMode) (n : Nat) (matrix : Option (List (List F32))) (acc : RowParts × Findings) (row : Nat) (w : Option F32)
    (g : List F32) : RowParts × Findings :=
  let old := (lookupBy row acc.1).getD (Partial.zero n)
  match matrix with
  | none =>
    let r := zipStep (termStep m w) old g
    (insertBy row r.1 acc.1, acc.2.or r.2)
  | some mx =>
    let u := match w with
      | some w => mapF (fmul w) g
      | none => (g, .none)
    let fc := factorGrad mx u.1
    let r := zipStep (termStep m none) old fc.1
    (insertBy row r.1 acc.1, acc.2.or (u.2.or (fc.2.or r.2)))

/-- The row adds of a command: for each row its pieces in ascending order, folded (R221, R222). -/
def rowAdds (d : Desc) (m : AccMode) (n : Nat) (matrix : Option (List (List F32))) (offs : List Nat) (pos : List Pos)
    (grads : List (List F32 × Findings)) : List (Nat × List F32) × Findings :=
  let counts := fun (lo hi : Nat) => (((pos.drop lo).take (hi - lo)).filter (fun p => p.kind != .pad)).length
  let one := fun (p : Nat × Nat × Nat) =>
    let lo := (offs[p.2.2]?).getD 0
    let g := (grads[p.2.2]?).getD ([], .none)
    let gm := if d.bags && d.mode == 2 then meanOf (counts lo ((offs[p.2.2 + 1]?).getD 0)) g.1 else (g.1, .none)
    (((pos.drop p.1).take (p.2.1 - p.1)).zipIdx p.1).foldl (fun (acc : RowParts × Findings) q =>
      match q.1.kind with
      | .pad | .dflt => acc
      | _ =>
        let gv := if d.bags then (gm.1, g.2.or gm.2) else (grads[q.2]?).getD ([], .none)
        let r := contribute m n matrix acc q.1.idx (if d.weighted then some q.1.w else none) gv.1
        (r.1, r.2.or gv.2)) ([], .none)
  let parts := (piecesOf d offs).map one
  let rows := sortUnique ((parts.map (fun x => x.1.map (fun y => y.1))).flatten)
  rows.foldl (fun acc r =>
    let j := joinAll m n (parts.filterMap (fun x => lookupBy r x.1))
    let f := fold m j.1
    (acc.1 ++ [(r, f.1)], acc.2.or (j.2.or f.2))) ([], parts.foldl (fun (a : Findings) x => a.or x.2) .none)

/-- Owner that a row resolved to, with the event that bars it. -/
def rowOwner (id : Nat) (pos : List Pos) (row : Nat) : Nat × Option Nat :=
  match pos.find? (fun p => p.idx == row) with
  | some p => match p.kind with
    | .remote o => (o, none)
    | .failed o e => (o, some e)
    | _ => (id, none)
  | none => (id, none)

/-- The shared matrix at home (R225): rows of FP32, or none when a word of it cannot be corrected. -/
def State.homeMatrix (s : State) (c : Cmd) (f : Fmt) : State × Option (List (List F32)) :=
  let a := s.readAux f [] (s.ringPart c.ring)
  (a.1, a.2.map (fun aux => (List.range f.count).map (fun k => auxEntry f aux k)))

/-- Read the gradients and form the row adds. -/
def State.scatterGrads (s : State) (c : Cmd) (d : Desc) : State :=
  let f := s.verFmt d.tbl c.ver
  let r := s.readBufs c false (gradSpecs d f.dim c.pos)
  match obstacle r.2 with
  | some b => r.1.meet c b 0
  | none =>
    let grads := r.2.map (fun b => toF32s d.ofmt (elems b.get 0 (esize d.ofmt) (b.get.length / esize d.ofmt)))
    let m := if d.comp then AccMode.comp else .plain
    let mx := if f.code = 9 then r.1.homeMatrix c f else (r.1, some [])
    let bad := mx.2.isNone
    let x := rowAdds d m f.nel (if f.code = 9 then some (mx.2.getD []) else none) c.offs c.pos grads
    let adds := x.1.map (fun p => ((rowOwner s.id c.pos p.1).1, p))
    mx.1.upCmd c.handle (fun y => { y with
      stage := 2, adds := adds, flags := y.flags ||| x.2.flags
      events := if bad && !y.events.contains (6, s.id) then y.events ++ [(6, s.id)] else y.events })

-- Stage 2: reservations of an ordered table (R239)

/-- The kind of the command's adds is plain. -/
def plainKind (d : Desc) (r : TableRec) : Bool := d.recipe == 1 || r.recipe == 0

/-- Adds that will be handed off: those whose rows did not fail. -/
def Cmd.liveAdds (c : Cmd) (id : Nat) : List (Nat × RowAdd) := c.adds.filter (fun a => (rowOwner id c.pos a.2.1).2.isNone)

/-- The command ends before hand-off; what owners granted is released at once, and a grant still on its way at that owner's next commit
(R239). -/
def State.abandonSlots (s : State) (c : Cmd) : State :=
  let s := s.releaseSlots s.id c.handle true
  (sortUnique ((c.adds.map (fun a => a.1)).filter (fun o => o != s.id))).foldl (fun s o =>
    s.sendTk o c.handle (.releaseSlots c.handle (!c.owners.contains o))) s

/-- Ask each owner, this block included. -/
def State.askSlots (s : State) (c : Cmd) (d : Desc) (r : TableRec) : State :=
  let live := c.liveAdds s.id
  let plain := plainKind d r
  let n := (s.verFmt d.tbl c.ver).nel
  let rowsAt := fun (o : Nat) => (live.filter (fun a => a.1 == o)).map (fun a => (a.2.1, plain))
  let owners := sortUnique (live.map (fun a => a.1))
  let mine := rowsAt s.id
  let l := if mine.isEmpty then (s, true) else s.reserveHere s.id c.handle d.tbl c.ver n mine
  if !l.2 then (l.1.releaseSlots s.id c.handle true).endResume c.handle 0
  else
    let others := owners.filter (fun o => o != s.id)
    let s := l.1.upCmd c.handle (fun x => { x with stage := 3, owners := others })
    others.foldl (fun s o => s.askTk o c.handle .slots (.reserveSlots d.tbl c.ver c.handle n (rowsAt o))) s

-- Stage 3: the checks before hand-off, and hand-off (R252)

/-- The status that the events before hand-off give: none to hand off. -/
def beforeHandOff (c : Cmd) (d : Desc) (id : Nat) : Option (Nat × Nat) :=
  let failed := c.pos.filterMap (fun p => match p.kind with
    | .failed o e => if e = 6 then none else some (o, e)
    | _ => none)
  let unreach := (failed.filter (fun x => x.2 != 4)).map (fun x => x.1)
  if c.events.any (fun e => e.1 == 6) then some (sUncorr, 0xFFFF)
  else if d.degr then none
  else if !unreach.isEmpty then some (sUnreach, unreach.foldl min ((unreach.head?).getD id))
  else if !failed.isEmpty then some (sUncorr, 0xFFFF)
  else none

/-- Hand off every add in one step (R25, R249). -/
def State.handOff (s : State) (c : Cmd) (d : Desc) (r : TableRec) : State :=
  match beforeHandOff c d s.id with
  | some (st, blk) =>
    (if r.ordered then s.abandonSlots c else s).endCmd c.handle st (fun x => { x with failblk := blk, flags := x.flags &&& fDefault })
  | none =>
    let live := c.liveAdds s.id
    let lost := c.adds.length - live.length
    let dfl := (c.pos.filter (fun p => p.kind == .dflt)).length
    let nonpad := (c.pos.filter (fun p => p.kind != .pad)).length
    let s := (s.bump MT_ADD_DEGRADE lost).bump TK_DISCARD dfl
    let plain := d.recipe == 1
    let mine := (live.filter (fun a => a.1 == s.id)).map (fun a =>
      { tbl := d.tbl, ver := c.ver, ctx := c.ctx, row := a.2.1, val := a.2.2, plain := plain, carried := false, origin := s.id
        handle := c.handle, kcmd := c.kcmd : AddIn })
    let away := (live.filter (fun a => a.1 != s.id)).map (fun a =>
      { owner := a.1, tbl := d.tbl, ver := c.ver, ctx := c.ctx, row := a.2.1, val := a.2.2, plain := plain, carried := false
        origin := s.id, handle := c.handle, kcmd := c.kcmd, xid := 0, wait := none : JEntry })
    let away := (sortUnique (away.map (fun e => e.owner))).map (fun o => away.filter (fun e => e.owner == o)) |>.flatten
    let s := s.upCmd c.handle (fun x => { x with
      stage := 4, handedOff := true, rows := nonpad, phase := .waiting
      flags := x.flags ||| (if lost > 0 then fDegraded else 0) })
    let s := s.sendAdds false (s.relcut c) away
    let o := s.openWait { id := 0, src := s.id, lane := 3, xid := 0, handle := c.handle, commit := false, napplied := 0, drops := []
                          findings := 0, left := 0, due := c.deadline }
    ((o.2.takeAdds o.1 (s.ringPart c.ring) mine).settleWait o.1).syncJournal

-- Stage 4: acknowledgements (R252)

/-- Blocks whose acknowledgement is missing. -/
def State.unacked (s : State) (h : Nat) : List Nat :=
  let mine := s.tab.addWaits.filter (fun w => w.src == s.id && w.handle == h)
  -- event 1: an owner whose group was LOST before it acknowledged (R251)
  sortUnique (((s.tab.journal ++ s.tab.carries).filter (fun j => match j.wait with
    | none => j.handle == h && j.origin == s.id
    | some w => mine.any (fun x => x.id == w))).map (fun j => j.owner) ++
    ((s.cmd? h).map (fun c => (c.events.filter (fun e => e.1 == 1)).map (fun e => e.2))).getD [])

/-- A wait of this block's own still holds the command back. -/
def State.ownWaits (s : State) (h : Nat) : Bool := s.tab.addWaits.any (fun w => w.src == s.id && w.handle == h)

/-- The status after hand-off: the first event in the order of R252. -/
def afterHandOff (degrade degraded : Bool) (missing : List Nat) (evs : List (Nat × Nat)) : Nat × Nat :=
  let soft := fun (st blk : Nat) => if degrade then (sDegraded, 0xFFFF) else (st, blk)
  match missing with
  | m :: _ => soft sTimeout m
  | [] =>
    if evs.any (fun e => e.1 == 10) then (sDenied, 0xFFFF)
    else if evs.any (fun e => e.1 == 11) then soft sUncorr 0xFFFF
    else if degraded then (sDegraded, 0xFFFF) else (sOk, 0xFFFF)

/-- End a handed-off command; at its cutoff what is missing decides. -/
def State.finishScatter (s : State) (c : Cmd) (d : Desc) : State :=
  let r := afterHandOff d.degr (bit c.flags 4) (s.unacked c.handle) c.events
  s.endCmd c.handle r.1 (fun x => { x with failblk := r.2, flags := if r.1 = sDegraded then x.flags ||| fDegraded else x.flags })

/-- Run a backward command as far as it goes. -/
def State.runScatter (s : State) (h : Nat) : State :=
  let live := fun (s : State) (n : Nat) => (s.cmd? h).filter (fun c => c.phase != .done && c.stage == n)
  match s.cmd? h with
  | none => s
  | some c0 =>
    let d := Desc.of c0.desc
    let b := s.begin_ c0
    if !b.2 then b.1
    else
      let s := b.1
      let s := match live s 0 with
        | none => s
        | some c =>
          let l := s.readLists c d
          match l.2 with
          | none => l.1
          | some lists => l.1.scatterStart c d lists
      let s := match live s 1 with
        | none => s
        | some c => s.scatterGrads c d
      match s.rec? d.tbl with
      | none => s
      | some r =>
        let s := match live s 2 with
          | none => s
          | some c => if r.ordered then s.askSlots c d r else s.upCmd h (fun x => { x with stage := 3, owners := [] })
        let s := match live s 3 with
          | none => s
          | some c => if c.owners.isEmpty then s.handOff c d r else s.upCmd h (fun x => { x with phase := .waiting })
        match live s 4 with
        | none => s
        | some c => if (s.unacked h).isEmpty && !s.ownWaits h then s.finishScatter c d else s

/-- The answer of an owner to a reservation (R239). -/
def State.slotsAnswer (s : State) (h o : Nat) (granted : Bool) : State :=
  match s.cmd? h with
  | none => s
  | some c =>
    if granted then s.upCmd h (fun x => { x with owners := x.owners.filter (· != o) })
    else ((s.upCmd h (fun x => { x with owners := [] })).abandonSlots { c with owners := c.owners.filter (· != o) }).endResume h 0

/-- The remote cutoff of a backward command. -/
def State.cutScatter (s : State) (c : Cmd) (d : Desc) : State :=
  let s := s.sweepWaits
  if c.handedOff then
    match s.cmd? c.handle with
    | some c => if c.phase = .done then s else s.finishScatter c d
    | none => s
  else if c.stage = 3 ∧ !c.owners.isEmpty then
    (s.abandonSlots c).endCmd c.handle sPartial (fun x => { x with
      failblk := c.owners.foldl min ((c.owners.head?).getD 0), flags := x.flags &&& fDefault })
  else s

-- COMMIT_STEP (R240 to R242)

/-- Blocks that own a group of a version. -/
def State.ownersOf (s : State) (r : TableRec) (v : Nat) : List Nat :=
  match s.ver? r.tbl v with
  | some x => (s.mapped r x).filterMap (fun p => if p.2.state = 4 then none else some p.2.owner)
  | none => []

def State.commitStart (s : State) (c : Cmd) (d : Desc) (r : TableRec) : State :=
  if !r.ordered then s.endWith c.handle sOk
  else
    let owners := sortUnique (s.ownersOf r r.curVer ++ s.ownersOf r r.pubVer)
    let s := s.upCmd c.handle (fun x => { x with stage := 1, phase := .waiting, owners := owners })
    let others := owners.filter (fun b => b != s.id && !s.noRoute b)
    let s := others.foldl (fun s b => s.askTk b c.handle .commit (.commit d.tbl d.step c.kcmd s.id)) s
    if owners.contains s.id then
      let o := s.openWait { id := 0, src := s.id, lane := 0, xid := 0, handle := c.handle, commit := true, napplied := 0, drops := []
                            findings := 0, left := 0, due := c.deadline }
      (o.2.commitHere o.1 (s.ringPart c.ring) d.tbl d.step c.kcmd s.id).settleWait o.1
    else s

/-- Run COMMIT_STEP as far as it goes. -/
def State.runCommit (s : State) (h : Nat) : State :=
  match s.cmd? h with
  | none => s
  | some c0 =>
    let d := Desc.of c0.desc
    let b := s.begin_ c0
    match b.2, b.1.rec? d.tbl, b.1.cmd? h with
    | true, some r, some c =>
      let s := if c.stage = 0 then b.1.commitStart c d r else b.1
      match s.cmd? h with
      | some c => if c.phase ≠ .done ∧ c.stage = 1 ∧ c.owners.isEmpty then s.endWith h sOk else s
      | none => s
    | _, _, _ => b.1

/-- An owner has confirmed its commit. -/
def State.commitAnswer (s : State) (h o rows findings : Nat) : State :=
  s.upCmd h (fun c => { c with owners := c.owners.filter (· != o), rows := min (c.rows + rows) 0xFFFFFFFF, flags := c.flags ||| findings })

/-- The remote cutoff of COMMIT_STEP. -/
def State.cutCommit (s : State) (c : Cmd) : State :=
  match c.owners with
  | [] => s
  | o :: os => s.endAt c.handle sTimeout (os.foldl min o)

/-- A COMMIT arrives from a leader. -/
def State.recvCommit (s : State) (hdr : TkHdr) (tbl step kcmd leader : Nat) : State :=
  let o := s.openWait { id := 0, src := hdr.src, lane := hdr.lane, xid := hdr.xid, handle := hdr.handle, commit := true, napplied := 0
                        drops := [], findings := 0, left := 0, due := s.ctl.now + 100 * ms }
  (o.2.commitHere o.1 s.remotePart tbl step kcmd leader).settleWait o.1

end Sys2Proof.Machine
end

