-- ==== Sys2Proof/Machine/Versions.lean ====
section
/-! DEFINITION. Storage of versions, records and updates at a block that holds them (02 R69 to R71, R83; 12 R449 to R456, R459,
R461). -/

namespace Sys2Proof.Machine

/-- TK_STATUS follows the records held and the registry list (12 R482). -/
def State.syncTk (s : State) : State :=
  let s := s.setFld TK_STATUS 16 15 s.tab.recs.length
  (s.setFld TK_STATUS 0 1 (b2n (s.registryList.contains s.id))).setFld TK_STATUS 1 1 (b2n (s.lead == some s.id))

-- Format slots (02 R69, R70)

def State.slotUsed (s : State) (n : Nat) : Bool := s.tab.vers.any (fun v => v.fmt == n)

/-- A slot for a descriptor: a shared one for codes 0 to 6, or the lowest free one (DESIGN CHOICE, log 101). -/
def State.slotFor (s : State) (fmt : Nat) : Option Nat :=
  match (if bits fmt 0 4 ≤ 6 then (upTo 256).find? (fun n => s.slotUsed n && s.reg (TK_FMT n) == fmt) else none) with
  | some n => some n
  | none => (upTo 256).find? (fun n => !s.slotUsed n)

/-- Free slots read 0. -/
def State.clearSlot (s : State) (n : Nat) : State := if s.slotUsed n then s else s.setReg (TK_FMT n) 0

-- Shares (12 R453)

/-- Owner assigned to a group, and its secondary under REPL2. -/
def TableRec.assigned (r : TableRec) (g : Nat) : Nat := (r.owners[g % max r.owners.length 1]?).getD 0
def TableRec.second (r : TableRec) (g : Nat) : Nat := (r.owners[(g + 1) % max r.owners.length 1]?).getD 0

/-- Groups, secondaries included, whose storage a block reserves. -/
def shareOf (owners : List Nat) (repl2 : Bool) (ngroups b : Nat) : Nat :=
  let n := max owners.length 1
  let at_ := fun (i : Nat) => owners[i % n]? == some b
  ((List.range ngroups).filter at_).length + (if repl2 then ((List.range ngroups).filter (fun g => at_ (g + 1))).length else 0)

/-- Reserve bytes of a tier for a version, when there is room. -/
def State.reserveBytes (s : State) (t v tier n : Nat) : Option State :=
  if n = 0 ∨ s.tab.rsv.any (fun r => r.1 == t && r.2.1 == v && r.2.2.1 == tier) then some s
  else if s.room tier < n then none
  else some (s.upTab (fun x => { x with rsv := x.rsv ++ [(t, v, tier, n)] }))

/-- A reservation shrinks or grows. -/
def State.useRsv (s : State) (t v tier n : Nat) (back : Bool) : State :=
  let g := fun (r : Nat × Nat × Nat × Nat) => (r.1, r.2.1, r.2.2.1, if back then r.2.2.2 + n else r.2.2.2 - n)
  s.upTab (fun x => { x with rsv := updFirst (fun r => r.1 == t && r.2.1 == v && r.2.2.1 == tier) g x.rsv })

-- Groups

/-- Set every accumulator of a group to INIT_ACC (06 R229). -/
def State.initAccs (s : State) (r : TableRec) (x : Group) (f : Fmt) : State :=
  if r.recipe = 3 then
    let b := leBytes 4 (s.recipeParam r 12).toNat
    s.putData (memKey x.tier (x.accOff f 0)) ((List.range 4096).map (fun _ => b)).flatten
  else s

/-- A group of a version takes zeroed storage here, out of the version's reservation (12 R454). -/
def State.placeGroup (s : State) (r : TableRec) (v g tier : Nat) (secondary : Bool) : State :=
  if (s.group? r.tbl v g).isSome then s
  else
    let f := s.verFmt r.tbl v
    let n := groupBytes f r.recipe
    match (s.alloc tier n 4096).bind (fun a => (a.2.alloc 0 8 8).map (fun e => (a.1, e.1, e.2))) with
    | none => s
    | some (b, e, s) =>
      let x : Group := { tbl := r.tbl, ver := v, g := g, res := e, base := b, tier := tier, secondary := secondary, leaving := false
                         moving := none, step := none, load := 0 }
      let s := (s.useRsv r.tbl v tier n false).wipe (memKey tier b) n
      ((s.upTab (fun t => { t with groups := t.groups ++ [x] })).keepEntry r.tbl v g).initAccs r x f

/-- A group's copy here goes: its residency entry, its lines, its bytes (07 R292). -/
def State.dropRows (s : State) (t v g : Nat) (keepRsv : Bool) : State :=
  match s.group? t v g with
  | none => s
  | some x =>
    let f := s.verFmt t v
    let n := groupBytes f (((s.rec? t).map (fun r => r.recipe)).getD 0)
    let s := ((s.flushRange x.tier x.base n).1.free x.tier x.base).wipe (memKey x.tier x.base) n
    let s := (s.free 0 x.res).mdFlush (gAddr s.id 0 x.res) 8
    let s := if keepRsv then s.useRsv t v x.tier n true else s
    s.upTab (fun y => { y with groups := y.groups.filter (fun z => !(z.tbl == t && z.ver == v && z.g == g)) })

/-- A group leaves this block with its held partials: they have gone to another block with it, or are dropped with a group that becomes
UNMAPPED (06 R254). -/
def State.dropGroup (s : State) (t v g : Nat) (keepRsv : Bool) : State :=
  let mine := fun (z : Slot) => z.tbl == t && z.ver == v && z.row / 4096 == g
  let s := if keepRsv then s.bump MT_ADD_DROP (s.tab.slots.filter (fun z => mine z && z.val.isSome && !z.mirror)).length else s
  ((s.dropRows t v g keepRsv).upTab (fun y => { y with slots := y.slots.filter (fun z => !(mine z)) })).syncPool

-- Versions

/-- This block keeps the auxiliary region of a table: always for code 9, else as owner or secondary (02 R83, 06 R225). -/
def State.keepsAux (s : State) (owners : List Nat) (f : Fmt) : Bool := f.code == 9 || (f.code == 8 && owners.contains s.id)

/-- Make a version here: a placement map of zero lines, auxiliary region, format slot (12 R455, 07 R285). The descriptor of a block that
keeps no copy of the region holds AUX_BASE 0 (DESIGN CHOICE, log 102). -/
def State.makeVersion (s : State) (t v fmt ngroups : Nat) (owners : List Nat) (st : VState) : Option State :=
  let f := Fmt.of fmt
  let n := 4 * ngroups
  let map := s.allocMeta n (if n ≤ 262144 then [0] else [1])
  (map.map (fun m => (m.1, m.2.zeroLines m.1 n))).bind (fun m =>
    let aux := if s.keepsAux owners f then m.2.allocMeta f.auxSize [0] else some (0, m.2)
    aux.bind (fun a =>
      let fmt := setBits fmt 44 20 (gOff a.1 / 4096)
      (a.2.slotFor fmt).map (fun n =>
        (a.2.setReg (TK_FMT n) fmt).upTab (fun x => { x with vers := x.vers ++ [{ tbl := t, ver := v, st := st, pmap := m.1, fmt := n }] }))))

/-- A block that takes a group of a version keeps its auxiliary region from then on (02 R83). -/
def State.takeRegion (s : State) (t v : Nat) : State :=
  match s.ver? t v with
  | none => s
  | some x =>
    let f := s.fmtAt x.fmt
    if f.auxSize = 0 ∨ f.aux ≠ 0 then s
    else match s.allocMeta f.auxSize [0] with
      | none => s
      | some (a, s) => s.setFld (TK_FMT x.fmt) 44 20 (gOff a / 4096)

/-- Free everything of a version here (12 R461). -/
def State.freeVersion (s : State) (t v : Nat) : State :=
  match s.ver? t v with
  | none => s.upTab (fun y => { y with rsv := y.rsv.filter (fun z => !(z.1 == t && z.2.1 == v)) })
  | some x =>
    let f := s.fmtAt x.fmt
    let gs := (s.tab.groups.filter (fun g => g.tbl == t && g.ver == v)).map (fun g => g.g)
    -- held partials of the version stay until a commit (06 R240, R245); their mirrors have no group any more
    let s := (gs.foldl (fun s g => s.dropRows t v g false) s).upTab (fun y => { y with
      slots := y.slots.filter (fun z => !(z.tbl == t && z.ver == v && z.mirror)) })
    let s := (s.freeMeta x.pmap).mdFlush x.pmap (4 * ((s.rec? t).map (fun r => r.ngroups)).getD 16)
    let s := if f.aux = 0 then s else (s.flushRange 0 f.aux f.auxSize).1.free 0 f.aux
    (s.upTab (fun y => { y with
      vers := y.vers.filter (fun z => !(z.tbl == t && z.ver == v)), rsv := y.rsv.filter (fun z => !(z.1 == t && z.2.1 == v)) })).clearSlot x.fmt

-- Records

/-- Everything of a record that another holder needs. -/
def State.recordData (s : State) (r : TableRec) : RecordData :=
  let mapOf := fun (v : Nat) => match s.ver? r.tbl v with
    | some x => s.mapped r x
    | none => []
  let auxOf := fun (v : Nat) => match (s.ver? r.tbl v).map (fun x => s.fmtAt x.fmt) with
    | some f => if f.aux = 0 then [] else s.bytesAt (memKey 0 f.aux) f.auxSize
    | none => []
  let f := s.tblFmt r.tbl
  let v := s.ver? r.tbl (if r.curVer = 0 then r.pubVer else r.curVer)
  let fmt := (v.map (fun x => s.reg (TK_FMT x.fmt))).getD 0
  { tbl := r.tbl, curVer := r.curVer, pubVer := r.pubVer, rows := r.rows, fmt := setBits fmt 44 20 0, ctx := r.ctx, flags := r.flags
    recipe := r.recipe, owners := r.owners, otier := r.otier, holders := s.holders r.tbl, curMap := mapOf r.curVer
    pubMap := mapOf r.pubVer, replicas := ((s.reg? r.tbl).map (fun e => e.replicas)).getD []
    defRow := if r.defrow = 0 then [] else s.bytesAt (gKey r.defrow) (4 * f.dim)
    rcp := if r.rcpp = 0 then [] else s.bytesAt (gKey r.rcpp) 64
    curAux := auxOf r.curVer, pubAux := auxOf r.pubVer }

/-- The least recently used record that can go (12 R450). -/
def State.evictable (s : State) : Option TableRec :=
  (s.tab.recs.filter (fun r => !(s.tab.groups.any (fun g => g.tbl == r.tbl)) &&
    !(s.cmds.any (fun c => leAt c.desc 8 3 == r.tbl)) && s.coordinator r.tbl != some s.id)).foldl (fun (b : Option TableRec) r =>
      match b with
      | none => some r
      | some x => if r.used < x.used then some r else some x) none

/-- A record and everything of its table leaves this block. -/
def State.dropRecord (s : State) (t : Nat) : State :=
  match s.rec? t with
  | none => s
  | some r =>
    let f := s.tblFmt t
    let vs := (s.tab.vers.filter (fun v => v.tbl == t)).map (fun v => v.ver)
    let held := s.tab.slots.filter (fun z => z.tbl == t && z.val.isSome && !z.mirror)
    let s := s.bump MT_ADD_DROP held.length
    let s := vs.foldl (fun s v => s.freeVersion t v) s
    let s := if r.defrow = 0 then s else (s.freeMeta r.defrow).mdFlush r.defrow (4 * f.dim)
    let s := if r.rcpp = 0 then s else (s.freeMeta r.rcpp).mdFlush r.rcpp 64
    let s := match r.loc with
      | some a => (s.free 0 a).mdFlush (gAddr s.id 0 a) 64
      | none => s
    ((s.upTab (fun x => { x with
      recs := x.recs.filter (fun z => z.tbl != t), slots := x.slots.filter (fun z => z.tbl != t)
      registry := x.registry.filter (fun e => e.tbl != t), rsv := x.rsv.filter (fun z => z.1 != t) })).syncPool).syncTk

/-- Order of use of records. -/
def State.useRec (s : State) (t : Nat) : State :=
  let top := maxOf (s.tab.recs.map (fun r => r.used)) + 1
  s.upRec t (fun r => { r with used := top })

/-- Write the entries of a map. -/
def State.writeMap (s : State) (t v : Nat) (m : List (Nat × PEntry)) : State := m.foldl (fun s p => s.applyEntry t v p.1 p.2) s

/-- The 64 bytes of a record follow its fields, through the merging buffer (02 R50, 07 R282). -/
def State.keepRec (s : State) (t : Nat) : State :=
  match s.rec? t with
  | some r => (match r.loc with
    | some a => s.putMeta (memKey 0 a) (s.recordBytes r)
    | none => s)
  | none => s

/-- A record that is not held takes its place, with its default row and recipe block; nothing when there is no room. -/
def State.addRecord (s : State) (d : RecordData) : State :=
  let f := Fmt.of d.fmt
  let dr := if bit d.flags 3 then s.allocMeta (4 * f.dim) [0, 1, 2] else some (0, s)
  match dr with
  | none => s
  | some (a, s) =>
    let rp := if d.recipe = 0 then some (0, s) else s.allocMeta 64 [0, 1, 2]
    match rp with
    | none => s
    | some (b, s) =>
      let s := if a = 0 then s else s.putMeta (gKey a) (fitTo (4 * f.dim) d.defRow)
      let s := if b = 0 then s else s.putMeta (gKey b) (fitTo 64 d.rcp)
      let l := s.alloc 0 64 64
      let s := (l.map (fun x => x.2)).getD s
      let r : TableRec := { loc := l.map (fun x => x.1), tbl := d.tbl, curVer := 0, pubVer := 0, rows := d.rows, ctx := d.ctx, flags := d.flags, recipe := d.recipe
                            defrow := a, rcpp := b, owners := d.owners, otier := d.otier, dying := false, used := 0 }
      s.upTab (fun x => { x with
        recs := x.recs ++ [r]
        registry := if x.registry.any (fun e => e.tbl == d.tbl) then x.registry
                    else x.registry ++ [{ tbl := d.tbl, holders := d.holders, replicas := d.replicas, destroying := false, redeliver := [] }] })

/-- A version of a record is held with its map and its auxiliary region. -/
def State.ensureVersion (s : State) (d : RecordData) (v : Nat) (m : List (Nat × PEntry)) (aux : List Byte) (st : VState) : State :=
  if v = 0 then s
  else match s.ver? d.tbl v with
    | some _ => (s.upVer d.tbl v (fun x => { x with st := st })).writeMap d.tbl v m
    | none =>
      match s.makeVersion d.tbl v d.fmt ((d.rows + 4095) / 4096) d.owners st with
      | none => s
      | some s =>
        let g := s.verFmt d.tbl v
        let s := if g.aux = 0 then s else s.putData (memKey 0 g.aux) (fitTo g.auxSize aux)
        s.writeMap d.tbl v m

/-- A record arrives: a new one is built, an existing one follows (12 R450, R451). -/
def State.installRecord (s : State) (d : RecordData) : State :=
  let s := if s.tab.recs.length ≥ 16384 ∧ (s.rec? d.tbl).isNone then
      match s.evictable with
      | some r => s.dropRecord r.tbl
      | none => s
    else s
  let s := if (s.rec? d.tbl).isSome then s else s.addRecord d
  let s := s.upReg d.tbl (fun e => { e with holders := d.holders, replicas := d.replicas })
  let s := (s.ensureVersion d d.curVer d.curMap d.curAux .current).ensureVersion d d.pubVer d.pubMap d.pubAux .published
  let s := s.upRec d.tbl (fun r => { r with curVer := d.curVer, pubVer := d.pubVer, owners := d.owners })
  ((s.useRec d.tbl).keepRec d.tbl).syncTk

/-- Commands of this block that name a table, other than its destruction. -/
def State.naming (s : State) (t : Nat) : Bool :=
  s.cmds.any (fun c => (let d := Desc.of c.desc
    d.opc != oDestroy && ((d.needsTable && d.tbl == t) || (d.opc == oPool && d.project && d.ptbl == t))))

/-- Commands bound to a version. -/
def State.boundTo (s : State) (t v : Nat) : Bool :=
  s.cmds.any (fun c => (let d := Desc.of c.desc
    (d.binds && d.tbl == t && c.ver == v) || (d.project && d.ptbl == t && c.pver == v)))

/-- A backward command accepted with PUB_VER 0 is in flight (06 R246). -/
def State.oldBackward (s : State) (t : Nat) : Bool :=
  s.cmds.any (fun c => (let d := Desc.of c.desc; d.isBack && d.tbl == t && c.noPub))

/-- This block can acknowledge what it owes: a destruction waits for its commands and for the adds that it has handed off or carried (06 R248,
02 R92), a redelivery for the entries that it has sent (06 R251). -/
def State.canAck (s : State) (k : OwedKind) : Bool :=
  match k with
  | .prepare t => !s.oldBackward t
  | .retire t v => !s.boundTo t v
  | .destroy t => !s.naming t && !((s.tab.journal ++ s.tab.carries).any (fun j => j.tbl == t))
  | .release t v _ _ => !s.boundTo t v
  | .redeliver t x => !(s.tab.journal.any (fun j => j.tbl == t && j.xid != 2 ^ 32 && (match s.ver? t j.ver with
      | some v => (let e := s.pentry v.pmap (j.row / 4096); e.state == 3 && e.owner == x)
      | none => false)))

/-- A group's journal entries are discarded (06 R251). -/
def State.discardJournal (s : State) (t v g owner : Nat) : State :=
  let gone := fun (j : JEntry) => j.tbl == t && j.ver == v && j.row / 4096 == g && j.owner == owner
  let l := s.tab.journal.filter gone
  let s := (s.bump MT_ADD_DROP l.length).upTab (fun x => { x with journal := x.journal.filter (fun j => !(gone j)) })
  (l.foldl (fun s j => match j.wait with
    | some w => s.lessWait w (some (j.row, sUncorr)) 0
    -- its owner will not acknowledge: event 1
    | none => if j.origin = s.id then s.upCmd j.handle (fun c => { c with events := addOnce (1, j.owner) c.events }) else s) s).syncJournal

/-- The secondary here becomes the primary copy (12 R471 step 2). -/
def State.promoteHere (s : State) (t v g : Nat) : State :=
  let s := s.upGroup t v g (fun x => { x with secondary := false })
  let own := fun (z : Slot) => if z.tbl == t && z.ver == v && z.row / 4096 == g then { z with mirror := false } else z
  ((s.upTab (fun x => { x with slots := x.slots.map own })).syncPool).keepEntry t v g

/-- What an entry's new value does at this block beside the map. -/
def State.entryEffects (s : State) (t v g : Nat) (old e : PEntry) : State :=
  match s.rec? t with
  | none => s
  | some r =>
    let s := if e.owner = s.id ∧ (e.state = 1 ∨ e.state = 2) then
        match s.group? t v g with
        | some _ => (s.promoteHere t v g).upGroup t v g (fun x => { x with leaving := false })
        | none => s.placeGroup r v g e.tier false
      else s
    let s := if e.repl && (e.state == 1 || e.state == 2) && e.owner != s.id && s.secondaryOf t g == some s.id then
        s.placeGroup r v g e.tier true else s
    let s := if e.owner ≠ s.id ∧ e.state = 1 ∧ (s.group? t v g).any (fun x => !x.secondary) then
        s.upGroup t v g (fun x => { x with leaving := true, moving := none })
      else s
    let s := if e.state = 0 then s.dropGroup t v g true else s
    let s := if e.state = 4 then s.discardJournal t v g e.owner else s
    -- entries not under way follow the group to its owner
    let s := if e.state = 1 ∨ e.state = 2 then s.resend t v g false (fun j => j.xid == 2 ^ 32) else s
    if old.state = 2 ∧ e.state = 1 ∧ old.owner ≠ e.owner then
      let h : TkHdr := { src := (s.coordinator t).getD s.id, lane := 0, handle := noHandle.toNat, xid := 0, list := s.registryList }
      s.upTab (fun x => { x with owed := x.owed ++ [(h, OwedKind.release t v g old.owner)] })
    else s

/-- An entry arrives under its EPOCH rule; another EPOCH makes the block fetch the entry afresh (R456). -/
def State.recvEntry (s : State) (t v g : Nat) (e : PEntry) (force : Bool) : State :=
  match s.ver? t v with
  | none => s
  | some x =>
    let old := s.pentry x.pmap g
    if force ∨ e.epoch = old.epoch ∨ e.epoch = (old.epoch + 1) % 1024 then (s.applyEntry t v g e).entryEffects t v g old e
    else s.refetch t v g

/-- A journal entry is redelivered to this block itself: its outcome reaches the command, or the wait, that it belongs to (06 R251, R252). -/
def State.takeBack (s : State) (j : JEntry) : State :=
  let a : AddIn := { tbl := j.tbl, ver := j.ver, ctx := j.ctx, row := j.row, val := j.val, plain := j.plain, carried := j.carried
                     origin := j.origin, handle := j.handle, kcmd := j.kcmd }
  match j.wait with
  | none =>
    let o := s.openWait { id := 0, src := s.id, lane := 3, xid := 0, handle := j.handle, commit := false, napplied := 0
                          drops := [], findings := 0, left := 0, due := s.ctl.now }
    (o.2.takeAdds o.1 s.remotePart [a]).settleWait o.1
  | some w =>
    let r := s.takeAdd w s.remotePart a
    match r.2 with
    | .done f => r.1.lessWait w none f.toByte
    | .drop c => r.1.lessWait w (some (j.row, if c = sVersion then sVersion else sUncorr)) 0
    | .stale => r.1.upTab (fun y => { y with journal := y.journal ++ [{ j with xid := 2 ^ 32 }] })

/-- Redeliver the journal entries for a table's PROMOTING groups of a failed block (06 R251). -/
def State.redeliverTo (s : State) (t x : Nat) : State :=
  (s.tab.vers.filter (fun v => v.tbl == t)).foldl (fun s v =>
    let gs := (sortUnique ((s.tab.journal.filter (fun j => j.tbl == t && j.ver == v.ver && j.owner == x)).map (fun j => j.row / 4096))).filter
      (fun g => (s.pentry v.pmap g).state == 3)
    gs.foldl (fun s g =>
      match s.secondaryOf t g with
      | none => s
      | some b =>
        let pick := fun (j : JEntry) => j.tbl == t && j.ver == v.ver && j.row / 4096 == g && j.owner == x
        let mine := s.tab.journal.filter pick
        let s := s.upTab (fun y => { y with journal := y.journal.filter (fun j => !(pick j)) })
        let s := s.bump MT_ADD_REDELIVER mine.length
        if b = s.id then
          mine.foldl (fun s j => s.takeBack j) s
        else s.sendAdds true 0 (mine.map (fun j => { j with owner := b }))) s) s

/-- Apply an update (R451). -/
def State.applyUpdate (s : State) (u : TkUpdate) : State :=
  match u with
  | .entry t v g e => s.recvEntry t v g e false
  | .promote t v g => s.promoteHere t v g
  | .record r => s.installRecord r
  | .defRow t bs =>
    (match s.rec? t with
     | some r => if r.defrow = 0 then s else s.putMeta (gKey r.defrow) bs
     | none => s)
  | .aux t v off bs =>
    (let f := s.verFmt t v
     if f.aux = 0 || !(s.ver? t v).any (fun x => x.st == .published) then s else s.putData (memKey 0 (f.aux + off)) bs)
  | .region t v off bs =>
    (let s := s.takeRegion t v
     let f := s.verFmt t v
     if f.aux = 0 then s else s.putData (memKey 0 (f.aux + off)) bs)
  | .destroyBegin t => s.upRec t (fun r => { r with dying := true })
  | .destroyEnd t => s.dropRecord t
  | .owners t l => s.upRec t (fun r => { r with owners := l })
  | .replica t g b =>
    (let was := s.secondaryOf t g
     let s := s.upReg t (fun e => { e with replicas := insertBy g b e.replicas })
     -- the block that held the secondary before drops it (12 R469)
     if was = some s.id ∧ b ≠ s.id then
       (s.tab.groups.filter (fun x => x.tbl == t && x.g == g && x.secondary)).foldl (fun s x => s.dropGroup t x.ver g false) s
     else s)
  | .redeliver t x => s.redeliverTo t x
  | .opEnd t id => s.upTab (fun y => { y with mirrorOps := y.mirrorOps.filter (fun o => !(o.tbl == t && o.id == id)) })
  | .op t id phase count kind from_ handle xid =>
    (let o : Op := { id := id, tbl := t, kind := kind, phase := phase, waiting := [], from_ := from_, handle := handle, xid := xid
                     ok := true, count := count }
     s.upTab (fun y => { y with mirrorOps := y.mirrorOps.filter (fun o => !(o.tbl == t && o.id == id)) ++ [o] }))

-- The holder's part of a publish and a switch (R459, R461)

/-- Reserve the storage of the next version, and make its map and slot; none when something lacks. -/
def State.publishReserve (s : State) (t v : Nat) : Option State :=
  match s.rec? t with
  | none => none
  | some r =>
    if (s.ver? t v).isSome then some s
    else
      let fmt := setBits (((s.ver? t r.curVer).map (fun x => s.reg (TK_FMT x.fmt))).getD 0) 44 20 0
      let n := shareOf r.owners r.repl2 r.ngroups s.id * groupBytes (Fmt.of fmt) r.recipe
      (s.reserveBytes t v r.otier n).bind (fun s => s.makeVersion t v fmt r.ngroups r.owners .building)

/-- Copy the groups, entries and auxiliary region of the current version (R459 step 3). -/
def State.publishCopy (s : State) (t v : Nat) : State :=
  match s.rec? t with
  | none => s
  | some r =>
    match s.ver? t r.curVer with
    | none => s
    | some old =>
      let f := s.fmtAt old.fmt
      let g := s.verFmt t v
      let s := s.writeMap t v (s.mapped r old)
      let s := if g.aux = 0 then s else s.copyRun (memKey 0 f.aux) (memKey 0 g.aux) f.auxSize
      (s.tab.groups.filter (fun x => x.tbl == t && x.ver == r.curVer && !x.leaving)).foldl (fun s x =>
        let s := s.placeGroup r v x.g x.tier x.secondary
        match s.group? t v x.g with
        | none => s
        | some y =>
          let n := groupBytes f r.recipe
          let s := (s.copyRun (memKey x.tier x.base) (memKey y.tier y.base) n).charge x.tier s.tkPart (transfersOf x.tier x.base n) false
          s.charge y.tier s.tkPart (transfersOf y.tier y.base n) true) s

/-- The published fields become visible (R459 step 4). -/
def State.publishHere (s : State) (t v : Nat) : State :=
  ((s.upVer t v (fun x => { x with st := .published })).upRec t (fun r => { r with pubVer := v })).keepRec t

/-- The published version becomes current, in one write (R461, R54). -/
def State.switchHere (s : State) (t : Nat) : State :=
  match s.rec? t with
  | none => s
  | some r =>
    if r.pubVer = 0 then s
    else
      let s := if r.curVer = 0 then s else s.upVer t r.curVer (fun x => { x with st := .retired })
      ((s.upVer t r.pubVer (fun x => { x with st := .current })).upRec t (fun r => { r with curVer := r.pubVer, pubVer := 0 })).keepRec t

end Sys2Proof.Machine
end

