-- ==== Sys2Proof/Machine/Coord.lean ====
section
/-! DEFINITION. Coordinators (12): creation, owner sets, operations in progress and their phases, moves of row groups. -/

namespace Sys2Proof.Machine

-- Creation (02 R49, 06 R227, 12 R452)

/-- The recipe parameter block breaks R227. -/
def badRecipe (recipe : Nat) (b : List Byte) : Bool :=
  let p := fun (off : Nat) => (BitVec.ofNat 32 (leAt b off 4) : F32)
  let nonneg := fun (x : F32) => match fv x with | .fin s n _ => !s || n == 0 | _ => false
  let pos := fun (x : F32) => match fv x with | .fin s n _ => !s && n != 0 | _ => false
  decide (recipe > 3) ||
  (recipe != 0 && (b.length != 64 || !nonneg (p 0) || (if recipe = 2 then !nonneg (p 4) else p 4 != 0#32) ||
    (if recipe = 3 then !pos (p 8) || !nonneg (p 12) else p 8 != 0#32 || p 12 != 0#32) || (b.drop 16).any (fun x => x != 0#8)))

/-- Free room that a block reports in a tier. -/
def State.roomAt (s : State) (b tier : Nat) : Nat :=
  if b = s.id then s.room tier else ((lookupBy b s.tab.freeCap).bind (fun l => l[tier]?)).getD 0

/-- Blocks that may own groups: this block and the blocks of the route table, not failed, no endpoints. -/
def State.blocks (s : State) : List Nat :=
  insertNat s.id (sortUnique ((s.fab.routes.filter (fun r => s.routeBit r.1 0)).map (fun r => r.1)) |>.filter (fun b =>
    b == s.id || (!s.isFailed b && !s.endpoint b)))

/-- Candidates in the order of R452: the issuing block, then by descending free room, ties to the lower ID. -/
def State.candidates (s : State) (home tier need : Nat) : List Nat :=
  let ok := s.blocks.filter (fun b => decide (s.roomAt b tier ≥ max need 1))
  let rest := ok.filter (fun b => b != home)
  let sorted := rest.foldl (fun (acc : List Nat) b =>
    let hi := acc.takeWhile (fun x => decide (s.roomAt x tier > s.roomAt b tier ∨ (s.roomAt x tier = s.roomAt b tier ∧ x < b)))
    hi ++ [b] ++ acc.drop hi.length) []
  (if ok.contains home then [home] else []) ++ sorted

/-- The owner set in a tier (R452, R453); none when R452 refuses it or a block lacks room. -/
def State.ownerSet (s : State) (a : CreateArgs) (home tier : Nat) : Option (List Nat) :=
  let f := Fmt.of a.fmt
  let ng := (a.rows + 4095) / 4096
  let gb := groupBytes f a.recipe
  let repl := bit a.tflags 5
  let share := fun (n : Nat) => ceilDiv ng n * gb
  let need := fun (n : Nat) => share n * (if repl then 2 else 1)
  let all := s.blocks.length
  if a.nblk > all ∨ (a.nblk = 1 ∧ repl) then none
  else
    let lo := if repl then 2 else 1
    let ns := if a.nblk ≠ 0 then [a.nblk]
      else ((List.range (all + 1)).filter (fun n => decide (n ≥ lo) && decide (4 * share n ≤ s.capacity tier))).take 1
    match ns with
    | [] => none
    | n :: _ =>
      let c := s.candidates home tier (need n)
      if c.length < n then none else some (c.take n)

/-- The whole check of R49 at the coordinator, with what the issuing block has found: the status, and the owner set with its tier. A
recipe block that could not be read ends the creation between steps 2 and 3. -/
def State.createCheck (s : State) (t : Nat) (a : CreateArgs) (home : Nat) : Nat × CreateArgs :=
  let f := Fmt.of a.fmt
  let fault := a.home != sOk && a.home != sBadTable && a.home != sBadFormat
  if badTblId t || (s.reg? t).isSome || (s.rec? t).isSome || s.tab.ops.any (fun o => o.tbl == t) || decide (s.tab.recs.length ≥ 16384) ||
      a.full then
    (sBadTable, a)
  else if a.home == sBadFormat || fmtBad a.fmt || (f.intacc && bit a.tflags 3) || decide (a.recipe > 3) ||
      (!fault && badRecipe a.recipe a.rcp) then (sBadFormat, a)
  else if fault then (a.home, a)
  else if a.home ≠ sOk then (sBadTable, a)
  else
    let tiers := if a.place = 0 then [1, 2] else [a.place - 1]
    match tiers.findSome? (fun x => (s.ownerSet a home x).map (fun l => (l, x))) with
    | none => (sBadTable, a)
    | some (l, x) =>
      if (s.slotFor a.fmt).isNone || (f.auxSize != 0 && (s.findSpace 0 f.auxSize 4096).isNone) then (sBadTable, a)
      else (sOk, { a with owners := l, tier := x })

/-- The record of a new table: version 1 published (02 R53). -/
def newRecord (t : Nat) (a : CreateArgs) (holders : List Nat) : RecordData :=
  { tbl := t, curVer := 0, pubVer := 1, rows := a.rows, fmt := a.fmt, ctx := a.ctx, flags := a.tflags, recipe := a.recipe, owners := a.owners
    otier := a.tier, holders := holders, curMap := [], pubMap := [], replicas := [], defRow := [], rcp := a.rcp, curAux := [], pubAux := [] }

-- Operations

def State.op? (s : State) (id : Nat) : Option Op := s.tab.ops.find? (fun o => o.id == id)
def State.upOp (s : State) (id : Nat) (f : Op → Op) : State :=
  s.upTab (fun t => { t with ops := updFirst (fun o => o.id == id) f t.ops })

/-- Tell the mirror of a table's entry something of its operations (R447). -/
def State.tellMirror (s : State) (t : Nat) (u : TkUpdate) : State :=
  match s.mirrorOf t with
  | none => s
  | some b => if b = s.id then s else s.sendTk b noHandle.toNat (.update u)

/-- The mirror follows the record and the holder set (R447). -/
def State.mirrorRecord (s : State) (t : Nat) : State :=
  match s.rec? t with
  | some r => s.tellMirror t (.record (s.recordData r))
  | none => s

/-- An operation is over, at the mirror too. -/
def State.endOp (s : State) (id : Nat) : State :=
  let s1 := s.upTab (fun t => { t with ops := t.ops.filter (fun o => o.id != id) })
  match s.op? id with
  | some o => if s.coordinator o.tbl = some s.id then s1.tellMirror o.tbl (.opEnd o.tbl id) else s1
  | none => s1

/-- The mirror learns the phase before the coordinator acts on it (R447). -/
def State.mirrorOp (s : State) (o : Op) : State :=
  s.tellMirror o.tbl (.op o.tbl o.id o.phase o.count o.kind o.from_ o.handle o.xid)

/-- A new operation. -/
def State.newOp (s : State) (t from_ handle xid : Nat) (k : OpKind) : Nat × State :=
  let o : Op := { id := s.tab.nextOp, tbl := t, kind := k, phase := 0, waiting := [], from_ := from_, handle := handle, xid := xid, ok := true
                  count := 0 }
  (o.id, s.upTab (fun x => { x with ops := x.ops ++ [o], nextOp := x.nextOp + 1 }))

/-- A command's request has been answered. A fault that the command met itself names its own address or block. -/
def State.endAsked (s : State) (h status failblk : Nat) : State :=
  s.endCmd h status (fun c => if c.endStatus ≠ sOk ∧ c.endStatus = status then c else { c with failblk := failblk, faultaddr := 0 })

/-- The outcome of an operation reaches who asked: this block's command, or the block's request. -/
def State.answerOp (s : State) (o : Op) (status failblk : Nat) (a : TkAnswer) : State :=
  if o.from_ = s.id then
    if o.handle = noHandle.toNat then s
    else match a with
    | .moved _ _ n stop => s.endCmd o.handle status (fun c => { c with rows := n, residx := (stop.map (fun g => g - leAt c.desc 64 8)).getD 0, failblk := failblk })
    | _ => s.endAsked o.handle status failblk
  else s.send o.from_ 0 (mkMsg 0x90 status o.handle o.xid (Config.tkEncodeAnswer s.registryList a))

/-- Ask every other holder for something that the operation waits for. -/
def State.askAll (s : State) (id t : Nat) (b : TkBody) : State :=
  (s.others t).foldl (fun s x => s.askTk x noHandle.toNat (.op id) b) s

/-- An entry changes at the coordinator with all its effects, and at every holder. -/
def State.setEntry (s : State) (t v g : Nat) (e : PEntry) : State := (s.recvEntry t v g e true).sendUpdate t (.entry t v g e)

/-- A publish or switch of the table is running before this one (R458). -/
def State.behind (s : State) (o : Op) : Bool :=
  s.tab.ops.any (fun x => x.tbl == o.tbl && decide (x.id < o.id) && (match x.kind with
    | .publish .. => true
    | .switch _ => decide (x.phase ≤ 2)
    | _ => false))

/-- The check of R54 when an operation's turn comes. -/
def versionCheck (k : OpKind) (r : TableRec) : Bool :=
  match k with
  | .publish .. => r.pubVer == 0 && r.curVer != 0
  | .switch v => r.pubVer != 0 && (v == 0 || v == r.pubVer)
  | _ => true

/-- FMT of a publish agrees with the table's descriptor in every field but AUX_BASE, or is 0 (02 R71, R74; 03 R132). -/
def State.publishFmt (s : State) (t fmt : Nat) : Bool :=
  fmt == 0 || fmt == setBits (((s.tab.vers.find? (fun x => x.tbl == t)).map (fun x => s.reg (TK_FMT x.fmt))).getD 0) 44 20 0

/-- What this block itself waits for in a phase already entered. -/
def State.selfReady (s : State) (o : Op) : Bool :=
  match o.kind with
  | .destroy => s.canAck (.destroy o.tbl)
  | .switch v => if o.phase = 1 then s.canAck (.prepare o.tbl) else if o.phase = 3 then s.canAck (.retire o.tbl v) else true
  | .migrate .. => false
  | .relWait v g src => s.canAck (.release o.tbl v g src)
  | .promotion x => !((s.reg? o.tbl).any (fun e => e.redeliver.any (fun p => p.2 == x)))
  | _ => true

/-- Start the move of one group at its source: here, or by a request. -/
def State.startMove (s : State) (id t v g src dblk dtier : Nat) (rebuild : Bool) : State :=
  if src = s.id then (s.newOp t s.id id 0 (.moving v g dblk dtier rebuild)).2
  else s.askTk src noHandle.toNat (.op id) (.groupMove t v g dblk dtier rebuild)

/-- A creation that stops releases its reservations at every owner and holder (02 R49, R453). -/
def State.dropCreation (s : State) (t phase : Nat) (a : CreateArgs) : State :=
  let s := if phase ≤ 1 then (a.owners.filter (fun b => b != s.id)).foldl (fun s b =>
      s.sendTk b noHandle.toNat (.versionPhase .publishAbort t 1)) s
    else s.sendUpdate t (.destroyEnd t)
  (s.upTab (fun x => { x with rsv := x.rsv.filter (fun r => r.1 != t) })).dropRecord t

/-- A destroyed table's identifier stays taken until the completion record of its TABLE_DESTROY is written (02 R93). -/
def State.keepId (s : State) (t asker : Nat) : State :=
  s.upTab (fun x => { x with registry := x.registry ++ [{ tbl := t, holders := [asker], replicas := [], destroying := true, redeliver := [] }] })

/-- PROMOTING groups of a block that has failed, or of a failed tier of it. -/
def State.promotingOf (s : State) (t x : Nat) : List (Nat × Nat) :=
  match s.rec? t with
  | none => []
  | some r => ((s.tab.vers.filter (fun v => v.tbl == t)).map (fun v =>
      ((s.mapped r v).filter (fun p => p.2.state == 3 && p.2.owner == x)).map (fun p => (v.ver, p.1)))).flatten

/-- Every report is in: the promoted groups become RESIDENT at their new owners, and wait for a rebuild (R471 steps 4 and 5). -/
def State.finishPromotion (s : State) (t x : Nat) : State :=
  (s.promotingOf t x).foldl (fun s p =>
    match s.ver? t p.1, s.secondaryOf t p.2 with
    | some v, some b =>
      let e := s.pentry v.pmap p.2
      let s := s.setEntry t p.1 p.2 { e with owner := b, state := pResident, repl := false, epoch := (e.epoch + 1) % 1024 }
      (s.bump TK_PROMOTE 1).upTab (fun y => { y with rebuilds := addOnce (t, p.1, p.2) y.rebuilds })
    | _, _ => s) s

/-- What a phase leaves to wait for. -/
def Op.wait (o : Op) (phase : Nat) (l : List Nat) : Op := { o with phase := phase, waiting := l }

/-- Enter the next phase of an operation. -/
def State.enterPhase (s : State) (o : Op) : State :=
  let t := o.tbl
  let go := fun (s : State) (phase : Nat) (l : List Nat) =>
    let s := s.upOp o.id (fun x => x.wait phase l)
    match s.op? o.id with
    | some x => s.mirrorOp x
    | none => s
  let finish := fun (s : State) (st : Nat) => (s.answerOp o st 0xFFFF (.status st 0xFFFF)).endOp o.id
  match o.kind with
  | .create a =>
    if o.phase = 0 then
      let f := Fmt.of a.fmt
      let gb := groupBytes f a.recipe
      let n := fun (b : Nat) => shareOf a.owners (bit a.tflags 5) ((a.rows + 4095) / 4096) b * gb
      match (if a.owners.contains s.id then s.reserveBytes t 1 a.tier (n s.id) else some s) with
      | none => finish (s.dropCreation t 1 a) sBadTable
      | some s =>
        let rest := a.owners.filter (fun b => b != s.id)
        let s := rest.foldl (fun s b => s.askTk b noHandle.toNat (.op o.id) (.reserveStorage t a.tier (n b))) s
        go s 1 rest
    else if o.phase = 1 then
      let s := s.installRecord (newRecord t a ((o.from_ :: a.owners).foldl (fun l b => addOnce b l) []))
      if (s.ver? t 1).isNone then finish (s.dropCreation t 1 a) sBadTable
      else
        match s.rec? t with
        | none => finish (s.dropCreation t 1 a) sBadTable
        | some r =>
          let s := s.askAll o.id t (.update (.record (s.recordData r)))
          go s 2 (s.others t)
    else finish s sOk
  | .destroy =>
    if o.phase = 0 then
      let s := (s.upReg t (fun e => { e with destroying := true })).upRec t (fun r => { r with dying := true })
      go (s.askAll o.id t (.update (.destroyBegin t))) 1 (s.others t ++ [s.id])
    else if o.phase = 1 then
      let l := s.others t
      go (s.askAll o.id t (.update (.destroyEnd t))) 2 l
    else
      let s := s.dropRecord t
      finish (if o.handle = noHandle.toNat then s else s.keepId t o.from_) sOk
  | .publish init fmt =>
    (match s.rec? t with
     | none => finish s sBadTable
     | some r =>
       let v := nextVer r.curVer
       if o.phase = 0 then
         if s.behind o then s
         else if !versionCheck o.kind r then finish s sVersion
         else if !s.publishFmt t fmt then finish s sBadFormat
         else match s.publishReserve t v with
           | none => finish s sBadTable
           | some s => go (s.askAll o.id t (.versionPhase .publishReserve t v)) 1 (s.others t)
       else if o.phase = 1 then
         if init = 1 then go s 2 []
         else go ((s.publishCopy t v).askAll o.id t (.versionPhase .publishCopy t v)) 2 (s.others t)
       else if o.phase = 2 then go ((s.publishHere t v).askAll o.id t (.versionPhase .publish t v)) 3 (s.others t)
       else finish s sOk)
  | .switch _ =>
    (match s.rec? t with
     | none => finish s sBadTable
     | some r =>
       if o.phase = 0 then
         if s.behind o then s
         else if !versionCheck o.kind r then finish s sVersion
         else go (s.askAll o.id t (.versionPhase .prepare t r.pubVer)) 1 (s.others t ++ [s.id])
       else if o.phase = 1 then
         let old := r.curVer
         let s := s.switchHere t
         let s := s.upOp o.id (fun x => { x with kind := .switch old })
         go (s.askAll o.id t (.versionPhase .switch t r.pubVer)) 2 (s.others t)
       else if o.phase = 2 then
         let s := s.answerOp o sOk 0xFFFF (.status sOk 0xFFFF)
         let old := match o.kind with | .switch v => v | _ => 0
         if old = 0 then s.endOp o.id
         else go (s.askAll o.id t (.versionPhase .retire t old)) 3 (s.others t ++ [s.id])
       else
         let old := match o.kind with | .switch v => v | _ => 0
         ((s.freeVersion t old).askAll o.id t (.versionPhase .free t old)).endOp o.id)
  | .migrate v g n dblk dtier =>
    let stop := fun (s : State) (st fb : Nat) => (s.answerOp o st fb (.moved st fb o.count none)).endOp o.id
    (match s.ver? t v with
     | none => stop s sOk 0xFFFF
     | some x =>
       let e := s.pentry x.pmap g
       if o.phase = 0 then
         if n = 0 then stop s sOk 0xFFFF
         else if dblk != s.id && (s.noRoute dblk || s.endpoint dblk) then stop s sUnreach dblk
         else if s.corrupt e then stop s sBadTable 0xFFFF
         else if e.state = 0 ∨ e.state = 4 ∨ (e.owner = dblk ∧ e.tier = dtier) then
           s.upOp o.id (fun y => { y with kind := .migrate v (g + 1) (n - 1) dblk dtier })
         else if e.state ≠ 1 || (e.owner != s.id && s.noRoute e.owner) then s
         else
           -- the entry becomes MIGRATING here; a move between tiers names the slower tier meanwhile (R466)
           let s := if e.owner = dblk then s.setEntry t v g { e with tier := max e.tier dtier } else s
           let s := s.applyEntry t v g { e with state := pMigrating, tier := if e.owner = dblk then max e.tier dtier else e.tier }
           -- the destination holds the record before the group comes (R466)
           let s := if dblk = s.id || (s.holders t).contains dblk then s
             else
               let s := s.upReg t (fun y => { y with holders := y.holders ++ [dblk] })
               match s.rec? t with
               | some r => (s.mirrorRecord t).askTk dblk noHandle.toNat .update (.update (.record (s.recordData r)))
               | none => s
           let s := go s 1 [e.owner]
           s.startMove o.id t v g e.owner dblk dtier false
       else if o.phase = 1 then
         let away := decide (e.owner ≠ dblk)
         let s := s.setEntry t v g { e with owner := dblk, tier := dtier, state := pResident, epoch := if away then (e.epoch + 1) % 1024 else e.epoch }
         let s := if away && !(((s.rec? t).map (fun r => r.owners.contains dblk)).getD true) then
             -- a destination outside the owner set joins it (R466)
             let l := (((s.rec? t).map (fun r => r.owners)).getD []) ++ [dblk]
             (s.upRec t (fun r => { r with owners := l })).sendUpdate t (.owners t l)
           else s
         let s := if away then
             let w := s.newOp t s.id noHandle.toNat 0 (.relWait v g e.owner)
             let s := w.2.upOp w.1 (fun y => { y with waiting := s.others t ++ [s.id], phase := 1 })
             match s.op? w.1 with
             | some x => s.mirrorOp x
             | none => s
           else s
         let s := s.upOp o.id (fun y => { y with kind := .migrate v (g + 1) (n - 1) dblk dtier, phase := 0, count := y.count + 1, waiting := [] })
         (match s.op? o.id with
          | some x => s.mirrorOp { x with phase := 1 }
          | none => s)
       else s)
  | .relWait v g src =>
    if src = s.id then (s.dropGroup t v g false).endOp o.id
    else (s.sendTk src noHandle.toNat (.released t v g)).endOp o.id
  | .promotion x =>
    if o.phase = 0 then
      let gs := s.promotingOf t x
      let l := (gs.filterMap (fun g => s.secondaryOf t g.2)).filter (fun b => b != s.id)
      let s := gs.foldl (fun s g => match s.secondaryOf t g.2 with
        | none => s
        | some b => if b = s.id then s.promoteHere t g.1 g.2 else s.askTk b noHandle.toNat (.op o.id) (.update (.promote t g.1 g.2))) s
      go s 1 l
    else if o.phase = 1 then
      -- every secondary is primary: every block redelivers and reports (R471 step 3)
      let waits := ((s.others t).filter (fun b => b != x || !s.isFailed x) ++ [s.id]).map (fun b => (b, x))
      let s := s.upReg t (fun e => { e with redeliver := e.redeliver.filter (fun p => p.2 != x) ++ waits })
      let s := (s.sendUpdate t (.redeliver t x)).redeliverTo t x
      let h : TkHdr := { src := s.id, lane := 0, handle := noHandle.toNat, xid := 0, list := s.registryList }
      go (s.upTab (fun y => { y with owed := y.owed.filter (fun z => z.2 != .redeliver t x) ++ [(h, OwedKind.redeliver t x)] })) 2 [s.id]
    else (s.finishPromotion t x).endOp o.id
  | .moving .. => s

/-- An operation that a block refused. -/
def State.failOp (s : State) (o : Op) : State :=
  let t := o.tbl
  match o.kind with
  | .create a => ((s.dropCreation t o.phase a).answerOp o sBadTable 0xFFFF (.status sBadTable 0xFFFF)).endOp o.id
  | .publish .. =>
    let v := nextVer (((s.rec? t).map (fun r => r.curVer)).getD 0)
    let s := (s.others t).foldl (fun s b => s.sendTk b noHandle.toNat (.versionPhase .publishAbort t v)) (s.freeVersion t v)
    (s.answerOp o sBadTable 0xFFFF (.status sBadTable 0xFFFF)).endOp o.id
  | .migrate v g _ dblk _ =>
    let s := match s.ver? t v with
      | some x => let e := s.pentry x.pmap g; if e.state = 2 then s.applyEntry t v g { e with state := pResident } else s
      | none => s
    if dblk ≠ s.id ∧ s.noRoute dblk then (s.answerOp o sUnreach dblk (.moved sUnreach dblk o.count none)).endOp o.id
    else (s.answerOp o sPartial 0xFFFF (.moved sPartial 0xFFFF o.count (some g))).endOp o.id
  | _ => s.endOp o.id

/-- Run an operation as far as its waits allow. -/
def State.runOp : Nat → State → Nat → State
  | 0, s, _ => s
  | fuel + 1, s, id =>
    match s.op? id with
    | none => s
    | some o =>
      if o.waiting = [s.id] ∧ s.selfReady o then (s.upOp id (fun x => { x with waiting := [] })).runOp fuel id
      else if !o.waiting.isEmpty then s
      else if !o.ok then s.failOp o
      else match o.kind with
        | .moving .. => s
        | _ => (s.enterPhase o).runOp fuel id

/-- Rounds enough for an operation. -/
def opFuel (s : State) (id : Nat) : Nat :=
  match s.op? id with
  | some { kind := .migrate _ _ n _ _, .. } => 4 * n + 16
  | _ => 16

def State.poke (s : State) (id : Nat) : State := State.runOp (opFuel s id) s id

/-- A block has answered a step of an operation. -/
def State.opAnswer (s : State) (id src : Nat) (ok : Bool) : State :=
  (s.upOp id (fun o => { o with waiting := o.waiting.erase src, ok := o.ok && ok })).poke id

-- Moves (R466, R467, R469)

/-- No P0 or P1 command bound to the version, as its table or as its projection table, is in flight (04 R160). -/
def State.quiet (s : State) (t v : Nat) : Bool :=
  !(s.cmds.any (fun c => decide (c.cls ≤ 2) && (let d := Desc.of c.desc
    (d.binds && d.tbl == t && c.ver == v) || (d.project && d.ptbl == t && c.pver == v))))

/-- Tell who asked for a move how it went. -/
def State.moveDone (s : State) (o : Op) (ok : Bool) : State :=
  let s := s.endOp o.id
  if o.from_ = s.id then s.opAnswer o.handle s.id ok
  else s.send o.from_ 0 (mkMsg 0x95 (if ok then 0 else sRefused) o.handle o.xid (Config.tkEncodeAnswer s.registryList (if ok then .ok else .status sRefused 0xFFFF)))

/-- The copy of a group leaves for a block, in messages of whole rows; its log, partials and step go with the first (R466 step 3). The
reads count to MT_CFG.TK_PART (08 R319). -/
def State.sendCopy (s : State) (id : Nat) (x : Group) (f : Fmt) (recipe dst : Nat) : State :=
  let whole := s.copyGroup x f recipe
  let s := s.charge x.tier s.tkPart (transfersOf x.tier x.base (groupBytes f recipe)) false
  (chunks (max 1 (60000 / (f.size + 4))) (List.range 4096)).foldl (fun s ps =>
    let d := s.copyRows x f recipe ps
    let d := if ps.head? = some 0 then { d with held := whole.held, log := whole.log, step := some x.step } else d
    s.askTk dst noHandle.toNat (.op id) (.groupCopy d)) s

/-- The auxiliary regions of a table's versions leave for a block that takes a group: it has none of its own outside the owner set (02 R83,
R88). -/
def State.sendRegions (s : State) (id t dst : Nat) : State :=
  (s.tab.vers.filter (fun v => v.tbl == t && (s.fmtAt v.fmt).code == 8 && (s.fmtAt v.fmt).aux != 0)).foldl (fun s v =>
    let f := s.fmtAt v.fmt
    (chunks 60000 (s.bytesAt (memKey 0 f.aux) f.auxSize)).zipIdx.foldl (fun s p =>
      s.askTk dst noHandle.toNat (.op id) (.update (.region t v.ver (60000 * p.2) p.1))) s) s

/-- A group moves between tiers of this block: the residency entry switches in one write (R466). -/
def State.moveTier (s : State) (t v g dtier recipe : Nat) : Option State :=
  match s.group? t v g with
  | none => none
  | some x =>
    let n := groupBytes (s.verFmt t v) recipe
    (s.alloc dtier n 4096).map (fun (b, s) =>
      let s := (s.copyRun (memKey x.tier x.base) (memKey dtier b) n).charge x.tier s.tkPart (transfersOf x.tier x.base n) false
      let s := s.charge dtier s.tkPart (transfersOf dtier b n) true
      let s := (((s.flushRange x.tier x.base n).1.free x.tier x.base).wipe (memKey x.tier x.base) n)
      (s.upGroup t v g (fun y => { y with base := b, tier := dtier })).keepEntry t v g)

/-- GROUP_MOVE at the source: once no P0 or P1 command of the version is in flight, it moves here, or asks the destination for room. -/
def State.runMove (s : State) (t v g dblk dtier : Nat) : State :=
  match s.tab.ops.find? (fun o => o.tbl == t && o.phase == 0 && (match o.kind with
      | .moving v' g' b' d' _ => v' == v && g' == g && b' == dblk && d' == dtier
      | _ => false)), s.rec? t with
  | some o, some r =>
    if !s.quiet t v then s
    else if dblk = s.id then
      match s.moveTier t v g dtier r.recipe with
      | some s => (s.bump TK_MIG 1).moveDone o true
      | none => s.moveDone o false
    else
      let s := s.upOp o.id (fun x => { x with phase := 1, waiting := [dblk] })
      s.askTk dblk noHandle.toNat (.op o.id) (.groupMove t v g dblk dtier false)
  | _, _ => s

/-- The destination has answered: the copy leaves, or has arrived. -/
def State.moveAnswer (s : State) (o : Op) (ok : Bool) : State :=
  match o.kind with
  | .moving v g dblk _ rebuild =>
    if !ok then (s.upGroup o.tbl v g (fun x => { x with moving := none })).moveDone o false
    else if o.phase = 1 then
      match s.group? o.tbl v g, s.rec? o.tbl with
      | some x, some r =>
        let s := s.upGroup o.tbl v g (fun y => { y with moving := some dblk })
        let s := match rebuild, s.ver? o.tbl v with
          | false, some z => let e := s.pentry z.pmap g; s.applyEntry o.tbl v g { e with state := pMigrating }
          | _, _ => s
        ((s.upOp o.id (fun y => { y with phase := 2 })).sendRegions o.id o.tbl dblk).sendCopy o.id x (s.verFmt o.tbl v) r.recipe dblk
      | _, _ => s.moveDone o false
    else if s.fab.xchg.any (fun x => x.kind == .op o.id) then s
    else
      let s := if rebuild then s.upGroup o.tbl v g (fun x => { x with moving := none }) else s.bump TK_MIG 1
      s.moveDone o true
  | _ => s

/-- The next block in the owner set after the owner that can take a secondary (R469). -/
def State.nextSecondary (s : State) (r : TableRec) (owner n : Nat) : Option Nat :=
  let i := (r.owners.findIdx? (· == owner)).getD 0
  ((r.owners.drop (i + 1)) ++ r.owners.take (i + 1)).find? (fun b => b != owner && !s.isFailed b && decide (s.roomAt b r.otier ≥ n))

/-- SECONDARY_REBUILD at the coordinator: clear REPL, and have the owner copy the group (R469). -/
def State.runRebuild (s : State) (t v g : Nat) : State :=
  match s.rec? t, s.ver? t v with
  | some r, some x =>
    if s.coordinator t ≠ some s.id ∨ !(s.tab.rebuilds.contains (t, v, g)) then s
    else
      let e := s.pentry x.pmap g
      let without := s.upTab (fun y => { y with rebuilds := y.rebuilds.filter (· != (t, v, g)) })
      if e.state = 2 ∨ e.state = 3 then s
      else if e.state ≠ 1 then without
      else
        let s := if e.repl then s.setEntry t v g { e with repl := false } else s
        match s.nextSecondary r e.owner (groupBytes (s.fmtAt x.fmt) r.recipe) with
        | none => s
        | some b =>
          let s := s.upTab (fun y => { y with rebuilds := y.rebuilds.filter (· != (t, v, g)) })
          -- the replica map is one for all versions: another block as secondary means a rebuild of each
          let s := if s.secondaryOf t g = some b then s
            else (s.tab.vers.filter (fun z => z.tbl == t && z.ver != v)).foldl (fun s z =>
              let y := s.pentry z.pmap g
              if y.repl && y.state == 1 then
                (s.setEntry t z.ver g { y with repl := false }).upTab (fun u => { u with rebuilds := addOnce (t, z.ver, g) u.rebuilds })
              else s) s
          let s := (s.applyUpdate (.replica t g b)).sendUpdate t (.replica t g b)
          let o := s.newOp t s.id noHandle.toNat 0 (.moving v g b r.otier true)
          if e.owner = s.id then
            (o.2.upOp o.1 (fun y => { y with phase := 1, waiting := [b] })).askTk b noHandle.toNat (.op o.1) (.groupMove t v g b r.otier true)
          else
            -- phase 9: the owner does the copy, and its answer ends the rebuild
            (o.2.upOp o.1 (fun y => { y with phase := 9, waiting := [e.owner] })).askTk e.owner noHandle.toNat (.op o.1)
              (.groupMove t v g b r.otier true)
  | _, _ => s

/-- A rebuild is complete: REPL is set at every holder (R469). -/
def State.rebuilt (s : State) (t v g : Nat) : State :=
  match s.ver? t v with
  | none => s
  | some x =>
    let e := s.pentry x.pmap g
    if e.state ≠ 1 then s else (s.setEntry t v g { e with repl := true }).bump TK_REBUILD 1

-- Mapping of groups (R454, R478; 06 R593)

/-- Map an UNMAPPED or LOST group; none when no block can take it. Of blocks with equal most room, a LOST group goes to the first in owner-set
order (DESIGN CHOICE, log 105). -/
def State.mapGroup (s : State) (t v g : Nat) : State × Option PEntry :=
  match s.rec? t, s.ver? t v with
  | some r, some x =>
    let e := s.pentry x.pmap g
    let repl := r.repl2 && decide (r.owners.length ≥ 2)
    if e.state = 0 then
      let n : PEntry := { owner := r.assigned g, tier := r.otier, repl := repl, state := pResident, epoch := e.epoch }
      (s.setEntry t v g n, some n)
    else if e.state = 4 then
      let need := groupBytes (s.fmtAt x.fmt) r.recipe
      match (r.owners.filter (fun b => !s.isFailed b && decide (s.roomAt b r.otier ≥ need))).foldl (fun (b : Option Nat) o =>
          match b with
          | none => some o
          | some y => if s.roomAt o r.otier > s.roomAt y r.otier then some o else some y) none with
      | none => (s, none)
      | some b =>
        let n : PEntry := { owner := b, tier := r.otier, repl := false, state := pResident
                            epoch := if b = e.owner then e.epoch else (e.epoch + 1) % 1024 }
        (s.setEntry t v g n, some n)
    else (s, some e)
  | _, _ => (s, none)

end Sys2Proof.Machine
end

