-- ==== Sys2Proof/Machine/RowsCmd.lean ====
section
/-! DEFINITION. ROWS_WRITE and ROWS_READ (03 R133, R134; 02 R60, R87, R88, R90; 11 R428; 12 R454, R594). -/

namespace Sys2Proof.Machine

/-- Buffers read unit by unit: the bytes of the units before the first obstacle, whether parts are still on their way, and the
obstacle. An obstacle behind missing parts is met again, and counted, once they are in. -/
def State.readUnits (s : State) (c : Cmd) (l : List (Nat × Nat)) : State × List (List Byte) × Bool × Option Buf :=
  l.foldl (fun (acc : State × List (List Byte) × Bool × Option Buf) p =>
    if acc.2.2.2.isSome then acc
    else
      let r := acc.1.readBuf c false p.1 p.2
      match r.2 with
      | .bytes bs => (r.1, acc.2.1 ++ [bs], acc.2.2.1, none)
      | .away => (r.1, acc.2.1 ++ [[]], true, none)
      | b => (if acc.2.2.1 then acc.1 else r.1, acc.2.1, acc.2.2.1, some b)) (s, [], false, none)

/-- Row numbers of the positions: a list, or the range from START (R133). The entries of their groups are read through the Metadata Cache. -/
def State.rowNumbers (s : State) (c : Cmd) (d : Desc) (v : Version) : State × Option (List Nat) :=
  let known := fun (s : State) (l : List Nat) =>
    ((s.readEntries v.pmap (s.ringPart c.ring) (sortUnique ((l.filter (fun i => i != padIndex)).map (fun i => i / 4096)))).1, some l)
  if d.idxp = 0 then known s (List.range d.nidx |>.map (fun i => d.start + i))
  else
    let r := s.readBufs c true [(d.idxp, d.iw * d.nidx)]
    match obstacle r.2 with
    | some b => (r.1.meet c b d.resume, none)
    | none => known r.1 (d.indices (((r.2.head?).map Buf.get).getD []))

/-- The command's exchanges of the kinds that a row command waits for. -/
def State.asking (s : State) (h : Nat) : Bool :=
  s.fab.xchg.any (fun x => x.handle == h && (match x.kind with
    | .ask | .entry .. => true
    | _ => false))

/-- Where the row of a position lies now (R134). -/
inductive RowAt where
  | pad
  | unmapped
  | lost
  | promoting (owner : Nat)
  | unreachable (owner : Nat)
  | here
  | away (owner : Nat)
  | corrupt
  | metadata
  deriving DecidableEq, Repr

def State.rowAt (s : State) (v : Version) (i : Nat) : RowAt :=
  if i = padIndex then .pad
  else
    let g := i / 4096
    if s.mdBad (v.pmap + 4 * g) 4 then .metadata
    else
      let e := s.pentry v.pmap g
      if s.corrupt e then .corrupt
      else if e.state = 0 then .unmapped
      else if e.state = 4 then .lost
      else if e.state = 3 then .promoting e.owner
      else if e.owner = s.id then .here
      else if s.noRoute e.owner then .unreachable e.owner
      else .away e.owner

-- ROWS_WRITE of rows

/-- No block of a position yet. -/
def noOwner : Nat := 0xFFFF

/-- Stages 0 and 1: row numbers, checks, and the data of the units that can be read. `got` holds each position's owner, row, bytes
and whether it has been transferred. -/
def State.rowsWriteRead (s : State) (c : Cmd) (d : Desc) (r : TableRec) (v : Version) : State :=
  let f := s.fmtAt v.fmt
  let l := s.rowNumbers c d v
  match l.2 with
  | none => l.1
  | some idx =>
    if idx.any (fun i => i != padIndex && decide (i ≥ r.rows)) then l.1.endWith c.handle sBadTable
    else
      let mine := (idx.zipIdx).drop d.resume
      -- units before the first corrupt entry are finished (02 R65); unreadable metadata ends the command with no effect
      let ok := mine.takeWhile (fun p => l.1.rowAt v p.1 != .corrupt)
      if ok.any (fun p => l.1.rowAt v p.1 == .metadata) then l.1.endWith c.handle sUncorr
      else
        let u := l.1.readUnits c (ok.map (fun p => (d.dstp + p.2 * f.size, if p.1 = padIndex then 0 else f.size)))
        if u.2.2.1 then u.1.upCmd c.handle (fun x => { x with phase := .waiting })
        else
          match u.2.2.2 with
          | some (.held a) => u.1.waitOn c.handle a
          | ob =>
            let n := u.2.1.length
            let got := (ok.take n).zip u.2.1 |>.map (fun p => (noOwner, p.1.1, p.2, false))
            let e := match ob with
              | some (.stop st a) => (st, if st = sTransFault then a else 0, if st = sUnreach then gBlock a else 0xFFFF)
              | some _ => (sPartial, 0, 0xFFFF)
              | none => (if ok.length < mine.length then sBadTable else sOk, 0, 0xFFFF)
            u.1.upCmd c.handle (fun x => { x with
              stage := 2, phase := .waiting, got := got, endStatus := e.1, faultaddr := e.2.1, failblk := e.2.2
              residx := if e.1 = sPartial then d.resume + n else 0 })

/-- Stage 2: groups that must be mapped first (R454, R478, R594). Events: 2 no coordinator or no answer, with the block; 12 no room,
with the position. -/
def State.rowsMap (s : State) (c : Cmd) (d : Desc) (v : Version) : State :=
  let want := (c.got.map (fun p => p.2.1)).filter (fun i => s.rowAt v i == .unmapped || s.rowAt v i == .lost)
  let gs := sortUnique (want.map (fun i => i / 4096))
  let s := s.upCmd c.handle (fun x => { x with stage := 3 })
  match s.coordinator d.tbl with
  | none => s
  | some b =>
    gs.foldl (fun s g =>
      if b = s.id then (s.mapGroup d.tbl v.ver g).1
      else if s.noRoute b then s
      else s.askTk b c.handle (.entry d.tbl v.ver g) (.mapReq d.tbl v.ver g)) s

/-- Write rows of a group held here; the wait holds for copies (06 R235; the same as for an add). -/
def State.writeRowsHere (s : State) (w : Nat) (r : TableRec) (t ver : Nat) (rows : List (Nat × List Byte)) : State :=
  let f := s.verFmt t ver
  let s := rows.foldl (fun s p =>
    match s.group? t ver (p.1 / 4096) with
    | none => s
    | some x =>
      let off := x.rowOff f (p.1 % 4096)
      (s.putData (memKey x.tier off) (fitTo f.size p.2)).charge x.tier s.tkPart (transfersOf x.tier off f.size) true) s
  (sortUnique (rows.map (fun p => p.1 / 4096))).foldl (fun s g =>
    match s.group? t ver g with
    | none => s
    | some x =>
      let ps := sortUnique ((rows.filter (fun p => p.1 / 4096 == g)).map (fun p => p.1 % 4096))
      let s := s.touch t ver g (sumOf (ps.map (fun p => sectorsOf (x.rowOff f p) f.size)))
      s.mirrorAdd w x (s.copyRows x f r.recipe ps)) s

/-- Rows that wait for a place go where they lie now: they are written here, or sent to their owners. The rest become events: 2 unreachable,
5 a tier out of service (08 R315), 6 metadata, 12 no room, with the position. Units from the first corrupt entry on are left (02 R65). -/
def State.rowsSend (s : State) (c : Cmd) (d : Desc) (r : TableRec) (v : Version) (pick : Nat × Nat × List Byte × Bool → Bool) : State :=
  let first := (s.registryList.head?).getD noOwner
  let up := fun (i : Nat) => s.groupUp d.tbl v.ver (i / 4096)
  let ok := c.got.takeWhile (fun p => !(pick p && s.rowAt v p.2.1 == .corrupt))
  let owner := fun (i : Nat) => match s.rowAt v i with
    | .here => if up i then s.id else noOwner
    | .away o => o
    | _ => noOwner
  let bad := (ok.zipIdx.filter (fun p => pick p.1)).filterMap (fun p => match s.rowAt v p.1.2.1 with
    | .here => if up p.1.2.1 then none else some (5, s.id)
    | .promoting o => some (2, o)
    | .unreachable o => some (2, o)
    | .unmapped => some (2, (s.coordinator d.tbl).getD first)
    | .lost => if (s.coordinator d.tbl).isNone then some (2, first) else some (12, d.resume + p.2)
    | .metadata => some (6, s.id)
    | _ => none)
  let mine := ok.filter pick
  let got := ok.map (fun p => if pick p then (owner p.2.1, p.2.1, p.2.2.1, owner p.2.1 == s.id) else p)
  let rowsOf := fun (o : Nat) => (mine.filter (fun p => owner p.2.1 == o && p.2.1 != padIndex)).map (fun p => (p.2.1, p.2.2.1))
  let others := sortUnique ((mine.map (fun p => owner p.2.1)).filter (fun o => o != s.id && o != noOwner))
  let s := s.upCmd c.handle (fun x => { x with
    stage := 4, got := got, events := x.events ++ bad, owners := x.owners ++ others
    endStatus := if ok.length < c.got.length then sBadTable else x.endStatus })
  let o := s.openWait { id := 0, src := s.id, lane := 2, xid := 0, handle := c.handle, commit := false, napplied := 0, drops := []
                        findings := 0, left := 0, due := c.deadline }
  let s := (o.2.writeRowsHere o.1 r d.tbl v.ver (rowsOf s.id)).settleWait o.1
  others.foldl (fun s o => s.askTk o c.handle .ask (.rowsWrite d.tbl v.ver c.ctx (rowsOf o))) s

/-- Stage 3: write what lies here and ask the owners of the rest. -/
def State.rowsPut (s : State) (c : Cmd) (d : Desc) (r : TableRec) (v : Version) : State := s.rowsSend c d r v (fun _ => true)

/-- Entries are in after a STALE_OWNER answer: rows that nobody has confirmed or been asked for go where they lie now (12 R457). -/
def State.rowsRetry (s : State) (c : Cmd) (d : Desc) (r : TableRec) (v : Version) : State :=
  let open_ := fun (p : Nat × Nat × List Byte × Bool) => !p.2.2.2 && p.1 != noOwner && !(c.owners.contains p.1)
  if c.got.any open_ then s.rowsSend c d r v open_ else s

/-- A STALE_OWNER answer to a row or group command: the coordinator is asked for the entries of its groups (12 R457). -/
def State.staleAsk (s : State) (c : Cmd) (t ver : Nat) (gs : List Nat) : State :=
  let s := s.bump TK_STALE 1
  match s.coordinator t with
  | none => s
  | some b =>
    if b = s.id || s.noRoute b || decide (s.ctl.now ≥ c.deadline) then s
    else gs.foldl (fun s g => s.askTk b c.handle (.entry t ver g) (.entryFetch t ver g)) s

/-- The end of a ROWS_WRITE of rows: a fault on the buffer or a corrupt entry first, then what could not be written, in the order of 04 R181
and 06 R252 (DESIGN CHOICE, log 42; R134, R591). -/
def State.rowsWriteEnd (s : State) (c : Cmd) (missing : List Nat) : State :=
  let n := (c.got.filter (fun p => p.2.2.2 && p.2.1 != padIndex)).length
  let unreach := (c.events.filter (fun e => e.1 == 2)).map (fun e => e.2)
  let has := fun (k : Nat) => c.events.any (fun e => e.1 == k)
  let noRoom := (c.events.filter (fun e => e.1 == 12)).map (fun e => e.2)
  let set := fun (st fb ri : Nat) => s.endCmd c.handle st (fun x => { x with rows := n, failblk := fb, residx := ri })
  if c.endStatus = sPartial ∨ c.endStatus = sTransFault ∨ c.endStatus = sDenied ∨ c.endStatus = sUncorr then
    s.endCmd c.handle c.endStatus (fun x => { x with rows := n })
  else if c.endStatus = sBadTable then set sBadTable 0xFFFF 0
  else if c.endStatus = sUnreach then set sUnreach c.failblk 0
  else match missing, unreach, noRoom with
    | m :: ms, _, _ => set sTimeout (ms.foldl min m) 0
    | [], m :: ms, _ => set sUnreach (ms.foldl min m) 0
    | [], [], l => if has 10 then set sDenied 0xFFFF 0
      else if has 5 || has 6 then set sUncorr 0xFFFF 0
      else match l with
        | m :: ms => set sPartial 0xFFFF (ms.foldl min m)
        | [] => s.endCmd c.handle sOk (fun x => { x with rows := n })

-- Default row and auxiliary region

/-- Updates of an auxiliary region in messages of at most 60,000 B. -/
def auxUpdates (t ver off : Nat) (bs : List Byte) : List TkUpdate :=
  (chunks 60000 bs).zipIdx.map (fun p => .aux t ver (off + 60000 * p.2) p.1)

/-- Give every holder an update, and let the command wait for them. -/
def State.shareUpdate (s : State) (h t : Nat) (u : TkUpdate) : State :=
  let s := s.applyUpdate u
  match s.coordinator t with
  | none => s
  | some b =>
    if b = s.id then (s.others t).foldl (fun s x => s.askTk x h .ask (.update u)) s
    else if s.noRoute b then s else s.askTk b h .ask (.update u)

/-- ROWS_WRITE of the default row or the auxiliary region: the bytes are read whole, then every holder takes them. The region changes only
while its version is published (02 R88). -/
def State.rowsSpecial (s : State) (c : Cmd) (d : Desc) (v : Version) : State :=
  let f := s.fmtAt v.fmt
  let n := if d.target = 1 then 4 * f.dim else d.nidx
  if d.target ≠ 1 ∧ v.st ≠ .published then s.endWith c.handle sBadTable
  else
  let r := s.readBuf c false d.dstp n
  match r.2 with
  | .bytes bs =>
    let us := if d.target = 1 then [TkUpdate.defRow d.tbl bs] else auxUpdates d.tbl v.ver d.start bs
    let s := r.1.upCmd c.handle (fun x => { x with stage := 4, phase := .waiting, rows := b2n (d.target == 1) })
    us.foldl (fun s u => s.shareUpdate c.handle d.tbl u) s
  | b => r.1.meet c b d.resume

/-- Run ROWS_WRITE as far as it goes. -/
def State.runRowsWrite (s : State) (h : Nat) : State :=
  match s.cmd? h with
  | none => s
  | some c0 =>
    let d := Desc.of c0.desc
    let b := s.begin_ c0
    match b.2, b.1.rec? d.tbl, b.1.cmd? h with
    | true, some r, some c =>
      let s := b.1
      let at_ := fun (s : State) (n : Nat) => (s.cmd? h).filter (fun c => c.phase != .done && c.stage == n)
      (match s.ver? d.tbl c.ver with
       | none => s.endWith h sBadTable
       | some v =>
         let s := match at_ s 0 with
           | none => s
           | some c => if d.target = 0 then s.rowsWriteRead c d r v else s.rowsSpecial c d v
         let s := match at_ s 2 with
           | none => s
           | some c => s.rowsMap c d v
         let s := match at_ s 3 with
           | none => s
           | some c => if s.asking h then s else s.rowsPut c d r v
         let s := match at_ s 4 with
           | none => s
           | some c => if d.target = 0 && !s.asking h then s.rowsRetry c d r v else s
         match at_ s 4 with
         | none => s
         | some c =>
           if s.asking h || s.ownWaits h then s
           else if d.target = 0 then s.rowsWriteEnd c []
           else s.endCmd h sOk (fun c => c))
    | true, none, _ => b.1.endWith h sBadTable
    | _, _, _ => b.1

/-- An owner has answered: its rows are written, but those of a tier out of service that it lists, or it has written none; a stale one leaves
them open. -/
def State.rowsWritten (s : State) (h o status : Nat) (bad : List Nat) : State :=
  if status = 0xF0 then
    match s.cmd? h with
    | none => s
    | some c =>
      let d := Desc.of c.desc
      (s.upCmd h (fun c => { c with owners := c.owners.filter (· != o) })).staleAsk c d.tbl c.ver
        (sortUnique ((c.got.filter (fun p => p.1 == o && !p.2.2.2)).map (fun p => p.2.1 / 4096)))
  else s.upCmd h (fun c => { c with
    owners := c.owners.filter (· != o)
    got := c.got.map (fun p => if p.1 == o && !p.2.2.2 then
      (if status = sOk ∧ !bad.contains p.2.1 then (o, p.2.1, p.2.2.1, true) else (noOwner, p.2.1, p.2.2.1, false)) else p)
    events := if status = sOk then (if bad.isEmpty then c.events else addOnce (5, o) c.events)
      else c.events ++ [(if status = sDenied then 10 else if status = sUncorr then 5 else 2, o)] })

/-- The remote cutoff of ROWS_WRITE: owners without an answer are missing, and what was never handed over is not written. -/
def State.cutRowsWrite (s : State) (c : Cmd) (d : Desc) : State :=
  let s := s.sweepWaits
  match s.cmd? c.handle with
  | none => s
  | some c =>
    if c.phase = .done then s
    else if c.stage < 4 then
      match s.coordinator d.tbl with
      | some b => s.endAt c.handle sTimeout b
      | none => s.endWith c.handle sTimeout
    else if d.target = 0 then s.rowsWriteEnd c c.owners
    else
      let missing := (s.fab.xchg.filter (fun x => x.handle == c.handle && x.kind == .ask)).map (fun x => x.dst)
      match missing with
      | [] => s.endWith c.handle sOk
      | m :: ms => s.endAt c.handle sTimeout (ms.foldl min m)

/-- ROWS_WRITE rows for another home block: the context check is repeated (02 R52), rows of tiers in service are written and mirrored, and the
others are listed (R134, 08 R315). -/
def State.serveRowsWrite (s : State) (hdr : TkHdr) (t ver ctx : Nat) (rows : List (Nat × List Byte)) : State :=
  let body := TkBody.rowsWrite t ver ctx rows
  match s.rec? t with
  | none => s.answerTk hdr body 0xF0 (.status 0xF0 0xFFFF)
  | some r =>
    let up := fun (p : Nat × List Byte) => s.groupUp t ver (p.1 / 4096)
    if ctxDenied r ctx false then s.deny.answerTk hdr body sDenied (.status sDenied 0xFFFF)
    else if !s.heldRows t ver (rows.map (fun p => p.1)) then s.answerTk hdr body 0xF0 (.status 0xF0 0xFFFF)
    else
      let o := s.openWait { id := 0, src := s.id, lane := 2, xid := 0, handle := noHandle.toNat, commit := false, napplied := 0
                            drops := [], findings := 0, left := 0, due := s.ctl.now }
      ((o.2.writeRowsHere o.1 r t ver (rows.filter up)).settleWait o.1).answerTk hdr body 0
        (if rows.all up then .ok else .rows ((rows.filter (fun p => !up p)).map (fun p => (p.1, []))))

-- ROWS_READ

/-- Stored bytes of rows held here, read from the tier (07 R258). -/
def State.readStored (s : State) (t ver part : Nat) (l : List Nat) : State × List (Nat × Option (List Byte)) :=
  let f := s.verFmt t ver
  l.foldl (fun acc i =>
    match acc.1.group? t ver (i / 4096) with
    | none => (acc.1, acc.2 ++ [(i, none)])
    | some g =>
      let off := g.rowOff f (i % 4096)
      let s := (acc.1.charge g.tier part (transfersOf g.tier off f.size) false).touch t ver (i / 4096) (sectorsOf off f.size)
      (s, acc.2 ++ [(i, if s.tierReadOk g.tier off f.size then some (s.bytesAt (memKey g.tier off) f.size) else none)])) (s, [])

/-- Rows of an owner that no reply has brought. -/
def State.askRows (s : State) (c : Cmd) (d : Desc) (v : Version) : State :=
  let open_ := sortUnique (((c.pos.map (fun p => p.idx)).filter (fun i => i != padIndex && !(c.got.any (fun g => g.2.1 == i)))))
  let owners := sortUnique (open_.filterMap (fun i => match s.rowAt v i with | .away o => some o | _ => none))
  let s := s.upCmd c.handle (fun x => { x with owners := owners })
  owners.foldl (fun s o => s.askTk o c.handle .ask (.rowsRead d.tbl v.ver c.ctx (open_.filter (fun i => s.rowAt v i == .away o)))) s

/-- Ask again for rows that have no answer, and read those that lie here by now. -/
def State.rowsReadAgain (s : State) (c : Cmd) (d : Desc) (v : Version) : State :=
  let here := sortUnique ((c.pos.map (fun p => p.idx)).filter (fun i => i != padIndex && !(c.got.any (fun g => g.2.1 == i)) && s.rowAt v i == .here))
  let loc := s.readStored d.tbl v.ver (s.ringPart c.ring) here
  let c2 := { c with got := c.got ++ loc.2.map (fun p => (s.id, p.1, p.2.getD [], p.2.isNone)), unsent := 0 :: c.unsent }
  (loc.1.upCmd c.handle (fun _ => c2)).askRows c2 d v

/-- Stage 0: row numbers, local rows, and the owners of the rest. -/
def State.rowsReadStart (s : State) (c : Cmd) (d : Desc) (r : TableRec) (v : Version) : State :=
  let l := s.rowNumbers c d v
  match l.2 with
  | none => l.1
  | some idx =>
    if idx.any (fun i => i != padIndex && decide (i ≥ r.rows)) then l.1.endWith c.handle sBadTable
    else
      let mine := idx.drop d.resume
      let ok := mine.takeWhile (fun i => l.1.rowAt v i != .corrupt)
      let loc := l.1.readStored d.tbl v.ver (s.ringPart c.ring) (sortUnique (ok.filter (fun i => l.1.rowAt v i == .here)))
      let pos := ok.map (fun i => { idx := i, kind := if i = padIndex then PosKind.pad else .loc, w := 0#32, v := [], fnd := 0 : Pos })
      let got := loc.2.map (fun p => match p.2 with
        | some bs => (s.id, p.1, bs, false)
        | none => (s.id, p.1, [], true))
      let c2 := { c with stage := 1, phase := .waiting, pos := pos, got := got, endStatus := if ok.length < mine.length then sBadTable else sOk
                         limit := d.resume + ok.length }
      (loc.1.upCmd c.handle (fun _ => c2)).askRows c2 d v

/-- The stored bytes of a position and its event of 04 R181, if it has one. -/
def State.rowResult (s : State) (c : Cmd) (f : Fmt) (v : Version) (i : Nat) : List Byte × Bool × Option (Nat × Nat) :=
  if i = padIndex then (zeros f.size, false, none)
  else
    match c.got.find? (fun g => g.2.1 == i) with
    | some g => if g.2.2.2 then (zeros f.size, true, some (5, s.id)) else (fitTo f.size g.2.2.1, false, none)
    | none =>
      match s.rowAt v i with
      | .unmapped => (zeros f.size, false, none)
      | .lost => (zeros f.size, true, some (4, s.id))
      | .promoting o => (zeros f.size, true, some (3, o))
      | .unreachable o => (zeros f.size, true, some (2, o))
      | .away o => (zeros f.size, true, some (((c.events.find? (fun e => e.2 == o)).map (fun e => e.1)).getD 1, o))
      | .metadata => (zeros f.size, false, some (6, s.id))
      | _ => (zeros f.size, true, some (5, s.id))

/-- Finish: a corrupt entry ahead of every event, with the units before it written (02 R65); else events, or the bytes (R134, 04 R181, 11 R428).
Bytes that no completion states as written are free. -/
def State.rowsReadEnd (s : State) (c : Cmd) (d : Desc) (v : Version) : State :=
  let f := s.fmtAt v.fmt
  let pos := c.pos.takeWhile (fun p => c.got.any (fun g => g.2.1 == p.idx) || s.rowAt v p.idx != .corrupt)
  let c := if pos.length < c.pos.length then { c with pos := pos, endStatus := sBadTable } else c
  let res := pos.map (fun p => (p.idx, s.rowResult c f v p.idx))
  match if c.endStatus = sOk then decideEvents d.degr (res.filterMap (fun x => x.2.2.2)) [] else none with
  | some (st, blk) =>
    (if c.inl then s else s.scribble c (d.dstp + d.resume * f.size) (res.length * f.size)).endCmd c.handle st (fun x => { x with failblk := blk })
  | none =>
    let failed := fun (x : Nat × List Byte × Bool × Option (Nat × Nat)) => x.2.2.2.any (fun e => hardEvent d.degr e.1)
    let fo := res.foldl (fun (acc : State × List (Nat × List Byte × Bool × Option (Nat × Nat))) x =>
      if failed x then let r := acc.1.freeBytes f.size; (r.2, acc.2 ++ [(padIndex, r.1, false, none)]) else (acc.1, acc.2 ++ [x])) (s, [])
    let s := fo.1
    let res := fo.2
    let degr := d.degr && res.any (fun x => x.2.2.1)
    let whole := if c.endStatus ≠ sOk then c.endStatus else if degr then sDegraded else sOk
    let count := fun (n : Nat) => ((res.take n).filter (fun x => x.1 != padIndex)).length
    let unmapped := res.any (fun x => x.1 != padIndex && s.rowAt v x.1 == .unmapped)
    let rep := fun (st n : Nat) (x : Cmd) =>
      { x with rows := count n, status := st, flags := (if unmapped then fDefault else 0) + (if degr then fDegraded else 0) }
    let outs := res.zipIdx.map (fun x => [(d.dstp + (d.resume + x.2) * f.size, x.1.2.1)])
    if c.inl then
      let fr := if d.resume = 0 then ([], s) else s.freeBytes 128
      fr.2.endCmd c.handle whole (fun x => { rep whole res.length x with result := inlineResult d fr.1 outs })
    else
      let w := s.writeUnits c d.resume outs (.ringWrite c.ring) 1
      match w.2 with
      | .done => w.1.endCmd c.handle whole (rep whole res.length)
      | .stop u st a =>
        if st = sUnreach then w.1.endCmd c.handle st (fun x => { rep st (u - d.resume) x with failblk := gBlock a })
        else w.1.endCmd c.handle st (fun x => { rep st (u - d.resume) x with faultaddr := if st = sTransFault then a else 0 })
      | .retry u => w.1.endCmd c.handle sPartial (fun x => { rep sPartial (u - d.resume) x with residx := u })
      | .held a => w.1.waitOn c.handle a

/-- The default row as d FP32 values (R133). -/
def State.readDefault (s : State) (c : Cmd) (d : Desc) (r : TableRec) (f : Fmt) : State :=
  let bs := ((s.defaultRow r f).map (fun x => leBytes 4 x.toNat)).flatten
  if c.inl then s.endCmd c.handle sOk (fun x => { x with result := bs, rows := 1 })
  else
    let w := s.writeUnits c 0 [[(d.dstp, bs)]] (.ringWrite c.ring) 1
    match w.2 with
    | .done => w.1.endCmd c.handle sOk (fun x => { x with rows := 1 })
    | .stop _ st a => if st = sUnreach then w.1.endAt c.handle st (gBlock a) else w.1.endFault c.handle st a
    | .retry _ => w.1.endResume c.handle 0
    | .held a => w.1.waitOn c.handle a

/-- Run ROWS_READ as far as it goes. -/
def State.runRowsRead (s : State) (h : Nat) : State :=
  match s.cmd? h with
  | none => s
  | some c0 =>
    let d := Desc.of c0.desc
    let b := s.begin_ c0
    match b.2, b.1.rec? d.tbl, b.1.cmd? h with
    | true, some r, some c =>
      let s := b.1
      (match s.ver? d.tbl c.ver with
       | none => s.endWith h sBadTable
       | some v =>
         if d.target = 1 then s.readDefault c d r (s.fmtAt v.fmt)
         else
           let s := if c.stage = 0 then s.rowsReadStart c d r v
             else if c.stage = 1 && !s.asking h && decide (s.ctl.now < c.deadline) && c.unsent.length < 4 then
               -- rows whose owner has changed since they were asked for
               let again := c.pos.any (fun p => !(c.got.any (fun g => g.2.1 == p.idx)) && (match s.rowAt v p.idx with
                 | .away o => !(c.owners.contains o) && !(c.events.any (fun e => e.2 == o))
                 | .here => true
                 | _ => false))
               if again then s.rowsReadAgain c d v else s
             else s
           match s.cmd? h with
           | some c => if c.phase ≠ .done ∧ c.stage = 1 ∧ !s.asking h then s.rowsReadEnd c d v else s
           | none => s)
    | true, none, _ => b.1.endWith h sBadTable
    | _, _, _ => b.1

/-- Rows from an owner, or its refusal; after a stale one the rows are asked for again (12 R457). -/
def State.rowsArrived (s : State) (h o status : Nat) (l : List (Nat × List Byte)) : State :=
  if status = 0xF0 then
    match s.cmd? h with
    | none => s
    | some c =>
      let d := Desc.of c.desc
      match s.ver? d.tbl c.ver with
      | none => s
      | some v => s.staleAsk c d.tbl c.ver (sortUnique ((c.pos.filter (fun p => p.idx != padIndex && s.rowAt v p.idx == .away o)).map (fun p => p.idx / 4096)))
  else s.upCmd h (fun c => { c with
    owners := c.owners.filter (· != o), got := c.got ++ l.map (fun p => (o, p.1, p.2, p.2.isEmpty))
    events := if status = sOk then c.events else c.events ++ [(replyEvent false status, o)] })

/-- ROWS_READ rows for another home block: the context check is repeated (02 R52); an unreadable row answers with no bytes. -/
def State.serveRowsRead (s : State) (hdr : TkHdr) (t ver ctx : Nat) (rows : List Nat) : State :=
  let body := TkBody.rowsRead t ver ctx rows
  if (s.rec? t).any (fun r => ctxDenied r ctx true) then s.deny.answerTk hdr body sDenied (.status sDenied 0xFFFF)
  else if !s.heldRows t ver rows then s.answerTk hdr body 0xF0 (.status 0xF0 0xFFFF)
  else
    let r := s.readStored t ver s.remotePart rows
    r.1.answerTk hdr body 0 (.rows (r.2.map (fun p => (p.1, p.2.getD []))))

end Sys2Proof.Machine
end

