-- ==== Sys2Proof/Machine/Image.lean ====
section
/-! DEFINITION. CHECKPOINT and RESTORE (12 R475 to R479, R594; 11 R428, R443). -/

namespace Sys2Proof.Machine

-- Layout (R475, R476)

/-- Bytes of accumulators of a group. -/
def accBytes (recipe : Nat) : Nat := if recipe = 3 then 16384 else 0

/-- Start of section k of an image. -/
def sectionAt (f : Fmt) (recipe k : Nat) : Nat := 64 + padTo 64 f.auxSize + k * sectionBytes f recipe

/-- The image header. -/
def State.imageHeader (s : State) (r : TableRec) (v : Version) (group ngroup : Nat) : List Byte :=
  let f := s.fmtAt v.fmt
  let h := leBytes 4 0x4B434B53 ++ leBytes 2 1 ++ leBytes 2 v.ver ++ leBytes 4 r.tbl ++ leBytes 4 f.size ++
    leBytes 8 (setBits (s.reg (TK_FMT v.fmt)) 44 20 0) ++ leBytes 8 group ++ leBytes 4 ngroup ++ leBytes 1 r.flags ++ leBytes 1 r.recipe ++
    zeros 2 ++ leBytes 8 f.auxSize ++ leBytes 8 r.rows
  h ++ leBytes 4 (crc32c h) ++ zeros 4

/-- A section with its header. -/
def section_ (group gstate : Nat) (body : List Byte) : List Byte :=
  leBytes 8 group ++ leBytes 1 gstate ++ zeros 3 ++ leBytes 4 (if gstate = 1 then crc32c body else 0) ++ zeros 48 ++ body

/-- The storage of a group: its rows, then its accumulators. -/
def State.groupBody (s : State) (x : Group) (f : Fmt) (recipe : Nat) : List Byte := s.bytesAt (memKey x.tier x.base) (groupBytes f recipe)

/-- The group number that names the auxiliary region in a request for a section. -/
def auxGroup : Nat := 2 ^ 40

-- CHECKPOINT

/-- A write of an image has not been acknowledged. -/
def State.imageWrites (s : State) (h : Nat) : Bool := s.fab.xchg.any (fun x => x.handle == h && x.kind == .imageWrite)

/-- The bytes that an owner has sent so far for a section. -/
def Cmd.sectionOf (c : Cmd) (k : Nat) : List Byte := ((c.got.filter (fun g => g.2.1 == k)).map (fun g => g.2.2.1)).flatten

/-- How a write of the image ended. -/
def State.imageWritten (s : State) (h unit : Nat) (e : WEnd) (go : State → State) : State :=
  match e with
  | .done => go s
  | .stop _ st a => s.endCmd h st (fun x => { x with faultaddr := if st = sTransFault then a else 0, failblk := if st = sUnreach then gBlock a else 0xFFFF })
  | .retry _ => s.endCmd h sPartial (fun x => { x with residx := unit })
  | .held a => s.waitOn h a

/-- Section k of a checkpoint is finished. -/
def State.sectionDone (s : State) (h : Nat) : State :=
  s.upCmd h (fun c => { c with next := c.next + 1, rows := c.rows + 1, got := [], phase := .waiting })

/-- Write a section that the home block holds. -/
def State.putSection (s : State) (c : Cmd) (d : Desc) (f : Fmt) (recipe k : Nat) (bs : List Byte) : State :=
  let w := s.writeUnits c k [[(d.dstp + sectionAt f recipe k, bs)]] .imageWrite 2
  w.1.imageWritten c.handle k w.2 (fun s => s.sectionDone c.handle)

/-- Section k of a checkpoint: written, asked for, or waited for. -/
def State.checkSection (s : State) (c : Cmd) (d : Desc) (r : TableRec) (v : Version) : State :=
  let f := s.fmtAt v.fmt
  let k := c.next
  let g := d.group + k
  let e := s.pentry v.pmap g
  let n := groupBytes f r.recipe
  let wait := fun (s : State) => s.upCmd c.handle (fun x => { x with phase := .waiting })
  if s.mdBad (v.pmap + 4 * g) 4 then s.endWith c.handle sUncorr
  else if s.corrupt e then s.endWith c.handle sBadTable
  else if e.state = 2 ∨ e.state = 3 then wait s
  else if e.state = 0 then s.putSection c d f r.recipe k (section_ g 0 (zeros n))
  else if e.state = 4 then
    (s.upCmd c.handle (fun x => { x with events := addOnce (4, e.owner) x.events })).putSection c d f r.recipe k (section_ g 2 (zeros n))
  else if e.owner = s.id then
    match s.group? d.tbl v.ver g with
    | none => s.endWith c.handle sUncorr
    | some x =>
      if s.tierReadOk x.tier x.base n then
        (s.charge x.tier (s.ringPart c.ring) (transfersOf x.tier x.base n) false).putSection c d f r.recipe k (section_ g 1 (s.groupBody x f r.recipe))
      else s.endWith c.handle sUncorr
  else if s.noRoute e.owner then s.endAt c.handle sUnreach e.owner
  else
    let got := c.sectionOf k
    if c.got.any (fun x => x.2.1 == k && x.2.2.2) then s.sectionDone c.handle
    else if got.length ≥ n then s.putSection c d f r.recipe k (section_ g 1 (got.take n))
    else if s.asking c.handle then wait s
    else
      let dst := if s.ptrGlobal c.ring then some (d.dstp + sectionAt f r.recipe k) else none
      (wait s).askTk e.owner c.handle .ask (.imageReq d.tbl v.ver c.ctx g dst)

/-- The auxiliary region of the image, from this block's copy or an owner's. -/
def State.checkAux (s : State) (c : Cmd) (d : Desc) (r : TableRec) (v : Version) : State :=
  let f := s.fmtAt v.fmt
  let go := fun (s : State) => s.upCmd c.handle (fun x => { x with stage := 2, got := [], phase := .waiting })
  let put := fun (s : State) (bs : List Byte) =>
    let w := s.writeUnits c d.resume [[(d.dstp + 64, fitTo (padTo 64 f.auxSize) bs)]] .imageWrite 2
    w.1.imageWritten c.handle d.resume w.2 go
  if f.auxSize = 0 ∨ d.resume ≠ 0 then go s
  else if f.aux ≠ 0 then
    if s.tierReadOk 0 f.aux f.auxSize then put s (s.bytesAt (memKey 0 f.aux) f.auxSize) else s.endWith c.handle sUncorr
  else
    let got := c.sectionOf auxGroup
    if got.length ≥ f.auxSize then put s got
    else if s.asking c.handle then s.upCmd c.handle (fun x => { x with phase := .waiting })
    else
      match r.owners.find? (fun b => !s.noRoute b) with
      | none => s.endAt c.handle sUnreach ((r.owners.head?).getD 0xFFFF)
      | some b => (s.upCmd c.handle (fun x => { x with phase := .waiting })).askTk b c.handle .ask (.imageReq d.tbl v.ver c.ctx auxGroup none)

/-- The end of a checkpoint: LOST groups decide (R479). -/
def State.checkEnd (s : State) (c : Cmd) (d : Desc) : State :=
  if c.events.any (fun e => e.1 == 4) then
    if d.degr then s.endCmd c.handle sDegraded (fun x => { x with flags := x.flags ||| fDegraded }) else s.endWith c.handle sUncorr
  else s.endWith c.handle sOk

/-- Steps of CHECKPOINT: 1 auxiliary region, 2 sections, 3 header once all is acknowledged, 4 the header's acknowledgement. -/
def State.checkSteps : Nat → State → Nat → State
  | 0, s, _ => s
  | fuel + 1, s, h =>
    match s.cmd? h with
    | none => s
    | some c =>
      let d := Desc.of c.desc
      (match s.rec? d.tbl, s.ver? d.tbl c.ver with
       | some r, some v =>
         if c.phase = .done then s
         else if c.stage = 0 then (s.upCmd h (fun x => { x with stage := 1, next := d.resume, phase := .waiting })).checkSteps fuel h
         else if c.stage = 1 then
           let s := s.checkAux c d r v
           (match s.cmd? h with
            | some c2 => if c2.stage = 2 then s.checkSteps fuel h else s
            | none => s)
         else if c.stage = 2 then
           if c.next ≥ d.ngroup then (s.upCmd h (fun x => { x with stage := 3 })).checkSteps fuel h
           else
             let s := s.checkSection c d r v
             (match s.cmd? h with
              | some c2 => if c2.next > c.next then s.checkSteps fuel h else s
              | none => s)
         else if s.imageWrites h then s.upCmd h (fun x => { x with phase := .waiting })
         else if c.stage = 3 then
           let w := s.writeUnits c d.resume [[(d.dstp, s.imageHeader r v d.group d.ngroup)]] .imageWrite 2
           (w.1.imageWritten h d.resume w.2 (fun s => s.upCmd h (fun x => { x with stage := 4, phase := .waiting }))).checkSteps fuel h
         else s.checkEnd c d
       | _, _ => s.endWith h sBadTable)

/-- Run a group command's steps after it has begun. -/
def State.runGroups (s : State) (h : Nat) (steps : Nat → State → Nat → State) : State :=
  match s.cmd? h with
  | none => s
  | some c0 =>
    let d := Desc.of c0.desc
    let b := s.begin_ c0
    if b.2 then steps (2 * d.ngroup + 8) b.1 h else b.1

/-- Run CHECKPOINT as far as it goes. -/
def State.runCheckpoint (s : State) (h : Nat) : State := s.runGroups h State.checkSteps

/-- The remote cutoff of CHECKPOINT and RESTORE: an answer is missing (R591), or the group that is not settled stops the command (R479). -/
def State.cutGroups (s : State) (c : Cmd) (d : Desc) : State :=
  if c.phase ≠ .waiting then s
  else
    match (s.fab.xchg.filter (fun x => x.handle == c.handle && (x.kind == .ask || x.kind == .imageWrite))).map (fun x => x.dst) with
    | m :: ms => s.endAt c.handle sTimeout (ms.foldl min m)
    | [] => if c.next < d.ngroup then s.endCmd c.handle sPartial (fun x => { x with residx := c.next }) else s

-- RESTORE

/-- The checks of the header (R478). -/
def State.imageOk (s : State) (d : Desc) (r : TableRec) (v : Version) (h : List Byte) : Bool :=
  leAt h 0 4 == 0x4B434B53 && leAt h 4 2 == 1 && leAt h 56 4 == crc32c (h.take 56) &&
  leAt h 16 8 == setBits (s.reg (TK_FMT v.fmt)) 44 20 0 && leAt h 12 4 == (s.fmtAt v.fmt).size && leAt h 37 1 == r.recipe &&
  leAt h 24 8 == d.group && leAt h 32 4 == d.ngroup

/-- What an obstacle on a unit of the image does (11 R428). -/
def State.meetUnit (s : State) (c : Cmd) (b : Buf) (unit : Nat) : State :=
  match b with
  | .stop st a => s.endCmd c.handle st (fun x => { x with faultaddr := if st = sTransFault then a else 0
                                                          failblk := if st = sUnreach then gBlock a else 0xFFFF })
  | .retry => s.endCmd c.handle sPartial (fun x => { x with residx := unit })
  | .held a => s.waitOn c.handle a
  | _ => s.upCmd c.handle (fun x => { x with phase := .waiting })

/-- Section k is dealt with. -/
def State.restoreDone (s : State) (h : Nat) (written : Bool) (ev : Option (Nat × Nat)) : State :=
  s.upCmd h (fun c => { c with
    next := c.next + 1, rows := c.rows + b2n written, got := [], stage := 2, phase := .waiting, owners := []
    events := match ev with | some e => addOnce e c.events | none => c.events })

/-- Rows and accumulators of a group held here take the bytes of a section from an offset; the wait holds for copies. The group's record then
holds no committed step (06 R241). -/
def State.fillGroup (s : State) (w : Nat) (r : TableRec) (t ver g off : Nat) (bs : List Byte) : State :=
  match s.group? t ver g with
  | none => s
  | some x =>
    let f := s.verFmt t ver
    let bs := bs.take (groupBytes f r.recipe - off)
    let s := (s.putData (memKey x.tier (x.base + off)) bs).charge x.tier s.tkPart (transfersOf x.tier (x.base + off) bs.length) true
    let s := s.upGroup t ver g (fun y => { y with step := none })
    let hit := fun (a n : Nat) => decide (off < a + n ∧ a < off + bs.length)
    let ps := (List.range 4096).filter (fun p => hit (p * f.size) f.size || (r.recipe == 3 && hit (4096 * f.size + 4 * p) 4))
    (chunks (max 1 (60000 / (f.size + 8))) ps).foldl (fun s l =>
      s.mirrorAdd w x { s.copyRows x f r.recipe l with step := some none }) s

/-- A section with data for a group that is RESIDENT. -/
def State.restoreData (s : State) (c : Cmd) (d : Desc) (r : TableRec) (v : Version) (e : PEntry) (body : List Byte) : State :=
  let g := d.group + c.next
  if e.owner = s.id ∧ !s.groupUp d.tbl v.ver g then s.restoreDone c.handle false (some (5, s.id))
  else if e.owner = s.id then
    let o := s.openWait { id := 0, src := s.id, lane := 2, xid := 0, handle := c.handle, commit := false, napplied := 0, drops := []
                          findings := 0, left := 0, due := c.deadline }
    let s := (o.2.fillGroup o.1 r d.tbl v.ver g 0 body).settleWait o.1
    s.upCmd c.handle (fun x => { x with stage := 3, phase := .waiting })
  else if s.noRoute e.owner then s.restoreDone c.handle false (some (2, e.owner))
  else
    let s := s.upCmd c.handle (fun x => { x with stage := 3, phase := .waiting, owners := [e.owner] })
    (chunks 60000 body).zipIdx.foldl (fun s p => s.askTk e.owner c.handle .ask (.imagePart d.tbl v.ver c.ctx g (60000 * p.2) p.1)) s

/-- An entry that the command asks the coordinator to change. -/
def State.askEntry (s : State) (c : Cmd) (t ver g : Nat) (e : PEntry) : State :=
  match s.coordinator t with
  | none => s
  | some b =>
    if b = s.id then s.setEntry t ver g e
    else if s.noRoute b then s
    else s.askTk b c.handle .ask (.update (.entry t ver g e))

/-- Section k of a restore. -/
def State.restoreSection (s : State) (c : Cmd) (d : Desc) (r : TableRec) (v : Version) : State :=
  let f := s.fmtAt v.fmt
  let k := c.next
  let g := d.group + k
  let e := s.pentry v.pmap g
  let wait := fun (s : State) => s.upCmd c.handle (fun x => { x with phase := .waiting })
  if s.mdBad (v.pmap + 4 * g) 4 then s.endWith c.handle sUncorr
  else if s.corrupt e then s.endWith c.handle sBadTable
  else if e.state = 2 ∨ e.state = 3 ∨ s.asking c.handle then wait s
  else
    let b := s.readBuf c false (d.dstp + sectionAt f r.recipe k) (sectionBytes f r.recipe)
    match b.2 with
    | .bytes bs =>
      let s := b.1
      let body := bs.drop 64
      let gs := leAt bs 8 1
      let firstListed := (s.registryList.head?).getD noOwner
      if gs = 2 then s.restoreDone c.handle false none
      else if gs = 0 then
        if e.state = 0 then s.restoreDone c.handle false none
        else if (s.coordinator d.tbl).isNone then s.restoreDone c.handle false (some (2, firstListed))
        else
          let s := s.upCmd c.handle (fun x => { x with stage := 3, phase := .waiting })
          s.askEntry c d.tbl v.ver g { e with state := pUnmapped }
      else if gs ≠ 1 ∨ leAt bs 12 4 ≠ crc32c body then s.restoreDone c.handle false (some (5, s.id))
      else if e.state = 1 then s.restoreData c d r v e body
      else
        match s.coordinator d.tbl with
        | none => s.restoreDone c.handle false (some (2, firstListed))
        | some co =>
          if co = s.id then
            let m := s.mapGroup d.tbl v.ver g
            (match m.2 with
             | some e2 => m.1.restoreData c d r v e2 body
             | none => m.1.endCmd c.handle sPartial (fun x => { x with residx := k }))
          else if s.noRoute co then s.restoreDone c.handle false (some (2, co))
          else if c.events.any (fun x => x.1 == 12) then s.endCmd c.handle sPartial (fun x => { x with residx := k })
          else (wait s).askTk co c.handle (.entry d.tbl v.ver g) (.mapReq d.tbl v.ver g)
    | o => b.1.meetUnit c o k

/-- Stage 0 and 1 of a restore: the header, then the auxiliary region of a published version (R88). -/
def State.restoreStart (s : State) (c : Cmd) (d : Desc) (r : TableRec) (v : Version) : State :=
  let f := s.fmtAt v.fmt
  let b := s.readBuf c false d.dstp 64
  match b.2 with
  | .bytes h =>
    if !b.1.imageOk d r v h then b.1.endWith c.handle sBadFormat
    else
      let go := fun (s : State) => s.upCmd c.handle (fun x => { x with stage := 2, next := d.resume, phase := .waiting })
      if f.auxSize = 0 ∨ d.resume ≠ 0 ∨ v.ver ≠ r.pubVer then go b.1
      else
        let a := b.1.readBuf c false (d.dstp + 64) f.auxSize
        (match a.2 with
         | .bytes bs => (auxUpdates d.tbl v.ver 0 bs).foldl (fun s u => s.shareUpdate c.handle d.tbl u) (go a.1)
         | o => a.1.meetUnit c o d.resume)
  | o => b.1.meetUnit c o d.resume

/-- The end of a restore. -/
def State.restoreEnd (s : State) (c : Cmd) : State :=
  let unreach := (c.events.filter (fun e => e.1 == 2)).map (fun e => e.2)
  match unreach with
  | m :: ms => s.endAt c.handle sUnreach (ms.foldl min m)
  | [] => if c.events.any (fun e => e.1 == 10) then s.endWith c.handle sDenied
    else if c.events.any (fun e => e.1 == 5) then s.endWith c.handle sUncorr else s.endWith c.handle sOk

/-- Steps of RESTORE: 2 sections, 3 the current section's writes and changes are awaited. -/
def State.restoreSteps : Nat → State → Nat → State
  | 0, s, _ => s
  | fuel + 1, s, h =>
    match s.cmd? h with
    | none => s
    | some c =>
      let d := Desc.of c.desc
      (match s.rec? d.tbl, s.ver? d.tbl c.ver with
       | some r, some v =>
         if c.phase = .done then s
         else if c.stage = 0 then
           let s := s.restoreStart c d r v
           (match s.cmd? h with
            | some c2 => if c2.stage = 2 then s.restoreSteps fuel h else s
            | none => s)
         else if s.asking h || s.ownWaits h then s.upCmd h (fun x => { x with phase := .waiting })
         else if c.stage = 3 then
           -- the writes of the section are in, or the group's entry has changed
           let e := s.pentry v.pmap (d.group + c.next)
           (s.restoreDone h (e.state != 0 && c.got.isEmpty) none).restoreSteps fuel h
         else if c.next ≥ d.ngroup then s.restoreEnd c
         else
           let s := s.restoreSection c d r v
           (match s.cmd? h with
            | some c2 => if c2.next > c.next ∨ c2.stage = 3 then s.restoreSteps fuel h else s
            | none => s)
       | _, _ => s.endWith h sBadTable)

/-- Run RESTORE as far as it goes. -/
def State.runRestore (s : State) (h : Nat) : State :=
  match s.cmd? h with
  | none => s
  | some c0 =>
    let d := Desc.of c0.desc
    let b := s.begin_ c0
    if b.2 then State.restoreSteps (4 * d.ngroup + 8) b.1 h else b.1

/-- An owner has answered a group command: a part of a section, its section written, or a failure. A stale owner's group is looked
up again (12 R457). -/
def State.sectionArrived (s : State) (h o k status : Nat) (bs : List Byte) : State :=
  match s.cmd? h with
  | none => s
  | some c =>
    let d := Desc.of c.desc
    if status = sOk then s.upCmd h (fun c => { c with got := c.got ++ [(o, k, bs, bs.isEmpty)] })
    else if status = 0xF0 then (s.upCmd h (fun c => { c with got := [], stage := if d.opc = oRestore then 2 else c.stage })).staleAsk c d.tbl c.ver [d.group + c.next]
    else if d.opc = oRestore then s.upCmd h (fun c => { c with
      -- the section is not written
      got := [(o, k, [], false)]
      events := addOnce (if status = sDenied then 10 else if status = sUncorr then 5 else 2, o) c.events })
    else s.endAt h status (if status = sUnreach then o else 0xFFFF)

-- Service for other home blocks

/-- A failed write of a section is remembered for the answer. -/
def State.noteImage (s : State) (id status : Nat) : State :=
  if status = sOk then s
  else s.upTab (fun t => { t with served := t.served.map (fun v => if v.id == id then { v with left := status } else v) })

/-- Every write of a section has been acknowledged: the home block is told (R477). -/
def State.closeImage (s : State) (id : Nat) : State :=
  match s.tab.served.find? (fun v => v.id == id) with
  | none => s
  | some v =>
    if s.fab.xchg.any (fun x => match x.kind with | .extRead i _ => i == id | _ => false) then s
    else
      (s.upTab (fun t => { t with served := t.served.filter (fun y => y.id != id) })).answer v.src v.lane v.msg v.left
        (Config.tkEncodeAnswer s.registryList (if v.left = sOk then .ok else .status v.left 0xFFFF))

/-- A section that a home block asks for: the context check is repeated (02 R52); it is sent in parts, or written to the image (R477). -/
def State.serveImage (s : State) (hdr : TkHdr) (t ver ctx g : Nat) (dst : Option Nat) : State :=
  let body := TkBody.imageReq t ver ctx g dst
  let refuse := fun (s : State) (st : Nat) => s.answerTk hdr body st (.status st 0xFFFF)
  match s.rec? t, s.ver? t ver with
  | some r, some v =>
    let f := s.fmtAt v.fmt
    if ctxDenied r ctx false then refuse s.deny sDenied
    else if g = auxGroup then
      if f.aux = 0 then refuse s 0xF0
      else if !s.tierReadOk 0 f.aux f.auxSize then refuse s sUncorr
      else (chunks 60000 (s.bytesAt (memKey 0 f.aux) f.auxSize)).foldl (fun s l => s.answerTk hdr body 0 (.sectionBytes l)) s
    else
      match s.group? t ver g with
      | none => refuse s 0xF0
      | some x =>
        let n := groupBytes f r.recipe
        if x.secondary then refuse s 0xF0
        else if !s.tierReadOk x.tier x.base n then refuse s sUncorr
        else
          let s := s.charge x.tier s.remotePart (transfersOf x.tier x.base n) false
          let bs := s.groupBody x f r.recipe
          match dst with
          | none => (chunks 60000 bs).foldl (fun s l => s.answerTk hdr body 0 (.sectionBytes l)) s
          | some a =>
            let whole := section_ g 1 bs
            let id := s.tab.nextOp
            let rec_ : Served := { id := id, src := hdr.src, lane := hdr.lane, msg := mkMsg 0x1C 0 hdr.handle hdr.xid [], lists := [], left := 0 }
            let s := s.upTab (fun t => { t with nextOp := id + 1, served := t.served ++ [rec_] })
            let w := (pageRuns a whole.length).foldl (fun (acc : State × Nat) p =>
              let part := (whole.drop (p.1 - a)).take p.2
              let q := acc.1.reachGlobal r.ctx p.1 p.2 true
              match q.2 with
              | .here 3 off => (q.1.hostWrite r.ctx off part none noHandle.toNat, acc.2)
              | .here t off => (q.1.putData (memKey t off) part, acc.2)
              | .away g => (q.1.memWriteTo g r.ctx 2 noHandle.toNat (.extRead id p.1) part, acc.2)
              | .stop st => (q.1, st)
              | _ => (q.1, sUnreach)) (s, sOk)
            (w.1.noteImage id w.2).closeImage id
  | _, _ => refuse s 0xF0

/-- Part of a section that a home block restores here: the context check is repeated (02 R52), and a tier out of service takes no write
(08 R315). -/
def State.serveImagePart (s : State) (hdr : TkHdr) (t ver ctx g off : Nat) (bs : List Byte) : State :=
  let body := TkBody.imagePart t ver ctx g off bs
  match s.rec? t with
  | none => s.answerTk hdr body 0xF0 (.status 0xF0 0xFFFF)
  | some r =>
    if ctxDenied r ctx false then s.deny.answerTk hdr body sDenied (.status sDenied 0xFFFF)
    else if !s.heldRows t ver [g * 4096] then s.answerTk hdr body 0xF0 (.status 0xF0 0xFFFF)
    else if !s.groupUp t ver g then s.answerTk hdr body sUncorr (.status sUncorr 0xFFFF)
    else
      let o := s.openWait { id := 0, src := s.id, lane := 2, xid := 0, handle := noHandle.toNat, commit := false, napplied := 0
                            drops := [], findings := 0, left := 0, due := s.ctl.now }
      ((o.2.fillGroup o.1 r t ver g off bs).settleWait o.1).answerTk hdr body 0 .ok

end Sys2Proof.Machine
end

