-- ==== Sys2Proof/Machine/Fail.lean ====
section
/-! DEFINITION. Failure of blocks and tiers, DOWN partners, load reports and what commands held back (12 R447, R451, R463 to R474;
06 R251; 09 R369). -/

namespace Sys2Proof.Machine

-- Redelivery and promotion (R471)

/-- A block has reported its redelivery done (R471 step 3). -/
def State.redelivered (s : State) (t x src : Nat) : State :=
  let s := s.upReg t (fun e => { e with redeliver := e.redeliver.filter (· != (src, x)) })
  (s.tab.ops.filter (fun o => o.tbl == t && o.kind == .promotion x)).foldl (fun s o => s.poke o.id) s

/-- Everything that this block's own commands and adds held back. -/
def State.pokeAll (s : State) : State :=
  let s := (s.tab.ops.map (fun o => o.id)).foldl (fun s id => s.poke id) s
  let s := s.retryCarries
  let due := s.tab.owed.filter (fun p => s.canAck p.2)
  let s := s.upTab (fun t => { t with owed := t.owed.filter (fun p => !(s.canAck p.2)) })
  due.foldl (fun s p =>
    match p.2 with
    | .prepare _ => s.answerTk p.1 (.versionPhase .prepare 0 0) 0 .ok
    | .retire _ _ => s.answerTk p.1 (.versionPhase .retire 0 0) 0 .ok
    | .destroy t => s.answerTk p.1 (.update (.destroyBegin t)) 0 .ok
    | .redeliver t x => if p.1.src = s.id then s.redelivered t x s.id else s.sendTk p.1.src noHandle.toNat (.redeliverDone t x)
    | .release t v g _ => if p.1.src = s.id then s else s.sendTk p.1.src noHandle.toNat (.released t v g)) s

-- Exchanges with a partner that no longer answers (09 R369)

/-- An outstanding exchange with a block fails as unreachable. -/
def State.failXchg (s : State) (x : Xchg) : State :=
  let s := s.dropXchg x.xid
  match x.kind with
  | .bundle => s.upCmd x.handle (fun c => { c with events := addOnce (2, x.dst) c.events })
  | .proj => s.upCmd x.handle (fun c => { c with
      pevents := addOnce (2, x.dst) c.pevents, ppos := c.ppos.map (fun p => if p.kind == .remote x.dst then { p with kind := .bad } else p) })
  | .add => s.upTab (fun t => { t with journal := t.journal.map (fun j => if j.xid == x.xid && j.owner == x.dst then { j with xid := 2 ^ 32 } else j) })
  | .listRead _ => (s.freeDest x.handle sUnreach).endAt x.handle sUnreach x.dst
  | .echo _ => s
  | .extRead id _ => s.upTab (fun t => { t with served := t.served.filter (fun v => v.id != id) })
  | .ringWrite n => (s.bump FP_MEMW_FAIL 1).faultRing n
  | .slotRead n _ => s.faultRing n
  | .imageWrite => (s.bump FP_MEMW_FAIL 1).endAt x.handle sUnreach x.dst
  | .secondary w t v g => (s.reportSecondary t v g).confirmed x.xid w
  -- a grant or a confirmation is missing until the cutoff (06 R239, R242)
  | .slots => s
  | .commit => s
  | .record _ => s.endAt x.handle sUnreach x.dst
  | .entry .. => s
  | .op id =>
    (match s.op? id with
     | some o => (match o.kind with
        | .moving .. => s.moveAnswer o false
        | .create _ => s.opAnswer id x.dst false
        | .publish .. => s.opAnswer id x.dst (decide (o.phase > 1))
        -- the source of a move is gone: its group is looked at again (12 R467)
        | .migrate .. => s.upOp id (fun o => { o with phase := 0, waiting := [] })
        | _ => s.opAnswer id x.dst true)
     | none => s)
  | .ask =>
    (match s.cmd? x.handle with
     | none => s
     | some c =>
       let opc := leAt c.desc 0 1
       if opc = oRowsWrite then s.rowsWritten x.handle x.dst sUnreach []
       else if opc = oRowsRead then s.rowsArrived x.handle x.dst sUnreach []
       else if opc = oRestore then s.sectionArrived x.handle x.dst c.next sUnreach []
       else s.endAt x.handle sUnreach x.dst)
  | _ => s

/-- Every exchange with a block fails, but those whose answer may still come. -/
def State.failXchgs (s : State) (b : Nat) : State :=
  (s.fab.xchg.filter (fun x => x.dst == b && x.kind != .declare && x.kind != .query && x.kind != .update)).foldl
    (fun s x => s.failXchg x) s

/-- The flows with a partner close: queued and unacknowledged messages are lost (09 R369). -/
def State.closeFlows (s : State) (b : Nat) : State :=
  ((s.setFlows (s.fab.flows.filter (fun f => f.partner != b))).upFab (fun x => { x with stalled := x.stalled.filter (fun m => m.1 != b) })).unstall

-- A failed block at a coordinator (R471)

/-- A coordinator gives up on an owner of a group: its secondary is to be promoted, or the group is LOST. -/
def State.loseGroup (s : State) (t v g : Nat) (e : PEntry) : State :=
  if e.repl && (s.secondaryOf t g).any (fun b => !s.isFailed b) then s.setEntry t v g { e with state := pPromoting }
  else ((s.setEntry t v g { e with state := pLost }).bump TK_LOST 1)

/-- Groups of a table that a block owns, or holds the secondary of, under a tier choice. -/
def State.loseOwner (s : State) (t x : Nat) (tier : Option Nat) : State :=
  match s.rec? t with
  | none => s
  | some r =>
    let inTier : PEntry → Bool := fun e => match tier with
      | some n => e.tier == n
      | none => true
    let secTier : Bool := match tier with
      | some n => r.otier == n
      | none => true
    let s := (s.tab.vers.filter (fun v => v.tbl == t)).foldl (fun s v =>
      (s.mapped r v).foldl (fun s p =>
        if p.2.owner = x ∧ (p.2.state = 1 ∨ p.2.state = 2) ∧ inTier p.2 then s.loseGroup t v.ver p.1 p.2
        -- the secondary that was to replace a failed owner fails too
        else if p.2.state = 3 ∧ p.2.owner ≠ x ∧ secTier ∧ s.secondaryOf t p.1 = some x then s.loseGroup t v.ver p.1 { p.2 with repl := false }
        else if p.2.repl && secTier && p.2.owner != x && p.2.state == 1 && s.secondaryOf t p.1 == some x then
          (s.setEntry t v.ver p.1 { p.2 with repl := false }).upTab (fun y => { y with rebuilds := addOnce (t, v.ver, p.1) y.rebuilds })
        else s) s) s
    if (s.promotingOf t x).isEmpty then s
    else
      let o := s.newOp t s.id noHandle.toNat 0 (.promotion x)
      (o.2.poke o.1).pokeAll

/-- A failed block leaves the holder set and the owner set of a table. -/
def State.leaveSets (s : State) (t x : Nat) : State :=
  let s := s.upReg t (fun e => { e with holders := e.holders.filter (· != x), redeliver := e.redeliver.filter (fun p => p.1 != x) })
  match s.rec? t with
  | none => s
  | some r =>
    if r.owners.contains x then
      let l := r.owners.filter (· != x)
      (s.upRec t (fun r => { r with owners := l })).sendUpdate t (.owners t l)
    else s

/-- The mirror of a failed coordinator takes over: it makes a new mirror and repeats the phase of each operation (R447). -/
def State.takeOver (s : State) (t : Nat) : State :=
  let s := match s.mirrorOf t with
    | some b => if (s.holders t).contains b then s else s.mirrorRecord t
    | none => s
  let mine := s.tab.mirrorOps.filter (fun o => o.tbl == t)
  let s := s.upTab (fun y => { y with mirrorOps := y.mirrorOps.filter (fun o => o.tbl != t) })
  mine.foldl (fun s o =>
    let id := s.tab.nextOp
    -- a group whose move was under way is looked at afresh
    let s := match o.kind with
      | .migrate v g _ _ _ => (match s.ver? t v with
          | some x => (let e := s.pentry x.pmap g; if e.state = 2 then s.applyEntry t v g { e with state := pResident } else s)
          | none => s)
      | _ => s
    let s := s.upTab (fun y => { y with nextOp := id + 1, ops := y.ops ++ [{ o with id := id, phase := o.phase - 1, waiting := [] }] })
    s.poke id) s

/-- FAILED is set for a block: its flows close, its exchanges fail, and the coordinators here act (R470, R471, R467). -/
def State.setFailed (s : State) (x : Nat) : State :=
  if s.isFailed x then s
  else
    let tables := s.tab.recs.map (fun r => r.tbl)
    let before := tables.filter (fun t => s.coordinator t == some x)
    let s := ((s.setRouteBit x 3 true).failXchgs x).closeFlows x
    let s := (before.filter (fun t => s.coordinator t == some s.id)).foldl (fun s t => s.takeOver t) s
    let s := (tables.filter (fun t => s.coordinator t == some s.id)).foldl (fun s t => (s.loseOwner t x none).leaveSets t x) s
    -- identifiers whose destruction it asked for are free
    let s := s.upTab (fun y => { y with registry := y.registry.filter (fun e => !(e.destroying && e.holders == [x] && (s.rec? e.tbl).isNone)) })
    -- moves to the failed block are abandoned
    let s := (s.tab.groups.filter (fun g => g.moving == some x)).foldl (fun s g =>
      let s := s.upGroup g.tbl g.ver g.g (fun y => { y with moving := none })
      match s.ver? g.tbl g.ver with
      | none => s
      | some v => let e := s.pentry v.pmap g.g; if e.state = 2 then s.applyEntry g.tbl g.ver g.g { e with state := pResident } else s) s
    let s := (s.tab.ops.map (fun o => o.id)).foldl (fun s id =>
      (s.upOp id (fun o => { o with waiting := o.waiting.filter (· != x) })).poke id) s
    s.syncTk

/-- This block has been declared failed (R473). -/
def State.evicted (s : State) : State :=
  let s := s.setFld CC_BLOCK_ID 15 1 0
  let s := (s.tab.recs.map (fun r => r.tbl)).foldl (fun s t => s.dropRecord t) s
  (s.setFld TK_STATUS 2 1 1).syncTk

/-- A failure notice names a block. -/
def State.failNoticed (s : State) (x : Nat) : State := if x = s.id then s.evicted else s.setFailed x

/-- The lead declares a block failed: a notice to every block in its route table (R470). -/
def State.declareFailed (s : State) (x : Nat) : State :=
  if s.isFailed x then s
  else
    let bs := (s.fab.routes.filter (fun r => s.routeBit r.1 0 && r.1 != s.id)).map (fun r => r.1)
    (bs.foldl (fun s b => s.sendTk b noHandle.toNat (.failed x)) s).failNoticed x

/-- This block judges failures of X: it is the lead, or the deputy. -/
def State.judges (s : State) (x : Nat) : Bool := s.leadOrDeputy x == some s.id

/-- A report that X is DOWN (R470). -/
def State.downReported (s : State) (x reporter : Nat) : State :=
  if s.judges x then
    let fresh := s.tab.downs.filter (fun d => decide (s.ctl.now ≤ d.2.2 + Sys2Proof.sec) && !(d.1 == x && d.2.1 == reporter))
    let all := fresh ++ [(x, reporter, s.ctl.now)]
    let s := s.upTab (fun t => { t with downs := all })
    if (all.filter (fun d => d.1 == x)).length ≥ max 1 (s.fld TK_CFG 28 4) then s.declareFailed x else s
  else
    match s.leadOrDeputy x with
    | some b => if b = reporter then s else s.sendTk b noHandle.toNat (.downReport x reporter)
    | none => s

/-- The port has failed for a partner on every usable port (09 R369). -/
def State.peerDown (s : State) (x : Nat) : State :=
  let s := ((s.setRouteBit x 2 true).bump FP_PEER_DOWN 1).failXchgs x
  (s.closeFlows x).downReported x s.id

-- DECLARE and QUERY (R472, R482)

/-- A group of a table coordinated here names a block (R472). -/
def State.namedHere (s : State) (x : Nat) : Bool :=
  s.tab.recs.any (fun r => s.coordinator r.tbl == some s.id &&
    s.tab.vers.any (fun v => v.tbl == r.tbl && (s.mapped r v).any (fun p => p.2.owner == x && (p.2.state == 1 || p.2.state == 2 || p.2.state == 3))))

/-- An answer to DECLARE or QUERY has arrived. -/
def State.failCtrlAnswer (s : State) (named : Option Bool) : State :=
  let s := (s.setFld TK_FAIL_CTRL 18 1 0).setFld TK_FAIL_CTRL 20 1 0
  match named with
  | some b => s.setFld TK_FAIL_CTRL 19 1 (b2n b)
  | none => s

/-- The lead's question to the other registry blocks is complete: whoever asked is told. -/
def State.closeQuery (s : State) (id : Nat) : State :=
  match s.tab.served.find? (fun v => v.id == id) with
  | none => s
  | some v =>
    if s.fab.xchg.any (fun x => x.kind == .query && x.handle == id) then s
    else
      let s := s.upTab (fun t => { t with served := t.served.filter (fun y => y.id != id) })
      if v.src = s.id then s.failCtrlAnswer (some (v.left != 0))
      else s.answer v.src v.lane v.msg 0 (Config.tkEncodeAnswer s.registryList (.named (v.left != 0)))

/-- A QUERY at the lead, or at the deputy for a block that holds the lead DOWN: it looks at its own tables and asks the other registry blocks about theirs. -/
def State.runQuery (s : State) (x src lane handle xid : Nat) : State :=
  let id := s.tab.nextOp
  let v : Served := { id := id, src := src, lane := lane, msg := mkMsg 0x1A 0 handle xid [], lists := [], left := b2n (s.namedHere x) }
  let s := s.upTab (fun t => { t with nextOp := id + 1, served := t.served ++ [v] })
  let s := (s.registryList.filter (fun b => b != s.id && !s.noRoute b)).foldl (fun s b => s.askTk b id .query (.query x)) s
  s.closeQuery id

/-- QUERY or DECLARE written at this block: acted on, or forwarded. -/
def State.failCtrl (s : State) (x : Nat) (declare query : Bool) : State :=
  let s := s.setFld TK_FAIL_CTRL 18 1 1
  let s := if !declare then s
    else if s.lead = some s.id || s.judges x then (s.declareFailed x).failCtrlAnswer none
    else match s.leadOrDeputy x with
      | some b => s.askTk b noHandle.toNat .declare (.declare x)
      | none => s
  if !query then s
  else if s.lead = some s.id then s.runQuery x s.id 0 0 0
  else match (s.registryList.filter s.regAlive).find? (fun b => b != s.id && !s.routeBit b 2) with
    | some b => s.askTk b noHandle.toNat .query (.query x)
    | none => s

-- Tiers (R474)

/-- A tier here fails: coordinators handle its groups like a failed owner's (08 R315). -/
def State.reportTier (s : State) (tier : Nat) : State :=
  let tables := sortUnique ((s.tab.groups.filter (fun g => g.tier == tier)).map (fun g => g.tbl))
  let coords := sortUnique (tables.filterMap (fun t => s.coordinator t))
  let s := (tables.filter (fun t => s.coordinator t == some s.id)).foldl (fun s t => s.loseOwner t s.id (some tier)) s
  (coords.filter (fun b => b != s.id)).foldl (fun s b => s.sendTk b noHandle.toNat (.tierOut tier)) s

/-- A block reports a failed tier. -/
def State.tierReported (s : State) (src tier : Nat) : State :=
  (s.tab.recs.filter (fun r => s.coordinator r.tbl == some s.id)).foldl (fun s r => s.loseOwner r.tbl src (some tier)) s

-- Load and skew (R463 to R465)

/-- A group in a report: its version and number. -/
def loadKey (v g : Nat) : Nat := v * 2 ^ 40 + g

/-- The four hottest of a list of groups with counts. -/
def hottest4 (l : List (Nat × Nat)) : List (Nat × Nat) :=
  (l.foldl (fun (acc : List (Nat × Nat)) x =>
    let hi := acc.takeWhile (fun y => decide (y.2 ≥ x.2))
    hi ++ [x] ++ acc.drop hi.length) []).take 4

/-- A report reaches a coordinator, or a registry block. -/
def State.takeLoad (s : State) (src : Nat) (r : LoadReport) : State :=
  s.upTab (fun t => { t with
    freeCap := if src == s.id then t.freeCap else insertBy src r.free t.freeCap
    loads := if r.tbl = 0 then t.loads else (t.loads.filter (fun x => !(x.1 == r.tbl && x.2.1 == src))) ++ [(r.tbl, src, r.sum, r.hottest)] })

/-- Start the automatic move of one group of a table (R465). -/
def State.even (s : State) (r : TableRec) : State :=
  let mine := s.tab.loads.filter (fun x => x.1 == r.tbl)
  let n := mine.length
  let total := sumOf (mine.map (fun x => x.2.2.1))
  let skew := s.fld TK_CFG 1 7
  let heavy := mine.filter (fun x => decide (n * 100 * x.2.2.1 > total * (100 + skew)))
  let sorted := heavy.foldl (fun (acc : List (Nat × Nat × Nat × List (Nat × Nat))) x =>
    let hi := acc.takeWhile (fun y => decide (y.2.2.1 ≥ x.2.2.1))
    hi ++ [x] ++ acc.drop hi.length) []
  let running := fun (o : Nat) => (s.tab.ops.filter (fun p => match p.kind with
    | .migrate v g _ _ _ => p.handle == noHandle.toNat && (match s.ver? p.tbl v with
        | some x => (s.pentry x.pmap g).owner == o
        | none => false)
    | _ => false)).length
  let pick := fun (x : Nat × Nat × Nat × List (Nat × Nat)) =>
    match x.2.2.2.find? (fun q => decide (n * q.2 + total ≤ n * x.2.2.1)) with
    | none => none
    | some q =>
      let ver := q.1 / 2 ^ 40
      let g := q.1 % 2 ^ 40
      match s.ver? r.tbl ver with
      | none => none
      | some v =>
        let tier := (s.pentry v.pmap g).tier
        let need := groupBytes (s.fmtAt v.fmt) r.recipe
        let cand := r.owners.filter (fun b => b != x.2.1 && decide (s.roomAt b tier ≥ need))
        let load := fun (b : Nat) => ((mine.find? (fun y => y.2.1 == b)).map (fun y => y.2.2.1)).getD 0
        (match cand with
         | [] => none
         | c :: cs =>
           let t := cs.foldl (fun m b => if load b < load m then b else m) c
           if running x.2.1 < s.fld TK_CFG 16 4 then some (ver, g, t, tier) else none)
  match sorted.findSome? pick with
  | none => s
  | some (ver, g, dst, tier) =>
    let o := (s.bump TK_AUTO_MIG 1).newOp r.tbl s.id noHandle.toNat 0 (.migrate ver g 1 dst tier)
    o.2.poke o.1

/-- The end of a load period: counts are halved, reports leave, and the coordinator evens out its tables. -/
def State.endPeriod (s : State) : State :=
  let prim := s.tab.groups.filter (fun g => !g.secondary && !g.leaving)
  let free := (upTo 3).map s.room
  let tables := sortUnique (prim.map (fun g => g.tbl))
  let report := fun (t : Nat) =>
    let l := (prim.filter (fun g => g.tbl == t)).map (fun g => (loadKey g.ver g.g, g.load))
    { tbl := t, sum := sumOf (l.map (fun x => x.2)), hottest := hottest4 l, free := free : LoadReport }
  let send := fun (s : State) (b : Nat) (r : LoadReport) => if b = s.id then s.takeLoad s.id r else s.sendTk b noHandle.toNat (.loadReport r)
  let s := s.registryList.foldl (fun s b => send s b { tbl := 0, sum := 0, hottest := [], free := free }) s
  let s := tables.foldl (fun s t => match s.coordinator t with
    | some b => send s b (report t)
    | none => s) s
  let s := if s.flag TK_CFG 0 then
      (s.tab.recs.filter (fun r => s.coordinator r.tbl == some s.id && decide (r.owners.length ≥ 2))).foldl (fun s r => s.even r) s
    else s
  let s := s.setFld TK_LOAD_TOTAL 0 48 (min (sumOf (prim.map (fun g => g.load))) (2 ^ 48 - 1))
  s.upTab (fun t => { t with groups := t.groups.map (fun g => { g with load := g.load / 2 }), loads := [] })

end Sys2Proof.Machine
end

