-- ==== Sys2Proof/Machine/Tk.lean ====
section
/-! DEFINITION. The table commands at their home block, and the Table Keeper's messages and replies (12 R449 to R481; 02 R92, R93). -/

namespace Sys2Proof.Machine

-- Home side of TABLE_CREATE, TABLE_DESTROY, VERSION_PUBLISH, VERSION_SWITCH and MIGRATE

/-- What TABLE_CREATE asks for: at basic level carried adds and adds through the cache, automatic placement (R132, 02 R51); with what this block
finds itself (02 R49). -/
def createArgs (d : Desc) (ctx : Nat) (rcp : List Byte) (full : Bool) (home : Nat) : CreateArgs :=
  { fmt := d.fmt, rows := d.rows, tflags := if d.expert then d.tflags else 3, recipe := d.recipe, place := if d.expert then d.place else 0
    nblk := if d.expert then d.nblk else 0, ctx := ctx, rcp := rcp, full := full, home := home, owners := [], tier := 0 }

/-- No format slot for a descriptor here, or no room in Tier S for its auxiliary region (02 R49). -/
def State.noSlot (s : State) (fmt : Nat) : Bool :=
  let f := Fmt.of fmt
  (s.slotFor fmt).isNone || (f.auxSize != 0 && (s.findSpace 0 f.auxSize 4096).isNone)

/-- Start a creation at this block as coordinator. -/
def State.startCreate (s : State) (t : Nat) (a : CreateArgs) (src handle xid lane : Nat) : State :=
  let r := s.createCheck t a src
  if r.1 ≠ sOk then
    if src = s.id then s.endAsked handle r.1 0xFFFF
    else s.answerTk { src := src, lane := lane, handle := handle, xid := xid, list := [] } (.claim t a) r.1 (.status r.1 0xFFFF)
  else
    let o := s.newOp t src handle xid (.create r.2)
    o.2.poke o.1

/-- Start another operation at this block as coordinator; a table that it does not hold is refused, and so is a second destruction (02 R93). An
operation accepted before the destruction goes on (02 R92). -/
def State.startOp (s : State) (t : Nat) (k : OpKind) (src handle xid lane : Nat) : State :=
  let refuse := if src = s.id then s.endWith handle sBadTable
    else s.answerTk { src := src, lane := lane, handle := handle, xid := xid, list := [] } (.release t) sBadTable (.status sBadTable 0xFFFF)
  if (s.rec? t).isNone || (k == .destroy && (s.reg? t).any (fun e => e.destroying)) then refuse
  else
    let o := s.newOp t src handle xid k
    o.2.poke o.1

/-- What a table command asks the coordinator. -/
def tableAsk (d : Desc) (ver : Nat) (a : CreateArgs) : TkBody :=
  if d.opc = oCreate then .claim d.tbl a
  else if d.opc = oDestroy then .release d.tbl
  else if d.opc = oPublish then .publishReq d.tbl d.init d.fmt
  else if d.opc = oSwitch then .switchReq d.tbl d.ver
  else .migrateReq d.tbl ver (d.group + d.resume) (d.ngroup - d.resume) d.dblk d.dtier

/-- Groups of a MIGRATE that its destination holds by this block's map (03 R592). -/
def State.groupsAt (s : State) (c : Cmd) (d : Desc) : Nat :=
  match s.ver? d.tbl c.ver with
  | none => 0
  | some v => ((List.range (d.ngroup - d.resume)).filter (fun i =>
      let e := s.pentry v.pmap (d.group + d.resume + i)
      e.state == 1 && e.owner == d.dblk && e.tier == d.dtier)).length

/-- The command reaches its coordinator: here, or by a message; without one it is unreachable (R594). -/
def State.askCoordinator (s : State) (c : Cmd) (d : Desc) (a : CreateArgs) : State :=
  let s := s.upCmd c.handle (fun x => { x with
    stage := 1, phase := .waiting
    -- a migration that misses its cutoff reports the groups moved since now (03 R592)
    limit := if d.opc = oMigrate then s.groupsAt c d else x.limit })
  match s.coordinator d.tbl with
  | none => s.endAt c.handle sUnreach ((s.registryList.head?).getD 0xFFFF)
  | some b =>
    if b = s.id then
      match tableAsk d c.ver a with
      | .claim t a => s.startCreate t a s.id c.handle 0 0
      | .release t => s.startOp t .destroy s.id c.handle 0 0
      | .publishReq t i f => s.startOp t (.publish i f) s.id c.handle 0 0
      | .switchReq t v => s.startOp t (.switch v) s.id c.handle 0 0
      | .migrateReq t v g n b x => s.startOp t (.migrate v g n b x) s.id c.handle 0 0
      | _ => s
    else if s.noRoute b then s.endAt c.handle sUnreach b
    else s.askTk b c.handle .ask (tableAsk d c.ver a)

/-- TABLE_CREATE reads its recipe parameters, and the coordinator judges what this block finds in the order of 02 R49; a fault on them has no
effect (06 R227, 11 R428). A descriptor of code 8 is not for a ring of a lower minor version (03 R145). -/
def State.createRecipe (s : State) (c : Cmd) (d : Desc) : State :=
  let full := decide (s.tab.recs.length ≥ 16384)
  let go := fun (s : State) (rcp : List Byte) (st : Nat) =>
    s.askCoordinator c d (createArgs d c.ctx rcp full (if st = sOk ∧ s.noSlot d.fmt then sBadTable else st))
  -- the fault stands in the command until the coordinator has spoken
  let fault := fun (s : State) (st a : Nat) =>
    go (s.upCmd c.handle (fun x => { x with endStatus := st, faultaddr := if st = sTransFault then a else 0, failblk := if st = sUnreach then gBlock a else 0xFFFF }))
      [] st
  if bits d.fmt 0 4 = 8 ∧ (s.ring c.ring).minor < 2 then go s [] sBadFormat
  else if d.recipe = 0 ∨ d.recipe > 3 then go s [] sOk
  else if d.dstp = 0 then go s [] sBadFormat
  else
    let r := s.readBuf c false d.dstp 64
    match r.2 with
    | .bytes bs => go r.1 bs sOk
    | .retry => fault r.1 sTransFault d.dstp
    | .stop st a => fault r.1 st a
    | b => r.1.meet c b 0

/-- Run a table command as far as it goes. -/
def State.runTable (s : State) (h : Nat) : State :=
  match s.cmd? h with
  | none => s
  | some c0 =>
    let d := Desc.of c0.desc
    let b := s.begin_ c0
    match b.2, b.1.cmd? h with
    | true, some c =>
      if c.stage ≠ 0 then b.1
      else if d.opc = oCreate then b.1.createRecipe c d
      else b.1.askCoordinator c d (createArgs d c.ctx [] false sOk)
    | _, _ => b.1

/-- The remote cutoff of a table command: a missing holder, or the coordinator (R462, R591). The operation goes on. -/
def State.cutTable (s : State) (c : Cmd) (d : Desc) : State :=
  if c.phase ≠ .waiting then s
  else
    let self := s.tab.ops.find? (fun o => o.from_ == s.id && o.handle == c.handle)
    let fb := match self with
      | some o => (match o.waiting.filter (fun b => b != s.id || !s.selfReady o) with
          | m :: ms => ms.foldl min m
          | [] => s.id)
      | none => (s.coordinator d.tbl).getD ((s.registryList.head?).getD 0xFFFF)
    let moved := if d.opc = oMigrate then (match self with
        | some o => o.count
        | none => s.groupsAt c d - c.limit) else 0
    s.endCmd c.handle sTimeout (fun x => { x with failblk := fb, rows := moved })

-- Messages from a failed block (R473)

/-- Send to a block even though its route is marked. -/
def State.sendPast (s : State) (p l : Nat) (bytes : List Byte) : State :=
  if !s.valid || p == s.id then s
  else
    match s.flow? p l with
    | some _ => (s.upFlow p l (fun f => { f.enqueue bytes with st := if f.st == .closing then .open_ else f.st })).pump p l false
    | none =>
      match s.roomForFlow with
      | none => s
      | some s => (s.openFlow p l).upFlow p l (fun f => f.enqueue bytes)

/-- A message from a block held FAILED is answered so, and its source told; otherwise it is acted on. -/
def State.unlessFailed (s : State) (src lane mtype handle xid : Nat) (f : State → State) : State :=
  if s.isFailed src then
    -- DOORBELL has no reply (09 R351)
    let s := if mtype = 6 then s else s.sendPast src lane (mkMsg (mtype + 0x80) sUnreach handle xid [])
    let x := s.newXid
    x.2.sendPast src 0 (mkMsg 0x1A 0 noHandle.toNat x.1 (Config.tkEncode s.registryList (.failed src)))
  else f s

def State.unlessFailedTk (s : State) (h : TkHdr) (mtype : Nat) (f : State → State) : State :=
  s.unlessFailed h.src h.lane mtype h.handle h.xid f

-- Requests

/-- CLAIM: what other blocks ask of the coordinator. -/
def State.recvClaim (s : State) (h : TkHdr) (b : TkBody) : State :=
  match b with
  | .claim t a => s.startCreate t a h.src h.handle h.xid h.lane
  | .release t => s.startOp t .destroy h.src h.handle h.xid h.lane
  | .publishReq t i f => s.startOp t (.publish i f) h.src h.handle h.xid h.lane
  | .switchReq t v => s.startOp t (.switch v) h.src h.handle h.xid h.lane
  | .migrateReq t v g n d x => s.startOp t (.migrate v g n d x) h.src h.handle h.xid h.lane
  | .entryFetch t v g =>
    (match s.ver? t v with
     | some x => s.answerTk h b 0 (.entry (s.pentry x.pmap g))
     | none => s.answerTk h b sBadTable (.status sBadTable 0xFFFF))
  | .mapReq t v g =>
    (let m := s.mapGroup t v g
     match m.2 with
     | some e => m.1.answerTk h b 0 (.entry e)
     | none => m.1.answerTk h b sPartial (.status sPartial 0xFFFF))
  | .freed t => s.idFreed t h.src
  | _ => s

/-- RECORD_FETCH: the asking block joins the holder set (R450). -/
def State.recvFetch (s : State) (h : TkHdr) (t : Nat) : State :=
  match s.rec? t with
  | none => s.answerTk h (.recordFetch t) sBadTable (.status sBadTable 0xFFFF)
  | some r =>
    if r.dying || s.coordinator t != some s.id then s.answerTk h (.recordFetch t) sBadTable (.status sBadTable 0xFFFF)
    else
      let s := s.upReg t (fun e => { e with holders := addOnce h.src e.holders })
      let s := s.mirrorRecord t
      s.answerTk h (.recordFetch t) 0 (.record (s.recordData r))

/-- The table of an update. -/
def updTable : TkUpdate → Nat
  | .entry t .. => t
  | .promote t .. => t
  | .record r => r.tbl
  | .defRow t _ => t
  | .aux t .. => t
  | .region t .. => t
  | .destroyBegin t => t
  | .destroyEnd t => t
  | .owners t _ => t
  | .replica t .. => t
  | .redeliver t _ => t
  | .op t .. => t
  | .opEnd t _ => t

/-- UPDATE: applied and acknowledged (R451); a holder's change of a row or an entry reaches every holder through the coordinator. -/
def State.recvUpdate (s : State) (h : TkHdr) (u : TkUpdate) : State :=
  let ack := fun (s : State) => s.answerTk h (.update u) 0 .ok
  let mine := s.coordinator (updTable u) == some s.id
  match u with
  | .entry t v g e => if mine then ack (s.setEntry t v g e) else ack (s.applyUpdate u)
  | .defRow t _ => if mine then ack ((s.applyUpdate u).sendUpdate t u) else ack (s.applyUpdate u)
  | .aux t .. => if mine then ack ((s.applyUpdate u).sendUpdate t u) else ack (s.applyUpdate u)
  | .destroyBegin t =>
    (let s := s.applyUpdate u
     if s.canAck (.destroy t) then ack s else s.upTab (fun y => { y with owed := y.owed ++ [(h, OwedKind.destroy t)] }))
  | .redeliver t x =>
    (let s := ack (s.applyUpdate u)
     if s.canAck (.redeliver t x) then s.sendTk h.src noHandle.toNat (.redeliverDone t x)
     else s.upTab (fun y => { y with owed := y.owed ++ [(h, OwedKind.redeliver t x)] }))
  | _ => ack (s.applyUpdate u)

/-- RELEASED: a holder's report at the coordinator, or the coordinator's leave at the source (R466 step 6). -/
def State.recvReleased (s : State) (h : TkHdr) (t v g : Nat) : State :=
  match s.tab.ops.find? (fun o => o.tbl == t && o.waiting.contains h.src && (match o.kind with
      | .relWait v' g' _ => v' == v && g' == g
      | _ => false)) with
  | some o => s.opAnswer o.id h.src true
  | none => if (s.group? t v g).any (fun x => x.leaving) then s.dropGroup t v g false else s

/-- VERSION_PHASE at a holder (R459, R461). -/
def State.recvPhase (s : State) (h : TkHdr) (p : VPhase) (t v : Nat) : State :=
  let ack := fun (s : State) => s.answerTk h (.versionPhase p t v) 0 .ok
  let owe := fun (s : State) (k : OwedKind) => if s.canAck k then ack s else s.upTab (fun y => { y with owed := y.owed ++ [(h, k)] })
  match p with
  | .publishReserve =>
    (match s.publishReserve t v with
     | some s => ack s
     | none => s.answerTk h (.versionPhase p t v) sBadTable (.status sBadTable 0xFFFF))
  | .publishCopy => ack (s.publishCopy t v)
  | .publish => ack (s.publishHere t v)
  | .publishAbort => ack (s.freeVersion t v)
  | .prepare => owe s (.prepare t)
  | .switch => ack (s.switchHere t)
  | .retire => owe s (.retire t v)
  | .free => ack (s.freeVersion t v)

/-- A group's destination makes room for it (R466 step 2, R469). -/
def State.moveRoom (s : State) (h : TkHdr) (b : TkBody) (t v g tier : Nat) : State :=
  let no := fun (s : State) => s.answerTk h b sRefused (.status sRefused 0xFFFF)
  match s.rec? t with
  | none => no s
  | some r =>
    let s := s.placeGroup r v g tier true
    if (s.group? t v g).isSome then s.answerTk h b 0 .ok else no s

/-- RESERVE: storage, slots, and moves. -/
def State.recvReserve (s : State) (h : TkHdr) (b : TkBody) : State :=
  match b with
  | .reserveStorage t tier n =>
    (match s.reserveBytes t 1 tier n with
     | some s => s.answerTk h b 0 .ok
     | none => s.answerTk h b sBadTable (.status sBadTable 0xFFFF))
  | .reserveSlots t v handle nel rows =>
    (let r := s.reserveHere h.src handle t v nel rows
     if r.2 then r.1.answerTk h b 0 .ok else r.1.answerTk h b sRefused (.status sRefused 0xFFFF))
  | .releaseSlots handle now => s.releaseSlots h.src handle now
  | .groupMove t v g dblk dtier rebuild =>
    if dblk = s.id ∧ (s.group? t v g).all (fun x => x.secondary) then
      -- a secondary that is rebuilt starts afresh
      (if rebuild then s.dropGroup t v g false else s).moveRoom h b t v g dtier
    else (s.newOp t h.src h.handle h.xid (.moving v g dblk dtier rebuild)).2
  | _ => s

/-- REPLICA_WRITE: rows, accumulators and mirrored partials of a copy held here (06 R235, R238). -/
def State.recvReplica (s : State) (h : TkHdr) (d : CopyData) : State :=
  if (s.group? d.tbl d.ver d.group).isNone then s.answerTk h (.replicaWrite d) 0xF0 (.status 0xF0 0xFFFF)
  else if !s.groupUp d.tbl d.ver d.group then s.answerTk h (.replicaWrite d) sUncorr (.status sUncorr 0xFFFF)
  else (s.storeCopy d).answerTk h (.replicaWrite d) 0 .ok

/-- GROUP_COPY: part of a group on its way here (R466 step 3). -/
def State.recvCopy (s : State) (h : TkHdr) (d : CopyData) : State :=
  if (s.group? d.tbl d.ver d.group).isNone then s.answerTk h (.groupCopy d) 0xF0 (.status 0xF0 0xFFFF)
  else if !s.groupUp d.tbl d.ver d.group then s.answerTk h (.groupCopy d) sUncorr (.status sUncorr 0xFFFF)
  else
    let s := (s.storeCopy d).upGroup d.tbl d.ver d.group (fun x => { x with load := max x.load d.load })
    s.answerTk h (.groupCopy d) 0 .ok

/-- FAIL_NOTICE (R470 to R474). -/
def State.recvFail (s : State) (h : TkHdr) (b : TkBody) : State :=
  match b with
  | .downReport x r => s.downReported x r
  | .selfReport => if s.lead == some s.id || s.judges h.src then s.declareFailed h.src
      else match s.leadOrDeputy h.src with
        | some l => s.sendTk l noHandle.toNat .selfReport
        | none => s
  | .failed x => s.failNoticed x
  | .tierOut t => s.tierReported h.src t
  | .declare x =>
    if s.lead = some s.id || s.judges x then (s.answerTk h b 0 .ok).declareFailed x
    else s.answerTk h b sUnreach (.status sUnreach 0xFFFF)
  | .query x =>
    -- the lead's own question is about the tables coordinated here
    if s.lead = some h.src then s.answerTk h b 0 (.named (s.namedHere x))
    else s.runQuery x h.src h.lane h.handle h.xid
  | .secondaryLost t v g => s.reportSecondary t v g
  | _ => s

/-- IMAGE_PART: sections and rows for other home blocks (R477; 03 R134). -/
def State.recvImage (s : State) (h : TkHdr) (b : TkBody) : State :=
  match b with
  | .imageReq t v x g d => s.serveImage h t v x g d
  | .imagePart t v x g off bs => s.serveImagePart h t v x g off bs
  | .rowsWrite t v x rows => s.serveRowsWrite h t v x rows
  | .rowsRead t v x rows => s.serveRowsRead h t v x rows
  | _ => s

-- Replies

/-- Status and block of an answer. -/
def answerStatus : TkAnswer → Nat × Nat
  | .status c b => (c, b)
  | .moved c b _ _ => (c, b)
  | _ => (sOk, 0xFFFF)

/-- A reply to a step of an operation. -/
def State.opReply (s : State) (x : Xchg) (id : Nat) (ok : Bool) : State :=
  let s := s.dropXchg x.xid
  match s.op? id with
  | none => s
  | some o =>
    match o.kind with
    | .moving v g _ _ rebuild =>
      if o.phase = 9 then
        let s := s.endOp id
        if ok then s.rebuilt o.tbl v g else s
      else
        let s := s.moveAnswer o ok
        if rebuild && ok && o.from_ == s.id && (s.op? id).isNone then s.rebuilt o.tbl v g else s
    | _ => s.opAnswer id x.dst ok

/-- A reply to a command's own request. -/
def State.askReply (s : State) (x : Xchg) (a : TkAnswer) : State :=
  match s.cmd? x.handle with
  | none => s.dropXchg x.xid
  | some c =>
    let d := Desc.of c.desc
    let st := answerStatus a
    if d.opc = oRowsWrite then (s.dropXchg x.xid).rowsWritten x.handle x.dst st.1 (match a with | .rows l => l.map (fun p => p.1) | _ => [])
    else if d.opc = oRowsRead then
      (s.dropXchg x.xid).rowsArrived x.handle x.dst st.1 (match a with | .rows l => l | _ => [])
    else if d.opc = oCheckpoint then
      let k := if c.stage = 1 then auxGroup else c.next
      match a with
      | .sectionBytes bs =>
        let need := if c.stage = 1 then (s.verFmt d.tbl c.ver).auxSize
          else groupBytes (s.verFmt d.tbl c.ver) (((s.rec? d.tbl).map (fun r => r.recipe)).getD 0)
        let s := s.sectionArrived x.handle x.dst k sOk bs
        if ((s.cmd? x.handle).map (fun c => (c.sectionOf k).length)).getD need ≥ need then s.dropXchg x.xid else s
      | _ => (s.dropXchg x.xid).sectionArrived x.handle x.dst k st.1 []
    else if d.opc = oRestore then
      let s := s.dropXchg x.xid
      if st.1 = sOk then s else s.sectionArrived x.handle x.dst c.next st.1 []
    else
      let s := s.dropXchg x.xid
      match a with
      | .moved _ _ n stop => s.endCmd x.handle st.1 (fun c => { c with
          rows := n, residx := (stop.map (fun g => g - d.group)).getD 0, failblk := st.2 })
      | _ => s.endAsked x.handle st.1 st.2

/-- A Table Keeper reply that is awaited: the state, and the command that may go on. -/
def State.recvReply (s : State) (h : TkHdr) (a : TkAnswer) : State × Option Nat :=
  match s.xchg? h.src h.xid with
  | none => (s, none)
  | some x =>
    let st := answerStatus a
    match x.kind with
    | .record _ =>
      (match a with
       | .record r => ((s.dropXchg x.xid).installRecord r |>.useRec r.tbl, some x.handle)
       | _ => ((s.dropXchg x.xid).endAt x.handle (if st.1 = sOk then sBadTable else st.1) st.2, some x.handle))
    | .entry t v g =>
      (let s := s.dropXchg x.xid
       match a with
       | .entry e =>
         let s := s.recvEntry t v g e true
         if x.handle = noHandle.toNat then (s.resend t v g false (fun j => j.xid == 2 ^ 32), none)
         else match s.cmd? x.handle with
           | none => (s, none)
           | some c =>
             let d := Desc.of c.desc
             if d.isRead && !(s.fab.xchg.any (fun y => y.handle == x.handle && (match y.kind with | .entry .. => true | _ => false))) then
               (s.regather c d, some x.handle)
             else (s, some x.handle)
       | _ =>
         (if st.1 = sPartial then s.upCmd x.handle (fun c => if leAt c.desc 0 1 = oRestore then { c with events := addOnce (12, 0) c.events } else c)
          else s, some x.handle))
    | .slots => ((s.dropXchg x.xid).slotsAnswer x.handle x.dst (st.1 == sOk), some x.handle)
    | .commit =>
      (match a with
       | .commit rows fl => ((s.dropXchg x.xid).commitAnswer x.handle x.dst rows fl, some x.handle)
       -- no confirmation: the owner is awaited until the cutoff (06 R242)
       | _ => (s.dropXchg x.xid, some x.handle))
    | .secondary w t v g =>
      (let s := s.dropXchg x.xid
       if st.1 = sOk then (s.confirmed x.xid w, none) else ((s.reportSecondary t v g).confirmed x.xid w, none))
    | .op id => (s.opReply x id (st.1 == sOk), none)
    | .ask => (s.askReply x a, some x.handle)
    | .update => (s.dropXchg x.xid, none)
    | .declare => (if st.1 = sOk then (s.dropXchg x.xid).failCtrlAnswer none else s.dropXchg x.xid, none)
    | .query =>
      (let s := s.dropXchg x.xid
       let named := match a with | .named b => b | _ => false
       if x.handle = noHandle.toNat then (s.failCtrlAnswer (some named), none)
       else ((s.upTab (fun t => { t with served := t.served.map (fun v => if v.id == x.handle then { v with left := max v.left (b2n named) } else v) })).closeQuery
         x.handle, none))
    | _ => (s, none)

end Sys2Proof.Machine
end

