-- ==== Sys2Proof/Machine/Ports.lean ====
section
/-! DEFINITION. Ports of the fabric (09 R336, R346, R348, R366 to R368): where flows go when a port leaves or returns, and resends. -/

namespace Sys2Proof.Machine

/-- Send every unacknowledged frame again from APSN, with RETX; an opening flow sends OPEN again (R346, R348). -/
def State.resendFlow (s : State) (p l : Nat) : State :=
  match s.flow? p l with
  | none => s
  | some f =>
    match f.port with
    | none => s
    | some k =>
      if s.paused k l then s
      else if f.st == .opening then (s.sendFrame f 4 0 0 []).bump (FP_PORT_CTR k 5) 1
      else
        let go := fun (s : State) (x : TxFrame) => (s.sendFrame f 1 4 x.psn x.payload).bump (FP_PORT_CTR k 5) 1
        let now := s.ctl.now
        let s := f.unacked.foldl go s
        s.upFlow p l (fun f => if f.unacked.isEmpty then f else
          { f.acked! with unacked := f.unacked.map (fun x => { x with sent := now }) })

/-- A flow takes the port that R336 gives now, sends again what is unacknowledged, and goes on. -/
def State.moveFlow (s : State) (p l : Nat) : State :=
  match s.flow? p l with
  | none => s
  | some f =>
    let s := s.upFlow p l (fun g => { g with port := s.choosePort p l f.badPorts, timeouts := 0 })
    (s.resendFlow p l).pump p l false

/-- Every flow on a port moves (R368). -/
def State.moveFlowsOf (s : State) (k : Nat) : State :=
  (s.fab.flows.filter (fun f => f.port == some k)).foldl (fun s f => s.moveFlow f.partner f.lane) s

/-- A port leaves service with a cause (R367); `lost` says that it lost its link (R368). -/
def State.portLeaves (s : State) (k cause : Nat) (lost : Bool) : State :=
  let degraded := decide (2 ≤ cause ∧ cause ≤ 5) || cause == 8
  let note := fun (s : State) => if degraded then s.fault 4 (srcPort k) 0x24 (k + cause * 16) else s
  if !s.linkUp k then
    (if s.fld (FP_PORT_STATUS k) 1 4 = cause then s else note (s.setFld (FP_PORT_STATUS k) 1 4 cause))
  else
    let s := (s.setFld (FP_PORT_STATUS k) 0 1 0).setFld (FP_PORT_STATUS k) 1 4 cause
    let s := note (if lost then s.bump (FP_PORT_CTR k 7) 1 else s)
    let s := s.upFab (fun f => { f with
      pauses := f.pauses.filter (fun p => p.1 != k), ignorePause := f.ignorePause.filter (fun p => p.1 != k) })
    s.moveFlowsOf k

/-- A port enters service (R366): flows may choose it, and those without a port do. -/
def State.portEnters (s : State) (k : Nat) : State :=
  if s.linkUp k || !s.flag (FP_PORT_CFG k) 0 then s
  else
    let s := (s.setFld (FP_PORT_STATUS k) 0 1 1).setFld (FP_PORT_STATUS k) 1 4 0
    (s.fab.flows.filter (fun f => f.port.isNone)).foldl (fun s f => s.moveFlow f.partner f.lane) s

/-- Another port is in service (R373). -/
def State.otherPort (s : State) (k : Nat) : Bool := (upTo 8).any (fun j => j != k && s.linkUp j)

/-- A loop-back holds a port out of service (R373). -/
def State.lbHolds (s : State) (k : Nat) : Bool := s.fab.lb.any (fun b => b.port == k && decide (3 ≤ b.depth ∧ b.depth ≤ 5))

/-- A packet number is used up: no next association is installed (R330). -/
def State.pnExhausted (s : State) (k : Nat) : Bool :=
  let limit := s.pnLimit k
  let tx := s.sec.sas.filter (fun a => a.port == k && !a.rx)
  s.flag (FP_PORT_CFG k) 2 && tx.any (fun a => decide (a.pn ≥ limit)) && tx.all (fun a => decide (a.pn ≥ limit))

end Sys2Proof.Machine
end

