-- ==== Sys2Proof/Machine/Sha.lean ====
section
/-! DEFINITION. SHA-384 (FIPS 180-4), which the manual names for measurements and images (13 R486, R492). -/

namespace Sys2Proof.Machine

/-- The largest `r` below 2^bits more than `r0` with r^k at most `n`, bit by bit from the highest. -/
def rootBits (k n : Nat) : Nat → Nat → Nat
  | 0, r => r
  | b + 1, r => rootBits k n b (if (r + 2 ^ b) ^ k ≤ n then r + 2 ^ b else r)

/-- The first 64 bits of the fraction of the k-th root of a prime; the root is below 8. -/
def rootFraction (k p : Nat) : Nat := rootBits k (p * 2 ^ (64 * k)) 67 0 % 2 ^ 64

/-- The first 80 primes. -/
def shaPrimes : List Nat :=
  [2, 3, 5, 7, 11, 13, 17, 19, 23, 29, 31, 37, 41, 43, 47, 53] ++ [59, 61, 67, 71, 73, 79, 83, 89, 97, 101, 103, 107, 109, 113, 127, 131] ++
  [137, 139, 149, 151, 157, 163, 167, 173, 179, 181, 191, 193, 197, 199, 211, 223] ++
  [227, 229, 233, 239, 241, 251, 257, 263, 269, 271, 277, 281, 283, 293, 307, 311] ++
  [313, 317, 331, 337, 347, 349, 353, 359, 367, 373, 379, 383, 389, 397, 401, 409]

/-- Round constants: the fractions of the cube roots of the first 80 primes. -/
def shaK : List Nat := shaPrimes.map (rootFraction 3)

/-- Initial hash value of SHA-384: the fractions of the square roots of the 9th to the 16th prime. -/
def shaInit : List Nat := ((shaPrimes.drop 8).take 8).map (rootFraction 2)

/-- Addition modulo 2^64. -/
def add64 (a b : Nat) : Nat := (a + b) % 2 ^ 64

/-- Rotation to the right of 64 bits. -/
def rotr (n x : Nat) : Nat := (x >>> n) ||| ((x <<< (64 - n)) % 2 ^ 64)

/-- The message schedule: each word from the sixteen before it, kept newest first. -/
def shaSchedule : Nat → List Nat → List Nat
  | 0, w => w
  | n + 1, w =>
    let at_ := fun (i : Nat) => (w[i]?).getD 0
    let s0 := let x := at_ 14; rotr 1 x ^^^ rotr 8 x ^^^ (x >>> 7)
    let s1 := let x := at_ 1; rotr 19 x ^^^ rotr 61 x ^^^ (x >>> 6)
    shaSchedule n (add64 (add64 (at_ 15) s0) (add64 (at_ 6) s1) :: w)

/-- The eight working variables. -/
structure ShaVars where
  a : Nat
  b : Nat
  c : Nat
  d : Nat
  e : Nat
  f : Nat
  g : Nat
  h : Nat
  deriving DecidableEq, Repr

/-- One round with the sum of its constant and its word. -/
def shaRound (v : ShaVars) (kw : Nat) : ShaVars :=
  let s1 := rotr 14 v.e ^^^ rotr 18 v.e ^^^ rotr 41 v.e
  let ch := (v.e &&& v.f) ^^^ ((2 ^ 64 - 1 - v.e) &&& v.g)
  let t1 := add64 (add64 v.h s1) (add64 ch kw)
  let s0 := rotr 28 v.a ^^^ rotr 34 v.a ^^^ rotr 39 v.a
  let mj := (v.a &&& v.b) ^^^ (v.a &&& v.c) ^^^ (v.b &&& v.c)
  { a := add64 t1 (add64 s0 mj), b := v.a, c := v.b, d := v.c, e := add64 v.d t1, f := v.e, g := v.f, h := v.g }

/-- One block of 128 bytes. -/
def shaBlock (h : List Nat) (blk : List Byte) : List Nat :=
  let w := (shaSchedule 64 ((chunks 8 blk).map beNat).reverse).reverse
  let at_ := fun (i : Nat) => (h[i]?).getD 0
  let v := (shaK.zip w).foldl (fun v p => shaRound v (add64 p.1 p.2))
    { a := at_ 0, b := at_ 1, c := at_ 2, d := at_ 3, e := at_ 4, f := at_ 5, g := at_ 6, h := at_ 7 : ShaVars }
  [add64 (at_ 0) v.a, add64 (at_ 1) v.b, add64 (at_ 2) v.c, add64 (at_ 3) v.d, add64 (at_ 4) v.e, add64 (at_ 5) v.f,
   add64 (at_ 6) v.g, add64 (at_ 7) v.h]

/-- Padding to whole blocks with the length in bits. -/
def shaPad (bs : List Byte) : List Byte :=
  let n := bs.length
  bs ++ [0x80#8] ++ zeros ((128 - (n + 17) % 128) % 128) ++ beBytes 16 (8 * n)

/-- SHA-384 of a byte string: 48 bytes. -/
def sha384 (bs : List Byte) : List Byte :=
  (((chunks 128 (shaPad bs)).foldl shaBlock shaInit).take 6 |>.map (beBytes 8)).flatten

end Sys2Proof.Machine
end

