-- ==== Sys2Proof/Machine/Misc.lean ====
section
/-! DEFINITION. NOP, FENCE, FLUSH_CACHE, STATS, ATTEST, LOOPBACK_TEST and the diagnostics (03 R128 to R131; 07 R290, R291;
13 R498; 14 R532 to R537, R541, R542; 09 R372 to R374). -/

namespace Sys2Proof.Machine

/-- Begin a command and run its own work. -/
def State.runWith (s : State) (h : Nat) (f : State → Cmd → Desc → State) : State :=
  match s.cmd? h with
  | none => s
  | some c0 =>
    let b := s.begin_ c0
    match b.2, b.1.cmd? h with
    | true, some c => f b.1 c (Desc.of c.desc)
    | _, _ => b.1

/-- Write a result that is one unit, and end; a fault there ends the command, a migratable page too (11 R428). -/
def State.deliver (s : State) (c : Cmd) (u : OutUnit) (status : Nat) (f : Cmd → Cmd) : State :=
  let w := s.writeUnits c 0 [u] (.ringWrite c.ring) 1
  match w.2 with
  | .done => w.1.endCmd c.handle status f
  | .stop _ st a => if st = sUnreach then w.1.endAt c.handle st (gBlock a) else w.1.endFault c.handle st a
  | .retry _ => w.1.endFault c.handle sTransFault ((u.head?.map (fun p => p.1)).getD 0)
  | .held a => w.1.waitOn c.handle a

/-- NOP (03 R128). -/
def State.runNop (s : State) (h : Nat) : State := s.runWith h (fun s c _ => s.endWith c.handle sOk)

/-- FENCE (03 R129): done when the records of every command accepted earlier on its ring are written. -/
def State.runFence (s : State) (h : Nat) : State :=
  s.runWith h (fun s c _ =>
    if (s.ahead c).isEmpty then s.endWith c.handle sOk else s.upCmd c.handle (fun x => { x with phase := .waiting }))

-- FLUSH_CACHE (07 R290, R291)

/-- Ways of a partition's mask that no other partition's mask has. -/
def State.ownWays (s : State) (part : Nat) : Nat :=
  let others := ((upTo 16).filter (· != part)).foldl (fun m q => m ||| s.reg (RC_PART_MASK q)) 0
  s.reg (RC_PART_MASK part) &&& (0xFFFF - others % 0x10000)

/-- Lines in a set of ways, of every slice; fills into them become stale. -/
def State.flushWays (s : State) (mask : Nat) : State × Nat :=
  let k := (s.cache.lines.filter (fun l => bit mask l.way && l.sectors != 0)).length
  ((s.dropLines (fun l => bit mask l.way)).upCache (fun c => { c with
    fills := c.fills.map (fun f => if f.way.any (fun w => bit mask w) then { f with stale := f.stale ||| f.want } else f) }), k)

/-- Lines of a table's rows, accumulators, auxiliary regions, placement maps, default row and parameters here. -/
def State.flushTable (s : State) (t : Nat) : State × Nat :=
  let recipe := ((s.rec? t).map (fun r => r.recipe)).getD 0
  let ng := ((s.rec? t).map (fun r => r.ngroups)).getD 0
  let a := (s.tab.groups.filter (fun g => g.tbl == t)).foldl (fun (acc : State × Nat) g =>
    let r := acc.1.flushRange g.tier g.base (groupBytes (s.verFmt t g.ver) recipe)
    (r.1, acc.2 + r.2)) (s, 0)
  let b := (s.tab.vers.filter (fun v => v.tbl == t)).foldl (fun (acc : State × Nat) v =>
    let f := s.fmtAt v.fmt
    let r := if f.aux = 0 then (acc.1, 0) else acc.1.flushRange 0 f.aux f.auxSize
    (r.1.mdFlush v.pmap (4 * ng), acc.2 + r.2)) a
  match s.rec? t with
  | none => b
  | some r =>
    let s1 := if r.defrow = 0 then b.1 else b.1.mdFlush r.defrow (4 * (s.tblFmt t).dim)
    (if r.rcpp = 0 then s1 else s1.mdFlush r.rcpp 64, b.2)

def State.runFlush (s : State) (h : Nat) : State :=
  s.runWith h (fun s c d =>
    let r := if d.scope = 0 then s.flushWays (s.ownWays (s.ringPart c.ring))
      else if d.scope = 1 then s.flushTable d.tbl
      else
        let r := s.flushRange (gTier d.rbase) (gOff d.rbase) d.rlen
        (r.1.mdFlush d.rbase d.rlen, r.2)
    (r.1.upCache (fun x => { x with mb := [] })).endCmd c.handle sOk (fun x => { x with rows := min r.2 0xFFFFFFFF }))

-- STATS (03 R131)

/-- Counters of a ring (14 R541), which saturate. -/
def Ring.stats (r : Ring) : List Byte :=
  let c := fun (n v : Nat) => leBytes n (min v (256 ^ n - 1))
  c 8 r.accepted ++ c 8 r.refused ++ c 8 r.doneOk ++ c 8 r.doneErr ++ c 8 r.rows ++ c 8 r.elapsed ++ c 4 r.late ++ c 4 r.maxElapsed ++
  zeros 8

def State.runStats (s : State) (h : Nat) : State :=
  s.runWith h (fun s c d =>
    let bs := if d.sel = 0 then ((s.rec? d.tbl).map s.recordBytes).getD (zeros 64)
      else if d.sel = 1 then (s.ring c.ring).stats
      else fitTo 128 s.spine.snap
    if c.inl then s.endCmd c.handle sOk (fun x => { x with result := bs }) else s.deliver c [(d.dstp, bs)] sOk (fun x => x))

-- Diagnostics (03 R130)

/-- The codes of 03 R138 that a completion record can carry. -/
def statusCodes : List Nat :=
  [sOk, sDegraded, sPartial, sIllegal, sReserved, sBadFormat, sBadTable, sDenied, sTransFault, sVersion, sTimeout, sUnreach, sUncorr,
   sAborted, sMissed]

/-- A diagnostic completes with some code of R138, which Balnil's sheet fixes. -/
def State.runDiag (s : State) (h : Nat) : State :=
  s.runWith h (fun s c _ =>
    let k := Config.diagnosticStatus c.desc s.ctl.fresh
    (s.upCtl (fun x => { x with fresh := x.fresh + 1 })).endWith c.handle ((statusCodes[k % 15]?).getD sOk))

-- ATTEST (13 R498)

/-- Bytes of MR0 to MR7 (13 R492). -/
def State.measurements (s : State) : List Byte :=
  ((upTo 8).map (fun m => ((upTo 6).map (fun w => leBytes 8 (s.reg (SE_MR m w)))).flatten)).flatten

/-- The report without its signature. -/
def State.reportBody (s : State) (nonce : List Byte) : List Byte :=
  let st := s.reg SE_STATUS
  let flags := b2n (bit st 0) + 2 * b2n (bit st 1) + 4 * b2n (bit st 4) + 8 * b2n (bit st 5) + 16 * b2n (bit st 11) + 32 * b2n s.locked
  leBytes 4 0x54414B53 ++ leBytes 2 1 ++ leBytes 2 (s.id + 2 ^ 15 * b2n s.valid) ++ leBytes 1 (s.fld CC_ID 0 8) ++
  Machine.bytesAt s.sec.header 6 1 ++ Machine.bytesAt s.sec.header 14 2 ++ Machine.bytesAt s.sec.header 8 4 ++ leBytes 4 s.fuses.svn ++ leBytes 4 flags ++
  leBytes 4 (min s.sec.restartSum 0xFFFFFFFF) ++ zeros 4 ++ fitTo 32 nonce ++ fitTo 96 (Config.dikPublic s.fuses.uds) ++
  fitTo 96 (Config.dakPublic s.fuses.uds) ++ s.measurements

/-- ATTEST: the report at DSTP. A command that was accepted before the security core stopped serving is aborted. -/
def State.runAttest (s : State) (h : Nat) : State :=
  s.runWith h (fun s c d =>
    if s.flag SE_STATUS 2 || s.flag SE_STATUS 3 then s.endWith c.handle sAborted
    else
      let body := s.reportBody (Machine.bytesAt d.raw 64 32)
      let sig := fitTo 96 (Config.ecdsaSign s.fuses.uds (sha384 body) s.sec.drbg)
      (s.upSec (fun x => { x with drbg := (x.drbg + 1) % 2 ^ 20 })).deliver c [(d.dstp, body ++ sig)] sOk (fun x => x))

-- LOOPBACK_TEST (14 R532 to R537)

/-- One bit of PRBS31: the register holds the last 31 bits, the oldest at bit 30 (R533). -/
def prbsBit (r : Nat) : Nat × Nat :=
  let out := bits r 30 1
  (out, (r * 2 + (out + bits r 27 1) % 2) % 2 ^ 31)

/-- One byte of the pattern, bit 0 first. -/
def prbsByte (r : Nat) : Nat × Nat :=
  (upTo 8).foldl (fun (acc : Nat × Nat) i => let x := prbsBit acc.2; (acc.1 + x.1 * 2 ^ i, x.2)) (0, r)

/-- `n` bytes of the pattern from its start. -/
def prbs (n : Nat) : List Byte :=
  ((upTo n).foldl (fun (acc : List Byte × Nat) _ => let x := prbsByte acc.2; (BitVec.ofNat 8 x.1 :: acc.1, x.2)) ([], 2 ^ 31 - 1)).1.reverse

def lbPass : Nat := 0
def lbMismatch : Nat := 1
def lbNotRun : Nat := 2
def lbUnreachable : Nat := 3

/-- The 64-byte result (R532). -/
def lbResult (d : Desc) (result errs first bytes elapsed partner : Nat) : List Byte :=
  leBytes 1 d.depth ++ leBytes 1 d.port ++ leBytes 1 result ++ zeros 1 ++ leBytes 4 (min errs 0xFFFFFFFF) ++ leBytes 8 first ++
  leBytes 8 bytes ++ leBytes 4 (min elapsed 0xFFFFFFFF) ++ leBytes 2 partner ++ zeros 34

/-- REPAIR_HOLD follows the pending repairs and slices of Tier F and Tier C (08 R313, 14 R536). -/
def State.syncRepairs (s : State) : State := s.setFld NW_STATUS 17 1 (b2n (s.repairPending 1 || s.repairPending 2))

/-- Commands of class P0 or P1 that touch a tier are in flight (08 R313). -/
def State.fastOnTier (s : State) (tier : Nat) : Bool :=
  s.cmds.any (fun c => decide (c.cls ≤ 2) && c.phase != .done && c.tiers.contains tier)

/-- A repair, or a slice that counts as one, may start in a channel: none has within the last millisecond; on Tier F and Tier C no P0 or P1
command touches the tier and the power core runs (08 R313; 13 R506). -/
def State.repairMayStart (s : State) (tier unit : Nat) : Bool :=
  (match lookupBy unit s.spine.repairAt with
    | none => true
    | some t => decide (s.ctl.now ≥ t + ms)) &&
  (tier == 0 || (!s.fastOnTier tier && s.fld (CC_CORE 1) 2 2 == 0))

/-- The test is over: result, counters, record (R537). The scratch area of H2 and H3 is written with it. -/
def State.endLoopback (s : State) (c : Cmd) (d : Desc) (result errs : Nat) (first : Option Nat) (bytes : Nat) (elapsed : Option Nat) : State :=
  let s := (s.upFab (fun f => { f with lb := f.lb.filter (fun b => b.handle != c.handle) })).syncRepairs
  let s := if result = lbNotRun then s else s.bump TT_LB_RUN 1
  let s := if result = lbMismatch ∨ result = lbUnreachable then s.bump TT_LB_FAIL 1 else s
  let e := match elapsed with
    | some n => (n, s)
    | none => let r := s.draw; (r.1, r.2)
  let partner := if d.depth = 6 then s.fld FP_LB_CFG 0 15 else 0
  let res := lbResult d result errs (first.getD 0xFFFFFFFFFFFFFFFF) bytes e.1 partner
  let u : OutUnit := (d.dstp, res) :: (if d.depth ≤ 2 then [(d.dstp + 64, prbs d.len)] else [])
  if result = lbUnreachable then e.2.deliver c u sUnreach (fun x => { x with failblk := partner })
  else e.2.deliver c u sOk (fun x => x)

/-- A memory channel is in service (R536). -/
def State.channelUp (s : State) (tier ch : Nat) : Bool := !s.tierOut tier && (tier != 2 || bit (s.fld MC_CHAN_MAP 0 32) ch)

/-- A port's flows are acknowledged, or 100 µs have passed (09 R373). -/
def State.drained (s : State) (b : LbRun) : Bool :=
  (s.fab.flows.filter (fun f => f.port == some b.port)).all (fun f => f.unacked.isEmpty) || decide (s.ctl.now ≥ b.since + 100 * us)

/-- F1 to F3: the port drains, leaves service, and the pattern returns; F3 first waits for the SerDes (15 R554). -/
def State.portLoopback (s : State) (c : Cmd) (d : Desc) : State :=
  match s.fab.lb.find? (fun b => b.handle == c.handle) with
  | none =>
    if s.fab.lb.any (fun b => b.port == d.port) then s.upCmd c.handle (fun x => { x with phase := .waiting })
    else if s.linkUp d.port && s.valid && !s.otherPort d.port then s.endLoopback c d lbNotRun 0 none 0 (some 0)
    else
      let b : LbRun := { handle := c.handle, depth := d.depth, port := d.port, stage := 0, since := s.ctl.now, errs := 0, first := none
                         bytes := 0 }
      let s := s.upFab (fun f => { f with lb := f.lb ++ [b] })
      let s := s.upCmd c.handle (fun x => { x with phase := .waiting })
      if !s.drained b then s
      else
        let s := if s.linkUp d.port then s.portLeaves d.port 7 false else s
        if d.depth = 5 then s.upFab (fun f => { f with lb := f.lb.map (fun x => if x.handle == c.handle then { x with stage := 1 } else x) })
        else s.endLoopback c d lbPass 0 none d.len none
  | some b =>
    if b.stage = 0 then
      if !s.drained b then s
      else
        let s := if s.linkUp d.port then s.portLeaves d.port 7 false else s
        if d.depth = 5 then s.upFab (fun f => { f with lb := f.lb.map (fun x => if x.handle == c.handle then { x with stage := 1 } else x) })
        else s.endLoopback c d lbPass 0 none d.len none
    else s.endLoopback c d lbPass 0 none d.len none

/-- F4: ECHO messages to the partner on lane 0, pinned to the port (09 R374). -/
def State.echoLoopback (s : State) (c : Cmd) (d : Desc) : State :=
  let p := s.fld FP_LB_CFG 0 15
  if s.fab.lb.any (fun b => b.handle == c.handle) then s
  else if !s.valid || s.noRoute p || p == s.id || !(s.usable p []).contains d.port then s.endLoopback c d lbUnreachable 0 none 0 (some 0)
  else
    let b : LbRun := { handle := c.handle, depth := 6, port := d.port, stage := 2, since := s.ctl.now, errs := 0, first := none, bytes := 0 }
    let s := (s.upFab (fun f => { f with lb := f.lb ++ [b] })).upCmd c.handle (fun x => { x with phase := .waiting })
    let s := s.upFlow p 0 (fun f => { f with port := some d.port })
    ((chunks 65504 (prbs d.len)).zipIdx).foldl (fun s x =>
      let s := s.request p 0 0x0B c.handle (.echo (65504 * x.2)) x.1
      s.upFlow p 0 (fun f => { f with port := some d.port })) s

/-- M2 and M3: slices of 4 KiB, each held off and started as a repair of its channel is (R536). -/
def State.sliceLoopback (s : State) (c : Cmd) (d : Desc) : State :=
  let tier := d.port / 64
  let unit := tier * 256 + d.port % 64
  let start : LbRun := { handle := c.handle, depth := d.depth, port := d.port, stage := 3, since := s.ctl.now, errs := 0, first := none
                         bytes := 0 }
  let old := s.fab.lb.find? (fun b => b.handle == c.handle)
  let b := old.getD start
  if !s.channelUp tier (d.port % 64) then s.endLoopback c d lbNotRun 0 none 0 (some 0)
  else
    let s := if old.isSome then s else
      ((s.upFab (fun f => { f with lb := f.lb ++ [start] })).upCmd c.handle (fun x => { x with phase := .waiting })).syncRepairs
    if !s.repairMayStart tier unit then s
    else
      let bytes := min d.len (b.bytes + 4096)
      let s := s.upSpine (fun x => { x with repairAt := insertBy unit s.ctl.now x.repairAt })
      if bytes = d.len then s.endLoopback c d lbPass 0 none d.len none
      else s.upFab (fun f => { f with lb := f.lb.map (fun x => if x.handle == c.handle then { x with bytes := bytes } else x) })

/-- Run LOOPBACK_TEST as far as it goes. -/
def State.runLoopback (s : State) (h : Nat) : State :=
  s.runWith h (fun s c d =>
    if d.depth ≤ 2 then
      let s1 := s.endLoopback c d lbPass 0 none d.len none
      if d.depth = 2 && gBlock d.dstp == s.id then s1.mdFlush (d.dstp + 64) d.len else s1
    else if d.depth ≤ 5 then s.portLoopback c d
    else if d.depth = 6 then s.echoLoopback c d
    else if d.depth ≥ 8 then s.sliceLoopback c d
    else if s.channelUp (d.port / 64) (d.port % 64) then s.endLoopback c d lbPass 0 none d.len none
    else s.endLoopback c d lbNotRun 0 none 0 (some 0))

/-- Bits that differ between two byte strings, and the offset of the first difference. -/
def diffBits (a b : List Byte) : Nat × Option Nat :=
  ((a.zip b).zipIdx).foldl (fun (acc : Nat × Option Nat) x =>
    let n := popcount ((x.1.1 ^^^ x.1.2).toNat)
    (acc.1 + n, if n ≠ 0 ∧ acc.2.isNone then some x.2 else acc.2)) (0, none)

/-- An ECHO_REPLY is compared with what was sent; the last one ends the test. -/
def State.echoBack (s : State) (x : Xchg) (off : Nat) (body : List Byte) : State :=
  let s := s.dropXchg x.xid
  let sent := x.msg.drop 16
  let df := diffBits sent (fitTo sent.length body)
  let s := s.upFab (fun f => { f with lb := f.lb.map (fun b => if b.handle == x.handle then
    { b with errs := b.errs + df.1, bytes := b.bytes + sent.length
             first := (match df.2 with | some k => some (min (off + k) (b.first.getD (off + k))) | none => b.first) } else b) })
  match s.cmd? x.handle, s.fab.lb.find? (fun b => b.handle == x.handle) with
  | some c, some b =>
    if s.fab.xchg.any (fun y => y.handle == x.handle && (match y.kind with | .echo _ => true | _ => false)) then s
    else s.endLoopback c (Desc.of c.desc) (if b.errs = 0 then lbPass else lbMismatch) b.errs b.first b.bytes
      (some ((s.ctl.now - b.since) / ns))
  | _, _ => s

/-- F4 without every reply at its cutoff is unreachable (09 R374). -/
def State.cutEcho (s : State) (c : Cmd) (d : Desc) : State :=
  match s.fab.lb.find? (fun b => b.handle == c.handle) with
  | some b =>
    if b.stage ≠ 2 then s
    else
      let s := s.upFab (fun f => { f with xchg := f.xchg.filter (fun y => !(y.handle == c.handle && (match y.kind with | .echo _ => true | _ => false))) })
      s.endLoopback c d lbUnreachable b.errs b.first b.bytes (some ((s.ctl.now - b.since) / ns))
  | none => s

/-- The SerDes does not answer F3 within 10 µs (15 R554). -/
def State.lbNoAck (s : State) (k : Nat) : State :=
  match s.fab.lb.find? (fun b => b.port == k && b.stage == 1) with
  | none => s
  | some b =>
    match s.cmd? b.handle with
    | none => s
    | some c => s.endLoopback c (Desc.of c.desc) lbNotRun 0 none 0 (some 0)

end Sys2Proof.Machine
end

