-- ==== Sys2Proof/Machine/Exec.lean ====
section
/-! DEFINITION. The commands of the rings and of the opcodes (03): doorbells, acceptance, the work of every opcode, the remote cutoff
and the completion record. -/

namespace Sys2Proof.Machine

-- Running commands

/-- Run the work of an accepted command as far as it goes. -/
def State.runCmd (s : State) (h : Nat) : State :=
  match s.cmd? h with
  | none => s
  | some c =>
    let o := leAt c.desc 0 1
    if o = oNop then s.runNop h
    else if o = oLookup ∨ o = oPool then s.runGather h
    else if o = oScatter ∨ o = oBackward then s.runScatter h
    else if o = oCreate ∨ o = oDestroy ∨ o = oPublish ∨ o = oSwitch ∨ o = oMigrate then s.runTable h
    else if o = oRowsWrite then s.runRowsWrite h
    else if o = oRowsRead then s.runRowsRead h
    else if o = oCheckpoint then s.runCheckpoint h
    else if o = oRestore then s.runRestore h
    else if o = oFence then s.runFence h
    else if o = oFlush then s.runFlush h
    else if o = oStats then s.runStats h
    else if o = oCommit then s.runCommit h
    else if o = oAttest then s.runAttest h
    else if o = oLoopback then s.runLoopback h
    else s.runDiag h

/-- A command goes on after something that it waited for. -/
def State.resume (s : State) (h : Option Nat) : State :=
  match h with
  | some h => s.runCmd h
  | none => s

/-- Every begun command goes on; a loop-back goes on by its own events. -/
def State.runWaiting (s : State) : State :=
  ((s.cmds.filter (fun c => (c.phase == .waiting || c.phase == .wantRecord) && leAt c.desc 0 1 != oLoopback)).map (fun c => c.handle)).foldl
    (fun s h => s.runCmd h) s

/-- Loop-backs whose port was draining go on when it has drained (09 R373), and those in slices with their next slice (14 R536). -/
def State.runDrains (s : State) : State :=
  ((s.fab.lb.filter (fun b => b.stage == 0 || b.stage == 3)).map (fun b => b.handle)).foldl (fun s h => s.runCmd h) s

/-- What an event may have let go on: operations, held acknowledgements, and commands. -/
def State.settle (s : State) : State := s.pokeAll.runWaiting.runDrains.owedNotify

/-- A command that asks for an opcode's work runs it, if the handle's command has that opcode. -/
def State.runAs (s : State) (h : Handle) (ok : Nat → Bool) (f : State → Nat → State) : State :=
  match s.cmd? h.toNat with
  | some c => if ok (leAt c.desc 0 1) then f s h.toNat else s
  | none => s

-- The remote cutoff (04 R166, R181; 06 R252; 12 R450, R462; 09 R374)

/-- A wait that a lists' block did not answer, or that host accesses held, has reached the cutoff. -/
def State.cutWaits (s : State) (c : Cmd) : Option State :=
  let lists := s.fab.xchg.filter (fun x => x.handle == c.handle && (match x.kind with | .listRead _ => true | _ => false))
  match lists.map (fun x => x.dst) with
  | b :: bs => some ((s.freeDest c.handle sTimeout).endAt c.handle sTimeout (bs.foldl min b))
  | [] =>
    -- accesses to host memory wait while H1 is active: a missing reply (14 R535)
    if s.flag TT_LB_CTRL 1 && s.tu.waits.any (fun w => w.1 == c.handle) then some ((s.freeDest c.handle sTimeout).endAt c.handle sTimeout s.id) else none

/-- The cutoff of a command. -/
def State.cutCmd (s : State) (c : Cmd) : State :=
  let d := Desc.of c.desc
  if c.phase = .done ∨ c.phase = .accepted then s
  else if c.phase = .wantRecord then
    match (s.fab.xchg.filter (fun x => x.handle == c.handle && (match x.kind with | .record _ => true | _ => false))).map (fun x => x.dst) with
    | b :: bs => s.endAt c.handle sTimeout (bs.foldl min b)
    | [] => s
  else
    match s.cutWaits c with
    | some t => t
    | none =>
      if d.isRead then (s.cutGather c).runCmd c.handle
      else if d.isBack then s.cutScatter c d
      else if d.opc = oCommit then s.cutCommit c
      else if d.opc = oRowsWrite then s.cutRowsWrite c d
      else if d.opc = oRowsRead then (s.release c.handle).runCmd c.handle
      else if d.opc = oCheckpoint ∨ d.opc = oRestore then s.cutGroups c d
      else if d.opc = oLoopback then s.cutEcho c d
      else s.cutTable c d

-- Rings

def execDoorbellTailWrite (ring : Fin 64) (value : Word64) (t : Nat) (s : State) : Out :=
  .next (whenAlive s (fun s => (s.advance t).tailWrite ring value.toNat))

def execCqHeadWrite (ring : Fin 64) (value : Word64) (s : State) : Out :=
  .next (whenAlive s (fun s => s.cqHeadWrite ring value.toNat))

def execDescriptorAcceptance (ring : Fin 64) (t : Nat) (s : State) : Out :=
  .next (whenAlive s (fun s => (s.advance t).acceptNext ring))

/-- The record is written once the command is done (R107); what waited for the command goes on. -/
def execCompletionRecord (h : Handle) (t : Nat) (s : State) : Out :=
  .next (whenAlive s (fun s =>
    match s.cmd? h.toNat with
    | some c =>
      if c.phase = .done ∧ !s.ringHeld c.ring (s.reg (RF_CQ_BASE c.ring) + 32 * (c.cqStart % 2 ^ s.cqLog c.ring)) then
        ((s.advance t).writeCompletion c).settle
      else s
    | none => s))

def execNotifyHoldoffExpiry (ring : Fin 64) (t : Nat) (s : State) : Out :=
  .next (whenAlive s (fun s => (s.advance t).notifyDue ring))

-- Opcodes

def execNop (h : Handle) (s : State) : Out := .next (whenAlive s (fun s => s.runAs h (· == oNop) State.runNop))

def execLookup (h : Handle) (t : Nat) (s : State) : Out :=
  .next (whenAlive s (fun s => (s.advance t).runAs h (· == oLookup) State.runGather))

def execLookupPool (h : Handle) (t : Nat) (s : State) : Out :=
  .next (whenAlive s (fun s => (s.advance t).runAs h (· == oPool) State.runGather))

def execScatterAdd (h : Handle) (t : Nat) (s : State) : Out :=
  .next (whenAlive s (fun s => (s.advance t).runAs h (· == oScatter) State.runScatter))

def execPoolBackward (h : Handle) (t : Nat) (s : State) : Out :=
  .next (whenAlive s (fun s => (s.advance t).runAs h (· == oBackward) State.runScatter))

def execTableCreate (h : Handle) (t : Nat) (s : State) : Out :=
  .next (whenAlive s (fun s => (s.advance t).runAs h (· == oCreate) State.runTable))

def execTableDestroy (h : Handle) (t : Nat) (s : State) : Out :=
  .next (whenAlive s (fun s => (s.advance t).runAs h (· == oDestroy) State.runTable))

def execVersionPublish (h : Handle) (t : Nat) (s : State) : Out :=
  .next (whenAlive s (fun s => (s.advance t).runAs h (· == oPublish) State.runTable))

def execVersionSwitch (h : Handle) (t : Nat) (s : State) : Out :=
  .next (whenAlive s (fun s => (s.advance t).runAs h (· == oSwitch) State.runTable))

def execRowsWrite (h : Handle) (t : Nat) (s : State) : Out :=
  .next (whenAlive s (fun s => (s.advance t).runAs h (· == oRowsWrite) State.runRowsWrite))

def execRowsRead (h : Handle) (t : Nat) (s : State) : Out :=
  .next (whenAlive s (fun s => (s.advance t).runAs h (· == oRowsRead) State.runRowsRead))

def execMigrate (h : Handle) (t : Nat) (s : State) : Out :=
  .next (whenAlive s (fun s => (s.advance t).runAs h (· == oMigrate) State.runTable))

def execCheckpoint (h : Handle) (t : Nat) (s : State) : Out :=
  .next (whenAlive s (fun s => (s.advance t).runAs h (· == oCheckpoint) State.runCheckpoint))

def execRestore (h : Handle) (t : Nat) (s : State) : Out :=
  .next (whenAlive s (fun s => (s.advance t).runAs h (· == oRestore) State.runRestore))

def execFence (h : Handle) (s : State) : Out := .next (whenAlive s (fun s => s.runAs h (· == oFence) State.runFence))

def execFlushCache (h : Handle) (s : State) : Out := .next (whenAlive s (fun s => s.runAs h (· == oFlush) State.runFlush))

def execStats (h : Handle) (t : Nat) (s : State) : Out :=
  .next (whenAlive s (fun s => (s.advance t).runAs h (· == oStats) State.runStats))

def execCommitStep (h : Handle) (t : Nat) (s : State) : Out :=
  .next (whenAlive s (fun s => (s.advance t).runAs h (· == oCommit) State.runCommit))

def execAttest (h : Handle) (t : Nat) (s : State) : Out :=
  .next (whenAlive s (fun s => (s.advance t).runAs h (· == oAttest) State.runAttest))

def execLoopbackTest (h : Handle) (t : Nat) (s : State) : Out :=
  .next (whenAlive s (fun s => (s.advance t).runAs h (· == oLoopback) State.runLoopback))

def execDiagnostics (h : Handle) (s : State) : Out := .next (whenAlive s (fun s => s.runAs h isDiag State.runDiag))

/-- At the cutoff what is missing counts as missing; before it nothing happens. -/
def execRemoteCutoff (h : Handle) (t : Nat) (s : State) : Out :=
  .next (whenAlive s (fun s =>
    match s.cmd? h.toNat with
    | some c => if t < c.deadline then s else ((s.advance t).cutCmd c).sweepWaits.settle
    | none => s))

/-- A request that still waits on a shoot-down at the work deadline is a retryable fault there (11 R425). -/
def execShootDownWaitExpiry (h : Handle) (t : Nat) (s : State) : Out :=
  .next (whenAlive s (fun s =>
    match s.cmd? h.toNat with
    | some c =>
      if t < c.deadline ∨ !(s.tu.waits.any (fun w => w.1 == c.handle)) ∨ c.phase = .done then s
      else
        let s := ((s.advance t).upCmd c.handle (fun x => { x with expired := true })).bump TU_SD_EXPIRE 1
        (s.upTu (fun u => { u with waits := u.waits.filter (fun w => w.1 != c.handle) })).runCmd c.handle
    | none => s))

end Sys2Proof.Machine
end

