-- ==== Sys2Proof/Machine/Frames.lean ====
section
/-! DEFINITION. Frames, flows, timers and ports of the fabric (09 R328 to R333, R339 to R349, R352, R365 to R371). -/

namespace Sys2Proof.Machine

-- Checks on a received frame (R328 to R333, R339, R343, 01 R39)

/-- VLAN tags as R328 accepts them. -/
def State.vlanOk (s : State) (f : Frame) : Bool := if s.flag FP_CFG 3 then f.tags == [s.fld FP_CFG 4 12] else f.tags.isEmpty

/-- The Strait header keeps to its layout, version, type, destination and length (R339, R340, R343). -/
def State.headerOk (s : State) (f : Frame) (typ : Nat) : Bool :=
  let h := f.hdr
  h.length == 32 && bits (leAt h 0 1) 4 4 == 1 && bits (leAt h 0 1) 0 4 == typ && bits (leAt h 1 1) 3 5 == 0 &&
  leAt h 2 2 == f.payload.length && decide (f.payload.length ≤ s.maxPayload) && (typ == 1 || f.payload.isEmpty) &&
  !bit (leAt h 4 2) 15 &&
  (leAt h 6 2 == s.id || (s.flow? (leAt h 4 2) (leAt h 8 1)).any (fun x => typ != 4 && x.self == leAt h 6 2)) && decide (leAt h 8 1 < 4) && leAt h 9 1 == 0 && leAt h 24 8 == 0 &&
  s.routeBit (leAt h 4 2) 0

def frameSrc (f : Frame) : Nat := bits (leAt f.hdr 4 2) 0 15
def frameLane (f : Frame) : Nat := leAt f.hdr 8 1
def frameEpoch (f : Frame) : Nat := leAt f.hdr 10 2
def framePsn (f : Frame) : Nat := leAt f.hdr 12 4

/-- The packet number that a SecTAG stands for after `next` numbers: its upper half is recovered with XPN (R330). -/
def fullPn (xpn : Bool) (next pn : Nat) : Nat :=
  if !xpn then pn
  else next / 2 ^ 32 * 2 ^ 32 + pn + if decide (2 ^ 31 ≤ next % 2 ^ 32) && decide (pn < 2 ^ 31) then 2 ^ 32 else 0

/-- A receive association takes a frame: its SecTAG names it, its packet number is neither 0 nor a replay, and its ICV verifies (R330). -/
def State.rxTakes (s : State) (k : Nat) (f : Frame) (a : Sa) : Bool :=
  let pn := fullPn (s.flag (FP_PORT_CFG k) 3) a.pn f.pn
  a.port == k && a.rx && a.an == f.tci % 4 && decide (0 < pn ∧ a.pn ≤ pn) && f.icvOk

/-- The MACsec checks of a frame (R330). -/
def State.macsecOk (s : State) (k : Nat) (f : Frame) : Bool := f.tagOk && s.sec.sas.any (s.rxTakes k f)

/-- With a replay window of 0 the association takes no packet number below the next one any more (R330). -/
def State.tookPn (s : State) (k : Nat) (f : Frame) : State :=
  if s.flag (FP_PORT_CFG k) 2 then
    s.upSec (fun x => { x with sas := updFirst (s.rxTakes k f) (fun a => { a with pn := fullPn (s.flag (FP_PORT_CFG k) 3) a.pn f.pn + 1 }) x.sas })
  else s

/-- A frame arrives on a port: what the checks leave of it acts on its partner and lane. -/
def State.recvFrame (s : State) (k : Nat) (f : Frame) (typ : Nat) (act : State → Nat → Nat → State) : State :=
  if !s.linkUp k then s
  else
    let s := (s.upFab (fun x => { x with rxBytes := x.rxBytes + s.wireBytes k f.bytes.length })).bump (FP_PORT_CTR k 1) 1
    let v6 := s.flag FP_CFG 0
    if !v6 && f.dmac != s.baseMac + k then s
    else if s.flag (FP_PORT_CFG k) 2 && !s.macsecOk k f then s.bump (FP_PORT_CTR k 6) 1
    else
      let s := s.tookPn k f
      let discard := s.bump FP_DISCARD 1
      if !s.vlanOk f || f.sealed && !s.flag (FP_PORT_CFG k) 2 then discard
      else if v6 && (f.etype != 0x86DD || !f.ipOk || f.udpPort != s.fld FP_ETYPE 16 16) then discard
      else if v6 && f.dip6 != s.ip6 then s
      else if !v6 && f.etype != s.fld FP_ETYPE 0 16 then discard
      else if frameSrc f = s.id then (s.setFld CC_BLOCK_ID 16 1 1).bump FP_DUP_ID 1
      else if !s.headerOk f typ then discard
      else if typ != 4 && !((s.flow? (frameSrc f) (frameLane f)).any (fun x => x.epoch == frameEpoch f)) then discard
      else act s (frameSrc f) (frameLane f)

-- Acknowledgement and credit (R347 to R349)

/-- The flows of a lane that have something queued. -/
def State.waitingFlows (s : State) (l : Nat) : List Flow := s.fab.flows.filter (fun f => f.lane == l && !f.queue.isEmpty)

/-- Up to `n` frames of a lane leave a port, from its flows in their order (09 R338). -/
def State.pumpShare (s : State) (k l n : Nat) : State :=
  ((s.waitingFlows l).filter (fun f => f.port == some k)).foldl
    (fun t f => t.pumpFuel f.partner l false (n - (t.fab.egress.length - s.fab.egress.length))) s

/-- Rounds of three frames of lane 3 to one of lane 2 on each port, until a round sends nothing (09 R338). -/
def State.pumpRounds (s : State) : Nat → State
  | 0 => s
  | fuel + 1 =>
    let t := (upTo 8).foldl (fun s k => (s.pumpShare k 3 3).pumpShare k 2 1) s
    if t.fab.egress.length = s.fab.egress.length then t else t.pumpRounds fuel

/-- What the queues of all flows let leave: lane 0, then lane 1, then lanes 3 and 2 in rounds (09 R338). -/
def State.pumpAll (s : State) : State :=
  let s := [0, 1].foldl (fun s l => (s.waitingFlows l).foldl (fun s f => s.pump f.partner l false) s) s
  s.pumpRounds (sumOf (s.fab.flows.map (fun f => sumOf (f.queue.map (fun m => m.bytes.length + 1)))) + 1)

/-- The window after an acknowledgement: halved by ECE at most once per RTO_MIN, raised by progress (R349). -/
def State.ackWindow (s : State) (f : Flow) (ece moved : Bool) : Flow :=
  if !s.flag FP_CFG 2 then f
  else if ece then
    if s.ctl.now ≥ f.lastHalve + max 1 (s.fld FP_CFG 16 8) * us then { f with window := max 32 (f.window / 2), lastHalve := s.ctl.now } else f
  else if moved then { f with window := min (f.window + 32) (s.fld FP_BUF_CFG 16 16) }
  else f

/-- APSN and CLIMIT of a frame, when ACKV says that they are valid (R340, R348). -/
def State.takeAck (s : State) (p l : Nat) (h : List Byte) : State :=
  if !bit (leAt h 1 1) 0 then s
  else
    match s.flow? p l with
    | none => s
    | some f =>
      let delta := (leAt h 16 4 + 2 ^ 32 - f.acked % 2 ^ 32) % 2 ^ 32
      let moved := decide (0 < delta ∧ delta ≤ f.psn - f.acked)
      let acked := if moved then f.acked + delta else f.acked
      let dl := (leAt h 20 4 + 2 ^ 32 - f.climit % 2 ^ 32) % 2 ^ 32
      let g := s.ackWindow f (bit (leAt h 1 1) 1) moved
      let g := { g with
        acked := acked, unacked := f.unacked.filter (fun x => decide (x.psn ≥ acked))
        live := f.live.filter (fun m => m.2.2 == 0 || decide (m.2.2 > acked))
        climit := if dl < 2 ^ 31 then f.climit + dl else f.climit
        timeouts := if moved then 0 else f.timeouts }
      (((s.upFlow p l (fun _ => g)).pumpAll).runDrains).unstall

/-- A separate acknowledgement (R348). -/
def State.sendAck (s : State) (p l : Nat) : State :=
  match s.flow? p l with
  | none => s
  | some f => if s.heldBack f then s else (s.sendFrame f 2 0 f.psn []).upFlow p l Flow.acked!

/-- The timeout of a flow: RTO_MIN, doubled with each consecutive timeout, up to 1 ms (R348). -/
def State.rto (s : State) (f : Flow) : Nat := min (max 1 (s.fld FP_CFG 16 8) * us * 2 ^ f.timeouts) ms

def State.retryMax (s : State) : Nat := max 1 (s.fld FP_CFG 24 4)

-- Fragments (R342, R352)

/-- A fragment: message, offset, SOM, EOM, bytes. -/
abbrev Frag := Nat × Nat × Bool × Bool × List Byte

/-- The fragments of a payload; none for the rest of one that breaks the layout. Fuel bounds their number. -/
def fragments : Nat → List Byte → List (Option Frag)
  | 0, _ => []
  | _ + 1, [] => []
  | fuel + 1, bs =>
    let n := leAt bs 8 2
    if bs.length < 12 ∨ n = 0 ∨ bs.length < 12 + n ∨ bits (leAt bs 4 4) 17 15 ≠ 0 ∨ bits (leAt bs 10 1) 2 6 ≠ 0 ∨ leAt bs 11 1 ≠ 0 then
      [none]
    else
      some (leAt bs 0 4, bits (leAt bs 4 4) 0 17, bit (leAt bs 10 1) 0, bit (leAt bs 10 1) 1, (bs.drop 12).take n) ::
        fragments fuel (bs.drop (12 + n))

/-- Message types of R351. -/
def knownType (t : Nat) : Bool :=
  let r := t % 128
  [1, 2, 3, 7, 9, 10, 11].contains r || t == 6 || (decide (0x10 ≤ r ∧ r ≤ 0x3F))

/-- A Table Keeper message of a block of another firmware line (13 R510); the running image's header names this block's own line. -/
def State.otherLine (s : State) (bs : List Byte) : Bool :=
  decide (0x10 ≤ mType bs % 128) && Config.tkLine bs != leAt s.sec.header 6 1

/-- A whole message is delivered, or discarded for its length, its type or its firmware line (R351, R352, 13 R510). -/
def State.deliverMsg (s : State) (p l : Nat) (bs : List Byte) : State :=
  if bs.length < 16 ∨ mLen bs ≠ bs.length ∨ bs.length > 65536 ∨ !knownType (mType bs) ∨ s.otherLine bs then s.bump FP_DISCARD 1
  else s.upFab (fun f => { f with inbox := f.inbox ++ [{ src := p, lane := l, bytes := bs }] })

/-- One fragment joins its message. A message that broke the rules is kept empty until its end, and counted once. -/
def State.takeFrag (s : State) (p l : Nat) (x : Option Frag) : State :=
  match x, s.flow? p l with
  | some (id, off, som, eom, bs), some f =>
    let old := lookupBy id f.partials
    let put := fun (s : State) (o : Option (List Byte)) => s.upFlow p l (fun f => { f with partials := (match o with
      | some b => insertBy id b f.partials
      | none => eraseBy id f.partials) })
    let bad := fun (s : State) => if eom then put s none else put s (some [])
    match old with
    | some [] => if eom then put s none else s
    | some had =>
      if som || off != had.length then bad (s.bump FP_DISCARD 1)
      else if eom then (put s none).deliverMsg p l (had ++ bs)
      else put s (some (had ++ bs))
    | none =>
      if !som || off != 0 then bad (s.bump FP_DISCARD 1)
      else if eom then s.deliverMsg p l bs
      else put s (some bs)
  | none, _ => s.bump FP_DISCARD 1
  | _, none => s

-- Frame types (R341, R346)

/-- Units granted to a flow and not consumed. -/
def Flow.granted (f : Flow) : Nat := f.rxLimit - (f.rxUnits - f.rxHeld)

/-- Units that a flow may have granted: INIT_CREDIT in any case, and from the receive buffer what other flows leave, up to MAX_CREDIT
(R347; that a receiver grants all it can: DESIGN CHOICE, log 116). -/
def State.grantFor (s : State) (f : Flow) : Nat :=
  let others := sumOf ((s.fab.flows.filter (fun g => !(g.partner == f.partner && g.lane == f.lane))).map Flow.granted)
  max (s.fld FP_BUF_CFG 0 16) (min (s.fld FP_BUF_CFG 16 16) (s.fld FP_BUF_CFG 32 12 * 4096 - others))

/-- A frame of a cost has been taken apart: whole messages are consumed, and CLIMIT rises (R347). A frame that ends one message and
leaves another unfinished is held for the latter (log 116). -/
def State.credit (s : State) (p l cost : Nat) (ended : Bool) : State :=
  match s.flow? p l with
  | none => s
  | some w =>
    let held := if w.partials.isEmpty then 0 else if ended then cost else w.rxHeld + cost
    s.upFlow p l (fun w => { w with rxHeld := held, rxLimit := max w.rxLimit (w.rxUnits - held + s.grantFor w) })

/-- DATA (R346, R348, R349). -/
def State.recvData (s : State) (f : Frame) (p l : Nat) : State :=
  let s := s.takeAck p l f.hdr
  match s.flow? p l with
  | none => s
  | some w =>
    if w.st == .opening then s
    else
      let s := s.upFlow p l (fun w => { w with st := .open_, lastUse := s.ctl.now, ece := w.ece || (s.flag FP_CFG 0 && s.flag FP_CFG 2 && f.ce) })
      let ahead := (framePsn f + 2 ^ 32 - w.rxPsn % 2 ^ 32) % 2 ^ 32
      if ahead = 0 then
        let fs := fragments (f.payload.length + 1) f.payload
        let cost := frameCost f.payload.length
        let s := s.upFlow p l (fun w => { w with
          rxPsn := w.rxPsn + 1, rxUnits := w.rxUnits + cost, nakAt := none
          sinceAck := w.sinceAck + 1, oldestRx := if w.sinceAck = 0 then s.ctl.now else w.oldestRx })
        let s := fs.foldl (fun s x => s.takeFrag p l x) s
        let eom := fs.any (fun x => x.any (fun y => y.2.2.2.1))
        let s := s.credit p l cost eom
        let n := ((s.flow? p l).map (fun w => w.sinceAck)).getD 0
        if (eom && l ≤ 1) || decide (n ≥ max 1 (s.fld FP_CFG 52 4)) then s.sendAck p l else s
      else if ahead ≥ 2 ^ 31 then s.sendAck p l
      else if w.nakAt.all (fun t => decide (s.ctl.now ≥ t + s.rto w)) && !s.heldBack w then
        (s.sendFrame w 3 0 w.psn []).upFlow p l (fun w => { w.acked! with nakAt := some s.ctl.now })
      else s

/-- ACK: acknowledgement and credit. -/
def State.recvAck (s : State) (f : Frame) (p l : Nat) : State := s.takeAck p l f.hdr

/-- NAK: every unacknowledged frame from APSN is sent again (R348). -/
def State.recvNak (s : State) (f : Frame) (p l : Nat) : State := (s.takeAck p l f.hdr).resendFlow p l

/-- Partial messages of a flow are released and counted (R352). -/
def State.dropPartials (s : State) (p l : Nat) : State :=
  match s.flow? p l with
  | none => s
  | some f => (s.bump FP_PARTIAL_DROP f.partials.length).upFlow p l (fun f => { f with partials := [] })

/-- Updates that a block has not acknowledged and no flow carries are sent again when a flow to it opens (12 R451). -/
def State.resendUpdates (s : State) (p : Nat) : State :=
  let carried := ((s.fab.flows.filter (fun f => f.partner == p)).map (fun f => f.live.map (fun m => m.2.1))).flatten
  (s.fab.xchg.filter (fun x => x.dst == p && x.kind == .update && !carried.contains x.msg)).foldl (fun s x => s.send p x.lane x.msg) s

/-- The partner answers again (R370). -/
def State.clearDown (s : State) (p : Nat) : State := if s.routeBit p 2 then s.setRouteBit p 2 false else s

/-- A flow restarts in an epoch with its unacknowledged messages, at PSN 0 and message 0 (R345, R346). -/
def State.restartFlow (s : State) (f : Flow) (epoch : Nat) : State :=
  let s := s.dropPartials f.partner f.lane
  let s := s.setFlows (s.fab.flows.filter (fun x => !(x.partner == f.partner && x.lane == f.lane)))
  let g := f.live.foldl (fun (g : Flow) m => g.enqueue m.2.1) (s.newFlow f.partner f.lane epoch .open_)
  s.setFlows (s.fab.flows ++ [g])

/-- OPEN_ACK leaves on a flow, and what its queue holds follows. -/
def State.ackOpen (s : State) (f : Frame) (p l : Nat) : State :=
  match s.flow? p l with
  | none => s
  | some w => ((((s.sendFrame w 5 0 w.psn []).takeAck p l f.hdr).pump p l false).resendUpdates p).unstall

/-- OPEN (R345, R346, R370). -/
def State.recvOpen (s : State) (f : Frame) (p l : Nat) : State :=
  if !s.valid then s
  else
    let s := s.clearDown p
    match s.flow? p l with
    | none =>
      (match s.roomForFlow with
       | none => s
       | some s => (s.setFlows (s.fab.flows ++ [s.newFlow p l (frameEpoch f) .open_])).ackOpen f p l)
    | some w =>
      if w.st == .opening then (if p < s.id then (s.restartFlow w (frameEpoch f)).ackOpen f p l else s)
      else if w.epoch = frameEpoch f then s.ackOpen f p l
      else (s.restartFlow w (frameEpoch f)).ackOpen f p l

/-- OPEN_ACK of the epoch sent: the flow is open and its queue leaves; a flow that probed takes the port that answered (R370). -/
def State.recvOpenAck (s : State) (k : Nat) (f : Frame) (p l : Nat) : State :=
  match s.flow? p l with
  | none => s
  | some w =>
    if w.st != .opening then s
    else
      let down := s.routeBit p 2
      let s := (s.clearDown p).upFlow p l (fun w => { w with
        st := .open_, timeouts := 0, port := if down then some k else w.port, lastUse := s.ctl.now })
      ((s.takeAck p l f.hdr).pump p l false).resendUpdates p

/-- A flow's entry is released, and a message that waited for one goes on. -/
def State.releaseFlow (s : State) (p l : Nat) : State :=
  let s := s.dropPartials p l
  (s.setFlows (s.fab.flows.filter (fun f => !(f.partner == p && f.lane == l)))).unstall

/-- CLOSE (R346). -/
def State.recvClose (s : State) (f : Frame) (p l : Nat) : State :=
  let s := s.takeAck p l f.hdr
  match s.flow? p l with
  | none => s
  | some w =>
    if w.st == .opening || !w.unacked.isEmpty || !w.queue.isEmpty || s.heldBack w then s
    else (s.sendFrame w 7 0 w.psn []).releaseFlow p l

/-- CLOSE_ACK (R346). -/
def State.recvCloseAck (s : State) (p l : Nat) : State :=
  if (s.flow? p l).any (fun w => w.st == .closing) then s.releaseFlow p l else s

-- Timers (R346, R348, R365, R370)

/-- The oldest unacknowledged frame has waited for the timeout. -/
def State.rtoDue (s : State) (f : Flow) : Bool :=
  if f.st == .opening then decide (s.ctl.now ≥ f.lastUse + s.rto f)
  else match f.unacked with
    | x :: _ => decide (s.ctl.now ≥ x.sent + s.rto f)
    | [] => false

/-- A retransmission timeout; the one that reaches RETRY_MAX leaves the resend to the next port. -/
def State.rtoExpired (s : State) (p l : Nat) : State :=
  match s.flow? p l with
  | none => s
  | some f =>
    if !s.rtoDue f then s
    else
      let s := s.upFlow p l (fun f => { f with timeouts := f.timeouts + 1, lastUse := if f.st == .opening then s.ctl.now else f.lastUse })
      if f.timeouts + 1 ≥ s.retryMax then s else s.resendFlow p l

/-- The port has failed for a partner: its flows move, or the partner is DOWN (R348, R369). -/
def State.portFailed (s : State) (p l : Nat) : State :=
  match s.flow? p l with
  | none => s
  | some f =>
    if f.timeouts < s.retryMax then s
    else
      let bad := match f.port with
        | some k => addOnce k f.badPorts
        | none => f.badPorts
      let s := s.upFab (fun x => { x with flows := x.flows.map (fun g => if g.partner == p then { g with badPorts := bad } else g) })
      if (s.usable p bad).isEmpty then
        let s := (upTo 4).foldl (fun s l => s.dropPartials p l) s
        (s.peerDown p).sweepWaits.settle
      else (s.fab.flows.filter (fun g => g.partner == p && g.port == f.port)).foldl (fun s g => s.moveFlow p g.lane) s

/-- OPEN on lane 0 to a DOWN partner, on each usable port, under one new epoch (R370). -/
def State.reprobe (s : State) (p : Nat) : State :=
  if !s.valid || !s.routeBit p 2 || s.routeBit p 3 || !s.routeBit p 0 then s
  else
    let s := s.setFlows (s.fab.flows.filter (fun f => !(f.partner == p && f.lane == 0)))
    match s.roomForFlow with
    | none => s
    | some s =>
      let e := s.fab.epoch
      let f := s.newFlow p 0 e .opening
      let s := (s.upFab (fun x => { x with epoch := (x.epoch + 1) % 65536 })).setFlows (s.fab.flows ++ [f])
      (s.usable p []).foldl (fun s k => s.sendFrame { f with port := some k } 4 0 0 []) s

-- Priority flow control (R329)

/-- A quantum is 512 bit times at 400 Gb/s, in ps. -/
def pfcQuantum : Nat := 1280

/-- A PFC frame pauses, or releases, the priorities that it names and that PFC_EN enables. -/
def State.recvPfc (s : State) (k : Nat) (prios : Nat) (quanta : List Nat) : State :=
  if !s.linkUp k then s
  else
    let s := (upTo 8).foldl (fun s p =>
      let ignored := s.fab.ignorePause.any (fun x => x.1 == k && x.2.1 == p && decide (s.ctl.now < x.2.2))
      if !bit prios p || !s.flag FP_LANE_CFG (12 + p) || ignored then s
      else
        let old := s.fab.pauses.find? (fun x => x.1 == k && x.2.1 == p && decide (x.2.2.1 > s.ctl.now))
        let rest := s.fab.pauses.filter (fun x => !(x.1 == k && x.2.1 == p))
        let q := min ((quanta[p]?).getD 0) 65535
        let start := (old.map (fun x => x.2.2.2)).getD s.ctl.now
        let new := if q = 0 then [] else [(k, p, s.ctl.now + q * pfcQuantum, start)]
        s.upFab (fun f => { f with pauses := rest ++ new })) s
    s.pumpAll

/-- A priority paused for longer than PFC_WD ms is released and ignored for as long. -/
def State.pfcExpired (s : State) (k p : Nat) : State :=
  let wd := s.fld FP_LANE_CFG 20 8 * ms
  match s.fab.pauses.find? (fun x => x.1 == k && x.2.1 == p) with
  | none => s
  | some x =>
    if wd = 0 ∨ x.2.2.1 ≤ s.ctl.now ∨ s.ctl.now < x.2.2.2 + wd then s
    else
      let s := s.upFab (fun f => { f with
        pauses := f.pauses.filter (fun y => !(y.1 == k && y.2.1 == p))
        ignorePause := f.ignorePause.filter (fun y => !(y.1 == k && y.2.1 == p)) ++ [(k, p, s.ctl.now + wd)] })
      (s.setFld (FP_PORT_STATUS k) 5 1 1).pumpAll

-- Commands

def execData (port : Fin 8) (f : Frame) (t : Nat) (s : State) : Out :=
  .next (whenAlive s (fun s => (s.advance t).recvFrame port f 1 (fun s p l => s.recvData f p l)))

def execAck (port : Fin 8) (f : Frame) (t : Nat) (s : State) : Out :=
  .next (whenAlive s (fun s => (s.advance t).recvFrame port f 2 (fun s p l => s.recvAck f p l)))

def execNak (port : Fin 8) (f : Frame) (t : Nat) (s : State) : Out :=
  .next (whenAlive s (fun s => (s.advance t).recvFrame port f 3 (fun s p l => s.recvNak f p l)))

def execOpenFrame (port : Fin 8) (f : Frame) (t : Nat) (s : State) : Out :=
  .next (whenAlive s (fun s => (s.advance t).recvFrame port f 4 (fun s p l => s.recvOpen f p l)))

/-- OPEN_ACK for a flow that the fatal stop opened: its messages leave, and it closes without CLOSE (14 R520). -/
def State.stopReport (s : State) (f : Frame) (p l : Nat) : State :=
  let s := (((s.upFlow p l (fun f => { f with st := .open_ })).takeAck p l f.hdr).pump p l true)
  s.setFlows (s.fab.flows.filter (fun f => !(f.partner == p && f.lane == l)))

/-- OPEN_ACK. A stopped block takes it while its stop lasts, at most 20 µs, and then discards it (14 R520). -/
def execOpenAck (port : Fin 8) (f : Frame) (t : Nat) (s : State) : Out :=
  .next (
    if s.alive then (s.advance t).recvFrame port f 5 (fun s p l => s.recvOpenAck port f p l)
    else if s.ctl.life == .stopped && decide (t ≤ s.ctl.stopAt + 20 * us) then
      (s.advance t).recvFrame port f 5 (fun s p l => s.stopReport f p l)
    else s)

def execClose (port : Fin 8) (f : Frame) (t : Nat) (s : State) : Out :=
  .next (whenAlive s (fun s => (s.advance t).recvFrame port f 6 (fun s p l => s.recvClose f p l)))

def execCloseAck (port : Fin 8) (f : Frame) (t : Nat) (s : State) : Out :=
  .next (whenAlive s (fun s => (s.advance t).recvFrame port f 7 (fun s p l => s.recvCloseAck p l)))

def execRtoExpiry (partner : BitVec 15) (lane : Fin 4) (t : Nat) (s : State) : Out :=
  .next (whenAlive s (fun s => ((s.advance t).rtoExpired partner.toNat lane).sweepWaits))

def execRetryMaxReached (partner : BitVec 15) (lane : Fin 4) (t : Nat) (s : State) : Out :=
  .next (whenAlive s (fun s => (s.advance t).portFailed partner.toNat lane))

/-- ACK_DELAY × 100 ns after the oldest unacknowledged DATA frame (R348). -/
def execAckDelayExpiry (partner : BitVec 15) (lane : Fin 4) (t : Nat) (s : State) : Out :=
  .next (whenAlive s (fun s =>
    let s := s.advance t
    match s.flow? partner.toNat lane with
    | none => s
    | some f => if f.sinceAck = 0 ∨ s.ctl.now < f.oldestRx + s.fld FP_CFG 44 8 * 100 * ns then s else s.sendAck partner.toNat lane))

/-- A flow idle for IDLE_CLOSE ms sends CLOSE (R346). -/
def execIdleCloseExpiry (partner : BitVec 15) (lane : Fin 4) (t : Nat) (s : State) : Out :=
  .next (whenAlive s (fun s =>
    let s := s.advance t
    match s.flow? partner.toNat lane with
    | none => s
    | some f =>
      if f.st != .open_ || !f.unacked.isEmpty || !f.queue.isEmpty || s.heldBack f || decide (s.ctl.now < f.lastUse + s.fld FP_CFG 28 8 * ms) then s
      else (s.sendFrame f 6 0 f.psn []).upFlow partner.toNat lane (fun f => { f with st := .closing })))

def execReprobeExpiry (partner : BitVec 15) (t : Nat) (s : State) : Out :=
  .next (whenAlive s (fun s => (s.advance t).reprobe partner.toNat))

/-- A partly filled frame of lane 2 or 3 leaves (R365). -/
def execCoalesceExpiry (partner : BitVec 15) (lane : Fin 4) (t : Nat) (s : State) : Out :=
  .next (whenAlive s (fun s => (s.advance t).pump partner.toNat lane true))

def execPfcFrame (port : Fin 8) (prios : BitVec 8) (quanta : List Nat) (t : Nat) (s : State) : Out :=
  .next (whenAlive s (fun s => (s.advance t).recvPfc port prios.toNat quanta))

def execPfcWatchdogExpiry (port : Fin 8) (prio : Fin 8) (t : Nat) (s : State) : Out :=
  .next (whenAlive s (fun s => (s.advance t).pfcExpired port prio))

/-- A port without packet numbers leaves service with CAUSE KEY (R330). -/
def execPacketNumberExhausted (port : Fin 8) (t : Nat) (s : State) : Out :=
  .next (whenAlive s (fun s => let s := s.advance t; if s.pnExhausted port then s.portLeaves port 8 false else s))

/-- The steps of R366 have passed. A port that a loop-back holds, that has no key, or that waits after CAUSE FEC stays out. -/
def execPortLinkUp (port : Fin 8) (s : State) : Out :=
  .next (whenAlive s (fun s =>
    if s.lbHolds port || s.fld (FP_PORT_STATUS port) 1 4 == 8 || s.fab.fecHold.contains port.val then s else s.portEnters port))

def execPortAlignTimeout (port : Fin 8) (t : Nat) (s : State) : Out :=
  .next (whenAlive s (fun s => if s.linkUp port || s.lbHolds port || s.fld (FP_PORT_STATUS port) 1 4 == 8 then s else (s.advance t).portLeaves port 2 false))

/-- The link is lost: no signal, a local or a remote fault (R367, R368). -/
def execPortLinkDown (port : Fin 8) (cause : BitVec 4) (t : Nat) (s : State) : Out :=
  .next (whenAlive s (fun s =>
    if s.lbHolds port || s.fld (FP_PORT_STATUS port) 1 4 == 8 || !([1, 4, 5].contains cause.toNat) then s else (s.advance t).portLeaves port cause.toNat true))

/-- FEC_THRESH uncorrectable codewords within one second (R367). -/
def execFecThresholdReached (port : Fin 8) (t : Nat) (s : State) : Out :=
  .next (whenAlive s (fun s =>
    if !s.linkUp port then s
    else ((s.advance t).portLeaves port 3 true).upFab (fun f => { f with fecHold := addOnce port.val f.fecHold })))

/-- One second after CAUSE FEC the port begins bring-up again (R367). -/
def execFecRetryHoldoffExpiry (port : Fin 8) (s : State) : Out :=
  .next (whenAlive s (fun s => s.upFab (fun f => { f with fecHold := f.fecHold.filter (· != port.val) })))

def execLoopbackAckTimeout (port : Fin 8) (s : State) : Out := .next (whenAlive s (fun s => s.lbNoAck port))

end Sys2Proof.Machine
end

