-- ==== Sys2Proof/Machine/Msgs.lean ====
section
/-! DEFINITION. Messages of Strait but for register access (09 R351 to R364, R374; 03 R148, R149; 11 R409, R410), and the Table Keeper's
messages and events as commands (12 R463 to R482). -/

namespace Sys2Proof.Machine

/-- A received message of a type acts in its turn, and leaves the inbox; a request from a block held FAILED is only answered (12 R473). -/
def State.onMsg (s : State) (src : Nat) (msg : List Byte) (mtype : Nat) (f : State → Nat → State) : State :=
  if mType msg ≠ mtype ∨ !s.inTurn src msg then s
  else
    let lane := s.laneOf src msg 0
    (if mtype < 0x80 then s.unlessFailed src lane mtype (mHandle msg) (mXid msg) (fun s => f s lane) else f s lane).take src msg

-- Remote doorbells (03 R148, R149; 09 R360)

/-- A DOORBELL: the slots from the present tail up to TAIL, from REQ_BLOCK. -/
def State.recvDoorbell (s : State) (src : Nat) (msg : List Byte) : State :=
  let n := leAt msg 16 1
  let tail := leAt msg 20 4
  let first := leAt msg 24 4
  let k := leAt msg 28 2
  let m := 2 ^ (s.sqLog n + 1)
  let r := s.ring n
  if n ≥ 64 then s
  else if s.ringState n = 1 ∧ s.remoteRing n ∧ s.reqBlock n = src ∧ first = r.tail % 2 ^ s.sqLog n ∧ k ≤ 511 ∧
      msg.length = 32 + 128 * k ∧ s.tailOk n tail ∧ tail = (r.tail + k) % m then
    let slots := (List.range k).map (fun i => ((r.tail + i) % m, (msg.drop (32 + 128 * i)).take 128))
    s.upRing n (fun r => if k = 0 then r else { r with tail := tail, slots := r.slots ++ slots, bells := r.bells ++ [(tail, s.ctl.now)] })
  else s.dbErr n

-- Memory reads and writes (R362 to R364)

/-- An access of a MEM_READ or MEM_WRITE: its address is checked first (01 R34), then windows and contexts of this block decide; the Table
Keeper's own staged lists are read without a window. The address is matched with the block's present ID, also on a flow that is open under
an earlier one (DESIGN CHOICE, log 100). -/
def State.memReach (s : State) (a ctx n : Nat) (write : Bool) : State × Reach :=
  let staged := !write && gTier a == 0 && s.fab.stage.any (fun x => decide (x.2.1 ≤ gOff a ∧ gOff a + n ≤ x.2.1 + x.2.2))
  if gBlock a ≠ s.id then (s, .stop sTransFault)
  else if !s.addressOk a n then (s.bump TU_FAULT 1, .stop sTransFault)
  else if ctx = 0 then ((s.deny).bump TU_FAULT 1, .stop sDenied)
  else if staged then (s, .here 0 (gOff a))
  else s.reachGlobal ctx a n write

/-- MEM_READ: the data, or the status that stopped it. -/
def State.recvMemRead (s : State) (src lane : Nat) (msg : List Byte) : State :=
  let a := leAt msg 16 8
  let n := leAt msg 24 4
  let fail := fun (s : State) (st : Nat) => s.memReply src lane msg st
  if n > 65504 then fail s sTransFault
  else
    let r := s.memReach a (leAt msg 28 2) n false
    match r.2 with
    | .here 3 off => r.1.serveHost src lane msg (fun s h => s.hostCached (leAt msg 28 2) off n none h)
    | .here t off =>
      let s := r.1.mdRead a n
      if !s.tierReadOk t off n then fail s sUncorr else s.memReply src lane msg sOk
    | .stop st => fail r.1 st
    | _ => fail r.1 sTransFault

/-- MEM_READ_REPLY: data of a command's lists or buffers, or of an extension list. -/
def State.recvMemReply (s : State) (src : Nat) (msg : List Byte) : State :=
  match s.xchg? src (mXid msg) with
  | none => s
  | some x =>
    let st := mStatus msg
    let data := msg.drop 32
    match x.kind with
    | .listRead a =>
      let s := s.dropXchg x.xid
      let s := if st = sOk then s.upCmd x.handle (fun c => { c with fetched := insertBy a data c.fetched })
        else if st = sUnreach then (s.freeDest x.handle st).endAt x.handle st src
        else (s.freeDest x.handle st).endFault x.handle st a
      s.runCmd x.handle
    | .slotRead n idx =>
      let s := s.dropXchg x.xid
      if st = sOk ∨ st = sUncorr then
        s.upRing n (fun r => { r with slots := r.slots ++ [(idx, if st = sOk then fitTo 128 data else [])] })
      else (s.faultRing n).settle
    | .extRead id a =>
      let s := s.dropXchg x.xid
      (if st = sOk then s.extArrived id a data
       else
         match s.tab.served.find? (fun v => v.id == id) with
         | none => s
         | some v => (s.upTab (fun t => { t with served := t.served.filter (fun y => y.id != id) })).answer v.src v.lane v.msg st [])
    | _ => s

/-- MEM_WRITE: the data is written here before it is acknowledged. -/
def State.recvMemWrite (s : State) (src lane : Nat) (msg : List Byte) : State :=
  let a := leAt msg 16 8
  let n := leAt msg 24 4
  let ctx := leAt msg 28 2
  let ack := fun (s : State) (st : Nat) => s.answer src lane msg st []
  if n > 65504 ∨ msg.length ≠ 32 + n then ack s sTransFault
  else
    let r := s.memReach a ctx n true
    match r.2 with
    | .here 3 off => r.1.serveHost src lane msg (fun s h => s.hostWrite ctx off (msg.drop 32) none h)
    | .here t off => ack (r.1.putData (memKey t off) (msg.drop 32)) 0
    | .stop st => ack r.1 st
    | _ => ack r.1 sTransFault

/-- An access that this block holds back for now: its message stays where it is. -/
def State.memHeld (s : State) (msg : List Byte) (write : Bool) : Bool :=
  match (s.memReach (leAt msg 16 8) (leAt msg 28 2) (leAt msg 24 4) write).2 with
  | .held => true
  | _ => false

/-- MEM_WRITE_ACK (R364). -/
def State.recvMemAck (s : State) (src : Nat) (msg : List Byte) : State :=
  match s.xchg? src (mXid msg) with
  | none => s
  | some x =>
    let st := mStatus msg
    let s := (if st = sOk then s else s.bump FP_MEMW_FAIL 1)
    match x.kind with
    | .ringWrite n => let s := s.dropXchg x.xid; if st = sOk then s else (s.faultRing n).settle
    | .imageWrite => let s := s.dropXchg x.xid; (if st = sOk then s else s.endWith x.handle st).runCmd x.handle
    | .extRead id _ => ((s.noteImage id st).dropXchg x.xid).closeImage id
    | .update => s.dropXchg x.xid
    | _ => s

-- Commands: messages

def execReadReq (src : BitVec 15) (msg : List Byte) (t : Nat) (s : State) : Out :=
  .next (whenAlive s (fun s => (s.advance t).onMsg src.toNat msg 0x01 (fun s _ => s.serveBundle src.toNat false msg)))

def execPoolReq (src : BitVec 15) (msg : List Byte) (t : Nat) (s : State) : Out :=
  .next (whenAlive s (fun s => (s.advance t).onMsg src.toNat msg 0x02 (fun s _ => s.serveBundle src.toNat true msg)))

def execReadReply (src : BitVec 15) (msg : List Byte) (t : Nat) (s : State) : Out :=
  .next (whenAlive s (fun s => (s.advance t).onMsg src.toNat msg 0x81 (fun s _ =>
    let r := s.gatherReply src.toNat false msg
    r.1.resume r.2)))

def execPoolReply (src : BitVec 15) (msg : List Byte) (t : Nat) (s : State) : Out :=
  .next (whenAlive s (fun s => (s.advance t).onMsg src.toNat msg 0x82 (fun s _ =>
    let r := s.gatherReply src.toNat true msg
    r.1.resume r.2)))

def execAdd (src : BitVec 15) (msg : List Byte) (t : Nat) (s : State) : Out :=
  .next (whenAlive s (fun s => (s.advance t).onMsg src.toNat msg 0x03 (fun s lane => (s.recvAdd src.toNat lane msg).sweepWaits)))

def execAddAck (src : BitVec 15) (msg : List Byte) (t : Nat) (s : State) : Out :=
  .next (whenAlive s (fun s => (s.advance t).onMsg src.toNat msg 0x83 (fun s _ => (s.recvAddAck src.toNat msg).settle)))

/-- Identifiers stay in the recent-add log for 2 s (06 R236). -/
def execRecentAddLogExpiry (t : Nat) (s : State) : Out :=
  .next (whenAlive s (fun s =>
    let s := s.advance t
    (s.upTab (fun x => { x with recent := x.recent.filter (fun e => decide (s.ctl.now < e.2.2.2 + 2 * Sys2Proof.sec)) })).sweepWaits))

def execRemoteDoorbell (src : BitVec 15) (msg : List Byte) (t : Nat) (s : State) : Out :=
  .next (whenAlive s (fun s => (s.advance t).onMsg src.toNat msg 0x06 (fun s _ => s.recvDoorbell src.toNat msg)))

/-- This block sends no REG message, so no reply to one is awaited (R353). -/
def execRegReply (src : BitVec 15) (msg : List Byte) (s : State) : Out :=
  .next (whenAlive s (fun s => s.onMsg src.toNat msg 0x87 (fun s _ => s)))

def execMemRead (src : BitVec 15) (msg : List Byte) (s : State) : Out :=
  .next (whenAlive s (fun s => if s.inTurn src.toNat msg && s.memHeld msg false then s else s.onMsg src.toNat msg 0x09 (fun s lane => s.recvMemRead src.toNat lane msg)))

def execMemReadReply (src : BitVec 15) (msg : List Byte) (t : Nat) (s : State) : Out :=
  .next (whenAlive s (fun s => (s.advance t).onMsg src.toNat msg 0x89 (fun s _ => s.recvMemReply src.toNat msg)))

def execMemWrite (src : BitVec 15) (msg : List Byte) (s : State) : Out :=
  .next (whenAlive s (fun s => if s.inTurn src.toNat msg && s.memHeld msg true then s else s.onMsg src.toNat msg 0x0A (fun s lane => s.recvMemWrite src.toNat lane msg)))

def execMemWriteAck (src : BitVec 15) (msg : List Byte) (s : State) : Out :=
  .next (whenAlive s (fun s => s.onMsg src.toNat msg 0x8A (fun s _ => s.recvMemAck src.toNat msg)))

/-- ECHO: returned unchanged to a source of level 1 or more (R374). -/
def execEcho (src : BitVec 15) (msg : List Byte) (s : State) : Out :=
  .next (whenAlive s (fun s => s.onMsg src.toNat msg 0x0B (fun s lane =>
    if s.raLevel src.toNat = 0 then s else s.answer src.toNat lane msg 0 (msg.drop 16))))

def execEchoReply (src : BitVec 15) (msg : List Byte) (t : Nat) (s : State) : Out :=
  .next (whenAlive s (fun s => (s.advance t).onMsg src.toNat msg 0x8B (fun s _ =>
    match s.xchg? src.toNat (mXid msg) with
    | none => s
    | some x => match x.kind with
      | .echo off => s.echoBack x off (msg.drop 16)
      | _ => s)))

-- Commands: the Table Keeper

/-- A registry message: CLAIM, RECORD_FETCH and UPDATE carry the records that the registry keeps (12 R446, R481). -/
def registryCode (mtype : Nat) : Bool := mtype == 0x10 || mtype == 0x11 || mtype == 0x12

/-- A registry message of a block whose list differs is refused, and REG_ERR is set (12 R446). -/
def State.checkList (s : State) (h : TkHdr) (b : TkBody) (f : State → State) : State :=
  if registryCode (tkCode b).1 && h.list != s.registryList then
    (s.setFld TK_STATUS 3 1 1).answerTk h b sUnreach (.status sUnreach 0xFFFF)
  else f s

/-- A Table Keeper request acts in its turn, and leaves the inbox. -/
def State.onTk (s : State) (h : TkHdr) (b : TkBody) (f : State → State) : State :=
  let msg := mkMsg (tkCode b).1 0 h.handle h.xid (Config.tkEncode h.list b)
  if s.inTurn h.src msg then (s.unlessFailedTk h (tkCode b).1 (fun s => s.checkList h b f)).take h.src msg else s

def execClaim (hdr : TkHdr) (body : TkBody) (s : State) : Out :=
  .next (whenAlive s (fun s => s.onTk hdr body (fun s => (s.recvClaim hdr body).settle)))

def execRecordFetch (hdr : TkHdr) (tbl : Nat) (s : State) : Out :=
  .next (whenAlive s (fun s => s.onTk hdr (.recordFetch tbl) (fun s => s.recvFetch hdr tbl)))

def execUpdate (hdr : TkHdr) (u : TkUpdate) (s : State) : Out :=
  .next (whenAlive s (fun s => s.onTk hdr (.update u) (fun s => (s.recvUpdate hdr u).settle)))

def execReleased (hdr : TkHdr) (tbl ver group : Nat) (s : State) : Out :=
  .next (whenAlive s (fun s => s.onTk hdr (.released tbl ver group) (fun s => (s.recvReleased hdr tbl ver group).settle)))

def execVersionPhase (hdr : TkHdr) (p : VPhase) (tbl ver : Nat) (s : State) : Out :=
  .next (whenAlive s (fun s => s.onTk hdr (.versionPhase p tbl ver) (fun s => (s.recvPhase hdr p tbl ver).settle)))

def execReserve (hdr : TkHdr) (body : TkBody) (s : State) : Out :=
  .next (whenAlive s (fun s => s.onTk hdr body (fun s => s.recvReserve hdr body)))

def execCommit (hdr : TkHdr) (tbl step kcmd leader : Nat) (t : Nat) (s : State) : Out :=
  .next (whenAlive s (fun s => (s.advance t).onTk hdr (.commit tbl step kcmd leader) (fun s => s.recvCommit hdr tbl step kcmd leader)))

def execReplicaWrite (hdr : TkHdr) (d : CopyData) (t : Nat) (s : State) : Out :=
  .next (whenAlive s (fun s => (s.advance t).onTk hdr (.replicaWrite d) (fun s => s.recvReplica hdr d)))

def execGroupCopy (hdr : TkHdr) (d : CopyData) (t : Nat) (s : State) : Out :=
  .next (whenAlive s (fun s => (s.advance t).onTk hdr (.groupCopy d) (fun s => s.recvCopy hdr d)))

def execLoadReport (hdr : TkHdr) (r : LoadReport) (s : State) : Out :=
  .next (whenAlive s (fun s => s.onTk hdr (.loadReport r) (fun s => s.takeLoad hdr.src r)))

def execFailNotice (hdr : TkHdr) (body : TkBody) (t : Nat) (s : State) : Out :=
  .next (whenAlive s (fun s => (s.advance t).onTk hdr body (fun s => (s.recvFail hdr body).settle)))

def execRedeliverDone (hdr : TkHdr) (tbl failedBlock : Nat) (s : State) : Out :=
  .next (whenAlive s (fun s => s.onTk hdr (.redeliverDone tbl failedBlock) (fun s => s.redelivered tbl failedBlock hdr.src)))

def execImagePart (hdr : TkHdr) (body : TkBody) (s : State) : Out :=
  .next (whenAlive s (fun s => s.onTk hdr body (fun s => (s.recvImage hdr body).settle)))

/-- A Table Keeper reply that nothing awaits leaves the inbox (09 R353). -/
def State.dropReply (s : State) (src xid : Nat) : State :=
  s.upFab (fun f => { f with
    inbox := f.inbox.eraseP (fun m => m.src == src && mXid m.bytes == xid && decide (0x90 ≤ mType m.bytes)) })

/-- A reply that is awaited advances what waits for it; another is discarded (09 R353). -/
def execTkReply (hdr : TkHdr) (a : TkAnswer) (t : Nat) (s : State) : Out :=
  .next (whenAlive s (fun s =>
    let s := s.advance t
    match s.xchg? hdr.src hdr.xid with
    | none => s.dropReply hdr.src hdr.xid
    | some x =>
      let mtype := mType x.msg
      let msg := mkMsg (mtype + 0x80) (answerStatus a).1 hdr.handle hdr.xid (Config.tkEncodeAnswer hdr.list a)
      -- a refusal for the registry list is no answer: what waits for one waits on (12 R446)
      let r := if registryCode mtype && hdr.list != s.registryList then (s.setFld TK_STATUS 3 1 1, none) else s.recvReply hdr a
      if s.inTurn hdr.src msg then ((r.1.resume r.2).settle).take hdr.src msg else s))

def execGroupMove (tbl ver group : Nat) (dblk dtier : Nat) (t : Nat) (s : State) : Out :=
  .next (whenAlive s (fun s => ((s.advance t).runMove tbl ver group dblk dtier).settle))

def execSecondaryRebuild (tbl ver group : Nat) (t : Nat) (s : State) : Out :=
  .next (whenAlive s (fun s => ((s.advance t).runRebuild tbl ver group).settle))

def execLoadPeriodEnd (t : Nat) (s : State) : Out :=
  .next (whenAlive s (fun s => ((s.advance t).endPeriod).sweepWaits))

end Sys2Proof.Machine
end

