-- ==== Sys2Proof/Machine/Access.lean ====
section
/-! DEFINITION. Software accesses to the register window (16 R571 to R577, 09 R361): which source may write where, and what a write
does to the fields of a register by their access codes. -/

namespace Sys2Proof.Machine

/-- The level of a source: that of FP_RA_ALLOW for a REG message, every access for the others (09 R361). -/
def State.srcLevel (s : State) : Src → Nat
  | .reg b => s.raLevel b
  | _ => 2

/-- The ring whose RF_RING_ registers or seed hold an offset. -/
def ringOfOff (off : Nat) : Option Nat :=
  if 0x4400 ≤ off ∧ off < 0x5400 then some ((off - 0x4400) / 0x40)
  else if 0x5400 ≤ off ∧ off < 0x5600 then some ((off - 0x5400) / 8)
  else none

/-- A write at level RING leaves the ring with REMOTE 1 and REQ_BLOCK equal to the source (09 R361). -/
def State.ringWriteOk (s : State) (b off v : Nat) : Bool :=
  match ringOfOff off with
  | none => false
  | some n =>
    let detached := s.ringState n == 0
    let cfg := if off = RF_CFG n ∧ detached then v else s.reg (RF_CFG n)
    (detached || (s.remoteRing n && s.reqBlock n == b)) && bit cfg 52 && bits cfg 37 15 == b

/-- FP_RA_ALLOW lets a source write a register (09 R361). -/
def State.levelOk (s : State) (src : Src) (off v : Nat) : Bool :=
  match src with
  | .reg b => s.raLevel b ≥ 2 || (s.raLevel b == 1 && s.ringWriteOk b off v)
  | _ => true

/-- An offset of the TT_ section. -/
def isTT (off : Nat) : Bool := decide (0x70000 ≤ off ∧ off < 0x80000)

/-- A write from a source is taken by the section: the host port exists only in local-host mode (01 R41) and takes nothing while H1 is active (14 R535), the IEEE 1687 network writes
only TT_ (R572) while WS_IJTAG opens it (14 R539), a stopped block takes only TT_ (14 R520), nothing else but firmware writes before FW_READY (R573), and recovery mode
serves the network alone. -/
def State.writable (s : State) (src : Src) (off v : Nat) : Bool :=
  let path := match src with
    | .host => !s.headless && !s.flag TT_LB_CTRL 1
    | .jtag => isTT off && s.ctl.wrap == .ijtag
    | _ => true
  let phase := match s.ctl.life with
    | .inReset => false
    | .recovery => src == .jtag
    | .stopped => isTT off && (src == .host || src == .jtag)
    | .alive => isTT off || s.fwReady || src == .fw
  path && phase && s.levelOk src off v

/-- One field after a write (00 R13): triggers, RO and RC fields keep what they hold. -/
def fieldWrite (locked : Bool) (v old : Nat) (x : Fld) : Nat :=
  match x.acc with
  | .rw => setBits old x.lo x.w (bits v x.lo x.w)
  | .rwl => if locked then old else setBits old x.lo x.w (bits v x.lo x.w)
  | .w1c => setBits old x.lo x.w (bits old x.lo x.w &&& (2 ^ x.w - 1 - bits v x.lo x.w))
  | .w1s => setBits old x.lo x.w (bits old x.lo x.w ||| bits v x.lo x.w)
  | .ro => old
  | .rc => old
  | .wo => old

/-- A register takes a write by its fields' access codes; a reserved offset takes none (00 R14, 16 R571). -/
def State.writeFields (s : State) (off v : Nat) : State :=
  match regAt off with
  | none => s
  | some d => s.setReg off (d.fields.foldl (fieldWrite s.locked v) (s.reg off))

end Sys2Proof.Machine
end

