-- ==== Sys2Proof/Machine/Secure.lean ====
section
/-! DEFINITION. The security core (13): flash and boot records, image verification, measurements, the mailbox, confirmation of a trial
boot, core restarts, and the lock and stop registers (16 R576, R577). -/

namespace Sys2Proof.Machine

-- Measurements (R492, R493)

/-- The 48 bytes of a measurement register. -/
def State.mr (s : State) (m : Nat) : List Byte := ((upTo 6).map (fun w => leBytes 8 (s.reg (SE_MR m w)))).flatten

/-- A digest is measured into a register: SHA-384 of the register followed by the digest. -/
def State.measure (s : State) (m : Nat) (digest : List Byte) : State :=
  let d := sha384 (s.mr m ++ digest)
  (upTo 6).foldl (fun s w => s.setReg (SE_MR m w) (leAt d (8 * w) 8)) s

/-- An event record of 64 bytes (R493). -/
def eventRecord (typ core : Nat) (digest : List Byte) : List Byte :=
  leBytes 1 typ ++ leBytes 1 core ++ zeros 14 ++ fitTo 48 digest

/-- The security core runs. -/
def State.secRuns (s : State) : Bool := s.fld (CC_CORE 0) 2 2 == 0

/-- An event extends MR7 with the digest of its record; a halted security core measures nothing. -/
def State.event (s : State) (typ core : Nat) (digest : List Byte) : State :=
  if s.secRuns then s.measure 7 (sha384 (eventRecord typ core digest)) else s

-- Flash (R485)

/-- Byte of the flash; an unlisted byte is erased. -/
def flashGet (l : List (Nat × Byte)) (a : Nat) : Byte := (lookupBy a l).getD 0xFF#8

/-- Byte of the flash takes a value; erased bytes are not listed. -/
def flashPut (l : List (Nat × Byte)) (a : Nat) (b : Byte) : List (Nat × Byte) :=
  if b = 0xFF#8 then eraseBy a l else insertBy a b l

def State.flashBytes (s : State) (a n : Nat) : List Byte := (List.range n).map (fun i => flashGet s.flash.cells (a + i))

def State.flashWrite (s : State) (a : Nat) (bs : List Byte) : State :=
  s.upFlash (fun f => { f with cells := (bs.foldl (fun (x : List (Nat × Byte) × Nat) b => (flashPut x.1 x.2 b, x.2 + 1)) (f.cells, a)).1 })

def State.flashErase (s : State) (a n : Nat) : State :=
  s.upFlash (fun f => { f with cells := f.cells.filter (fun c => !(decide (a ≤ c.1 ∧ c.1 < a + n))) })

def slotBase (slot : Nat) : Nat := if slot = 0 then 0x800000 else 0x2400000
def imgSlotSize : Nat := 28 * 2 ^ 20
def State.slotHeader (s : State) (slot : Nat) : List Byte := s.flashBytes (slotBase slot) 256

-- Boot records (R488, R489)

structure BootRec where
  seq : Nat
  active : Nat
  trial : Bool
  attempted : Bool
  rolled : Bool
  prev : Nat
  svn : Nat
  deriving DecidableEq, Repr

/-- The 32 bytes of a record. -/
def bootRecBytes (r : BootRec) : List Byte :=
  let b := leBytes 4 0x52424B53 ++ leBytes 4 r.seq ++ leBytes 1 r.active ++ leBytes 1 (b2n r.trial) ++ leBytes 1 (b2n r.attempted) ++
    leBytes 1 (b2n r.rolled) ++ leBytes 1 r.prev ++ zeros 3 ++ leBytes 4 r.svn ++ zeros 8
  b ++ leBytes 4 (crc32c b)

/-- A good copy: MAGIC and CRC are correct. -/
def readBootRec (bs : List Byte) : Option BootRec :=
  if leAt bs 0 4 = 0x52424B53 ∧ leAt bs 28 4 = crc32c (bs.take 28) then
    some { seq := leAt bs 4 4, active := leAt bs 8 1, trial := leAt bs 9 1 == 1, attempted := leAt bs 10 1 == 1,
           rolled := bit (leAt bs 11 1) 0, prev := leAt bs 12 1, svn := leAt bs 16 4 }
  else none

def State.bootCopy (s : State) (copy : Nat) : Option BootRec := readBootRec (s.flashBytes (copy * 0x10000) 32)

/-- The current record and its copy: the good one with the higher SEQ. -/
def State.bootCurrent (s : State) : Option (Nat × BootRec) :=
  match s.bootCopy 0, s.bootCopy 1 with
  | some a, some b => if a.seq < b.seq then some (1, b) else some (0, a)
  | some a, none => some (0, a)
  | none, some b => some (1, b)
  | none, none => none

/-- A new record takes the next SEQ and goes over the copy that is not current. -/
def State.writeBootRec (s : State) (r : BootRec) : State :=
  let cur := s.bootCurrent
  let copy := match cur with
    | some (0, _) => 1
    | _ => 0
  let seq := match cur with
    | some (_, c) => c.seq + 1
    | none => 1
  (s.flashErase (copy * 0x10000) 0x10000).flashWrite (copy * 0x10000) (bootRecBytes { r with seq := seq })

-- Images (R486, R487)

def hdrImgLen (h : List Byte) : Nat := leAt h 16 4
def hdrSvn (h : List Byte) : Nat := leAt h 8 4
def hdrKey (h : List Byte) : Nat := leAt h 7 1
/-- Offset and length of a section: 0 security, 1 power, 2 scheduler, 3 Holm. -/
def hdrSect (h : List Byte) (i : Nat) : Nat × Nat := (leAt h (32 + 8 * i) 4, leAt h (36 + 8 * i) 4)

/-- Instruction memory of a section's core (R484). -/
def sectLimit (i : Nat) : Nat :=
  match i with
  | 0 => 2 * 2 ^ 20
  | 1 => 2 ^ 20
  | 2 => 4 * 2 ^ 20
  | _ => 2 * 2 ^ 20

/-- The first check of R487. -/
def hdrFormOk (h : List Byte) (written : Option Nat) : Bool :=
  let len := hdrImgLen h
  let secs := (upTo 4).map (hdrSect h)
  let inside := (upTo 4).all (fun i => let x := hdrSect h i; decide (256 ≤ x.1 ∧ x.1 + x.2 ≤ len ∧ x.2 ≤ sectLimit i))
  let apart := (upTo 4).all (fun i => (upTo 4).all (fun j =>
    decide (i ≥ j) || (let x := (secs[i]?).getD (0, 0); let y := (secs[j]?).getD (0, 0); decide (x.1 + x.2 ≤ y.1 ∨ y.1 + y.2 ≤ x.1))))
  leAt h 0 4 == 0x4D494B53 && leAt h 4 2 == 1 && decide (256 ≤ len ∧ len ≤ imgSlotSize) &&
  (match written with
   | some n => len == n
   | none => true) && inside && apart

/-- The digest that the signature covers. -/
def State.imageDigest (s : State) (slot : Nat) : List Byte :=
  sha384 (s.flashBytes (slotBase slot) 160 ++ s.flashBytes (slotBase slot + 256) (hdrImgLen (s.slotHeader slot) - 256))

/-- Verification of a slot (R487): 0, or the code of the first check that fails. `line` is the running line when it is checked. -/
def State.verifySlot (s : State) (slot : Nat) (written line : Option Nat) : Nat :=
  let h := s.slotHeader slot
  let pub := Machine.bytesAt h 64 96
  if !hdrFormOk h written then 3
  else if hdrKey h > 3 ∨ (s.fuses.revoked[hdrKey h]?).getD true ∨ sha384 pub ≠ (s.fuses.keyHash[hdrKey h]?).getD [] then 3
  else if !Config.ecdsaVerify pub (Machine.bytesAt h 160 96) (s.imageDigest slot) then 3
  else if hdrSvn h < s.fuses.svn then 4
  else if s.fld CC_ID 0 8 < leAt h 12 1 ∨ leAt h 13 1 < s.fld CC_ID 0 8 ∨ leAt h 15 1 ≠ 1 then 5
  else match line with
    | some l => if leAt h 6 1 = l then 0 else 5
    | none => 0

/-- The security version and the revoked keys of the fuse bank (13 R484). -/
def State.setFuses (s : State) (svn : Nat) (revoked : List Bool) : State :=
  { s with fuses := { s.fuses with svn := svn, revoked := revoked } }

/-- Fuse blows of a confirmed image (R501 steps 2 and 3). -/
def State.blowFuses (s : State) : State :=
  let svn := max s.fuses.svn (hdrSvn s.sec.header)
  let k := hdrKey s.sec.header
  let revoked := (upTo 4).map (fun i => (s.fuses.revoked[i]?).getD false || decide (i < k))
  (s.setFuses svn revoked).setFld SE_STATUS 12 7 svn

-- The mailbox (R499)

def rOk : Nat := 0
def rBadArg : Nat := 1
def rState : Nat := 2
def rAuth : Nat := 3
def rDenied : Nat := 7
def rHalted : Nat := 8
def rCrypto : Nat := 9

def State.stage_ (s : State) : Nat := s.fld SE_STATUS 8 3
def State.setStage (s : State) (n : Nat) : State := s.setFld SE_STATUS 8 3 n
def State.trial (s : State) : Bool := s.flag SE_STATUS 4
def State.approved (s : State) : Bool := s.flag SE_STATUS 0
def State.mboxArg (s : State) : Nat := s.reg SE_MBOX_ARG
def State.mboxBytes (s : State) (off n : Nat) : List Byte :=
  Machine.bytesAt (((List.range 512).map (fun i => leBytes 8 (s.reg (SE_MBOX_BUF i)))).flatten) off n
/-- The slot that is not running. -/
def State.otherSlot (s : State) : Nat := 1 - s.sec.slot

/-- DL_BEGIN: the erase begins and keeps the mailbox busy. -/
def State.mbDlBegin (s : State) (_len : Nat) : State × Nat :=
  if s.trial then (s, rState)
  else if s.mboxArg < 256 ∨ s.mboxArg > imgSlotSize then (s, rBadArg)
  else (((s.flashErase (slotBase s.otherSlot) imgSlotSize).upSec (fun x => { x with
      dlLen := s.mboxArg, dlDone := 0, busyOp := some 1 })).setStage 1, rOk)

def State.mbDlChunk (s : State) (len : Nat) : State × Nat :=
  if s.stage_ ≠ 2 then (s, rState)
  else if s.mboxArg ≠ s.sec.dlDone ∨ len = 0 ∨ len > 4096 ∨ s.sec.dlDone + len > s.sec.dlLen then (s, rBadArg)
  else ((s.flashWrite (slotBase s.otherSlot + s.sec.dlDone) (s.mboxBytes 0 len)).upSec (fun x => { x with dlDone := x.dlDone + len }), rOk)

def State.mbVerify (s : State) (_len : Nat) : State × Nat :=
  if s.stage_ < 2 ∨ s.sec.dlDone ≠ s.sec.dlLen then (s, rState)
  else
    let line := if bit s.mboxArg 0 then none else some (leAt s.sec.header 6 1)
    let r := s.verifySlot s.otherSlot (some s.sec.dlLen) line
    if r = 0 then (s.setStage 3, rOk) else (s, r)

def State.mbActivate (s : State) (_len : Nat) : State × Nat :=
  if s.trial ∨ s.stage_ ≠ 3 then (s, rState)
  else ((s.writeBootRec { seq := 0, active := s.otherSlot, trial := true, attempted := false, rolled := false, prev := s.sec.slot,
                          svn := hdrSvn (s.slotHeader s.otherSlot) }).setStage 4, rOk)

def State.mbConfirm (s : State) (_len : Nat) : State × Nat :=
  if !s.trial then (s, rState) else (s.upSec (fun x => { x with confirmSeen := true }), rOk)

/-- Bytes of the mailbox buffer from its start are replaced. -/
def State.setMbox (s : State) (bs : List Byte) : State :=
  let new := bs ++ s.mboxBytes bs.length (4096 - bs.length)
  (List.range 512).foldl (fun s i => s.setReg (SE_MBOX_BUF i) (leAt new (8 * i) 8)) s

def State.mbCertRead (s : State) (_len : Nat) : State × Nat :=
  (s.setMbox (((Config.certChain s.fuses.uds).drop s.mboxArg).take 4096), rOk)

def State.mbKekSet (s : State) (len : Nat) : State × Nat :=
  if len ≠ 96 then (s, rBadArg)
  else
    let pub := s.mboxBytes 0 96
    match Config.deriveKek s.fuses.uds pub with
    | none => (s, rBadArg)
    | some k => (((s.event 4 0 (sha384 pub)).upSec (fun x => { x with kek := some (fitTo 32 k) })).setFld SE_STATUS 7 1 1, rOk)

/-- An association is installed; one for transmission returns a port whose keys had run out (09 R330, R367). -/
def State.installSa (s : State) (key rest : List Byte) : State :=
  let port := bits s.mboxArg 0 3
  let rx := bit s.mboxArg 3
  let an := bits s.mboxArg 4 1
  let sa : Sa := { port := port, rx := rx, an := an, key := fitTo 32 key, ssci := leAt rest 0 4, salt := Machine.bytesAt rest 4 12,
                   pn := leAt rest 16 8 }
  let s := s.upSec (fun x => { x with
    sas := x.sas.filter (fun a => !(a.port == port && a.rx == rx && a.an == an)) ++ [sa] })
  if !rx && s.fld (FP_PORT_STATUS port) 1 4 == 8 && !s.pnExhausted port then s.portEnters port else s

def State.mbSakInstall (s : State) (len : Nat) : State × Nat :=
  if len ≠ 64 then (s, rBadArg)
  else
    match s.sec.kek with
    | none => (s, rState)
    | some k =>
      match Config.keyUnwrap k (s.mboxBytes 0 40) with
      | none => (s, rAuth)
      | some key => (s.installSa key (s.mboxBytes 40 24), rOk)

def State.mbSakPlain (s : State) (len : Nat) : State × Nat :=
  if s.approved then (s, rDenied)
  else if len ≠ 56 then (s, rBadArg)
  else (s.installSa (s.mboxBytes 0 32) (s.mboxBytes 32 24), rOk)

def State.mbSakRetire (s : State) (_len : Nat) : State × Nat :=
  let port := bits s.mboxArg 0 3
  let rx := bit s.mboxArg 3
  let an := bits s.mboxArg 4 1
  (s.upSec (fun x => { x with sas := x.sas.filter (fun a => !(a.port == port && a.rx == rx && a.an == an)) }), rOk)

/-- Every port with MACSEC_EN leaves service with CAUSE KEY (R496, R499). -/
def State.macsecPortsLeave (s : State) : State :=
  (upTo 8).foldl (fun s k => if s.flag (FP_PORT_CFG k) 2 then s.portLeaves k 8 false else s) s

def State.mbZeroize (s : State) (_len : Nat) : State × Nat :=
  let s := s.event 5 0 (zeros 48)
  let s := (s.upSec (fun x => { x with kek := none, sas := [], drbg := 0 })).setFld SE_STATUS 7 1 0
  (s.macsecPortsLeave, rOk)

def State.mbDebugUnlock (s : State) (len : Nat) : State × Nat :=
  if s.approved then (s, rDenied)
  else if !Config.debugResponseOk s.fuses.uds (s.mboxBytes 0 (min len 4096)) then (s, rAuth)
  else ((s.event 3 0 (zeros 48)).setFld SE_STATUS 11 1 1, rOk)

/-- The command of an OP; another OP is a bad argument. -/
def State.mailboxOp (s : State) (op len : Nat) : State × Nat :=
  match op with
  | 0x01 => s.mbDlBegin len
  | 0x02 => s.mbDlChunk len
  | 0x03 => s.mbVerify len
  | 0x04 => s.mbActivate len
  | 0x05 => s.mbConfirm len
  | 0x08 => s.mbCertRead len
  | 0x10 => s.mbKekSet len
  | 0x11 => s.mbSakInstall len
  | 0x12 => s.mbSakPlain len
  | 0x13 => s.mbSakRetire len
  | 0x1F => s.mbZeroize len
  | 0x20 => s.mbDebugUnlock len
  | _ => (s, rBadArg)

def State.mboxBusy (s : State) : Bool := s.flag SE_MBOX_CTRL 9

/-- GO: ignored and counted while BUSY; a halted core and the error state answer at once; else the command runs, and RESULT holds its
outcome, or BUSY stays set while an erase goes on. -/
def State.mailboxGo (s : State) (op len : Nat) : State :=
  if s.mboxBusy then s.bump SE_MBOX_IGNORED 1
  else if s.flag SE_STATUS 3 then s.setFld SE_MBOX_CTRL 16 8 rHalted
  else if s.flag SE_STATUS 2 then s.setFld SE_MBOX_CTRL 16 8 rCrypto
  else
    let r := s.mailboxOp op len
    if r.1.sec.busyOp.isSome then r.1.setFld SE_MBOX_CTRL 9 1 1 else r.1.setFld SE_MBOX_CTRL 16 8 r.2

/-- A write of SE_MBOX_CTRL (R511). -/
def State.writeMbox (s : State) (v : Nat) : State :=
  let s := s.writeFields SE_MBOX_CTRL v
  if bit v 8 then s.mailboxGo (bits v 0 8) (bits v 24 13) else s

/-- A GO write of one command from a source. -/
def State.mailboxCmd (s : State) (src : Src) (op : Nat) (len : BitVec 13) : State :=
  let v := op + 2 ^ 8 + len.toNat * 2 ^ 24
  if s.writable src SE_MBOX_CTRL v then s.writeMbox v else s

/-- A long command ends (R499). -/
def State.mailboxDone (s : State) : State :=
  match s.sec.busyOp with
  | none => s
  | some _ =>
    let s := (s.upSec (fun x => { x with busyOp := none })).setFld SE_MBOX_CTRL 9 1 0
    if s.flag SE_STATUS 3 then (s.setStage 0).setFld SE_MBOX_CTRL 16 8 rHalted
    else if s.flag SE_STATUS 2 then (s.setStage 0).setFld SE_MBOX_CTRL 16 8 rCrypto
    else (s.setStage 2).setFld SE_MBOX_CTRL 16 8 rOk

-- Trial boots (R501, R502)

/-- The conditions of a confirmation that the block holds itself. -/
def State.mayConfirm (s : State) : Bool :=
  s.trial && s.flag SE_STATUS 1 && !s.flag SE_STATUS 2 && s.secRuns && s.ctl.trained && s.valid &&
  (s.flag SE_CFG 0 || s.sec.confirmSeen)

def State.confirmTrial (s : State) (m1f1 fuseRail : Bool) : State :=
  if !(s.mayConfirm && m1f1) then s
  else
    let s := (s.writeBootRec { seq := 0, active := s.sec.slot, trial := false, attempted := false, rolled := false, prev := s.sec.slot,
                               svn := hdrSvn s.sec.header }).setFld SE_STATUS 4 1 0
    if fuseRail then s.blowFuses else s

/-- The rollback record (R490 step 4): CONFIRMED for PREV, with ROLLED_BACK. -/
def State.writeRollback (s : State) (prev : Nat) : State :=
  s.writeBootRec { seq := 0, active := prev, trial := false, attempted := false, rolled := true, prev := prev,
                   svn := hdrSvn (s.slotHeader prev) }

-- Cores (R504 to R508)

def State.coreState (s : State) (c : Nat) : Nat := s.fld (CC_CORE c) 2 2

/-- The security core halts (R508). -/
def State.haltSecurity (s : State) : State :=
  if s.coreState 0 = 3 then s
  else ((s.setFld (CC_CORE 0) 2 2 3).setFld SE_STATUS 3 1 1).fault 4 (srcCore 0) 0x23 0

/-- Hardware takes a Holm offline: it drains (R507, 14 R529). -/
def State.holmGoesOffline (s : State) (h : Nat) : State := s.setFld TT_HOLM_CTRL h 1 1

/-- A core becomes FAILED (R507). -/
def State.failCore (s : State) (c : Nat) : State :=
  let s := (s.setFld (CC_CORE c) 2 2 2).fault 4 (srcCore c) 0x23 c
  if c = 1 then s.fatal 0x42 1 (srcCore 1)
  else if c = 2 then s.fatal 0x43 2 (srcCore 2)
  else s.holmGoesOffline (c - 3)

/-- A running core restarts; without a security core, or the third time within one second, it fails. -/
def State.restartCore (s : State) (c t : Nat) : State :=
  if c = 0 ∨ s.coreState c ≠ 0 then s
  else if s.coreState 0 = 3 then s.failCore c
  else
    let recent := (s.sec.restarts.filter (fun r => decide (t < r.2 + Sys2Proof.sec))) ++ [(c, t)]
    let s := (s.upSec (fun x => { x with restarts := recent, restartSum := x.restartSum + 1 })).setFld (CC_CORE c) 16 16
      (min (s.fld (CC_CORE c) 16 16 + 1) 0xFFFF)
    if (recent.filter (fun r => r.1 == c)).length ≥ 3 then s.failCore c else s.setFld (CC_CORE c) 2 2 1

/-- Section of the image that a core runs. -/
def sectOfCore (c : Nat) : Nat := min c 3

/-- The reload of a restarting core ends (R505). -/
def State.restartDone (s : State) (c : Nat) (digestOk : Bool) : State :=
  if c = 0 ∨ s.coreState c ≠ 1 then s
  else if digestOk && s.secRuns then
    ((s.event 1 c ((s.sec.digests[sectOfCore c]?).getD [])).setFld (CC_CORE c) 2 2 0).settle
  else s.failCore c

-- Registers of the Control Complex

/-- LOCK is measured, then set (R512, 16 R576). -/
def State.setLock (s : State) : State :=
  if s.locked then s else (s.event 2 0 (zeros 48)).setFld CC_SETUP_LOCK 0 1 1

/-- A write of CC_STOP (16 R577). -/
def State.writeStop (s : State) (v : Nat) : State :=
  if bit v 0 && !s.locked then s.fatal 0x48 0 (srcCore 0) else s

/-- A write of CC_CORE_c (R513). -/
def State.writeCore (s : State) (c v t : Nat) : State :=
  let s := s.writeFields (CC_CORE c) v
  if bit v 0 then s.restartCore c t else s

-- Meanings

def execSetupLock (src : Src) (value : Word64) (s : State) : Out :=
  .next (if s.writable src CC_SETUP_LOCK value.toNat && bit value.toNat 0 then s.setLock else s)

def execStop (src : Src) (value : Word64) (t : Nat) (s : State) : Out :=
  .next (if s.writable src CC_STOP value.toNat then (s.advance t).writeStop value.toNat else s)

def execRestart (src : Src) (core : Fin 7) (value : Word64) (t : Nat) (s : State) : Out :=
  let v := value.toNat ||| 1
  .next (if s.writable src (CC_CORE core.val) v then (s.advance t).writeCore core.val v t else s)

def execCoreRestartDone (core : Fin 7) (digestOk : Bool) (t : Nat) (s : State) : Out :=
  .next (whenAlive s (fun s => (s.advance t).restartDone core.val digestOk))

/-- A watchdog of period 0 is disabled for every core but the security core (R513). -/
def execWatchdogExpiry (core : Fin 7) (t : Nat) (s : State) : Out :=
  .next (whenAlive s (fun s =>
    let s := s.advance t
    if core.val = 0 then s.haltSecurity
    else if s.fld (CC_CORE core.val) 32 16 = 0 then s
    else s.restartCore core.val t))

def execCoreFault (core : Fin 7) (t : Nat) (s : State) : Out :=
  .next (whenAlive s (fun s =>
    let s := s.advance t
    if core.val = 0 then s.haltSecurity else s.restartCore core.val t))

def execDlBegin (src : Src) (len : BitVec 13) (s : State) : Out := .next (s.mailboxCmd src 0x01 len)
def execDlChunk (src : Src) (len : BitVec 13) (s : State) : Out := .next (s.mailboxCmd src 0x02 len)
def execVerify (src : Src) (len : BitVec 13) (s : State) : Out := .next (s.mailboxCmd src 0x03 len)
def execActivate (src : Src) (len : BitVec 13) (s : State) : Out := .next (s.mailboxCmd src 0x04 len)
def execConfirm (src : Src) (len : BitVec 13) (s : State) : Out := .next (s.mailboxCmd src 0x05 len)
def execCertRead (src : Src) (len : BitVec 13) (s : State) : Out := .next (s.mailboxCmd src 0x08 len)
def execKekSet (src : Src) (len : BitVec 13) (s : State) : Out := .next (s.mailboxCmd src 0x10 len)
def execSakInstall (src : Src) (len : BitVec 13) (s : State) : Out := .next (s.mailboxCmd src 0x11 len)
def execSakInstallPlain (src : Src) (len : BitVec 13) (s : State) : Out := .next (s.mailboxCmd src 0x12 len)
def execSakRetire (src : Src) (len : BitVec 13) (s : State) : Out := .next (s.mailboxCmd src 0x13 len)
def execZeroize (src : Src) (len : BitVec 13) (s : State) : Out := .next (s.mailboxCmd src 0x1F len)
def execDebugUnlock (src : Src) (len : BitVec 13) (s : State) : Out := .next (s.mailboxCmd src 0x20 len)

/-- A GO while BUSY is ignored and counted (R499); the OP and LEN fields of the write are taken. -/
def execMailboxGoIgnored (src : Src) (value : Word64) (s : State) : Out :=
  let v := value.toNat ||| 2 ^ 8
  .next (if s.mboxBusy && s.writable src SE_MBOX_CTRL v then s.writeMbox v else s)

def execMailboxCommandDone (s : State) : Out := .next (whenAlive s State.mailboxDone)

def execTrialConfirmation (m1f1 fuseRail : Bool) (s : State) : Out := .next (whenAlive s (fun s => s.confirmTrial m1f1 fuseRail))

/-- A trial that is not confirmed in time: rollback record, then the fatal stop (R502). -/
def execConfirmWaitExpiry (t : Nat) (s : State) : Out :=
  .next (whenAlive s (fun s =>
    if !s.trial || !s.secRuns || decide (t < s.ctl.released + max 1 (s.fld SE_CFG 1 8) * Sys2Proof.sec) then s
    else
      let prev := match s.bootCurrent with
        | some (_, r) => r.prev
        | none => s.otherSlot
      ((s.advance t).writeRollback prev).fatal 0x44 s.sec.slot (srcCore 0)))

/-- A failed self-test (R496): the error state until reset; one that fails at start-up leaves POST_OK clear (R495), and tests 0 and 1 are
those of the ROM and keep VALID clear. -/
def execSelfTestFailure (test t : Nat) (s : State) : Out :=
  .next (whenAlive s (fun s =>
    let s := ((s.advance t).setFld SE_STATUS 2 1 1).fault 4 (srcCore 0) 0x27 test
    let s := if s.fwReady then s else s.setFld SE_STATUS 1 1 0
    let s := if test < 2 && !s.valid then s.upCtl (fun c => { c with mbistBad := true }) else s
    s.macsecPortsLeave))

end Sys2Proof.Machine
end

