-- ==== Sys2Proof/Machine/Power.lean ====
section
/-! DEFINITION. The power core's periodic work (10 R379 to R388, 08 R320, R321, 15 R557, R558, R565): temperatures, throttle levels, the
voltage floor and steps, canaries and delay lines. -/

namespace Sys2Proof.Machine

/-- The power core runs. -/
def State.powerRuns (s : State) : Bool := s.coreState 1 == 0

-- Temperature and throttling (08 R320, R321)

/-- The level of 08 R320 at a temperature. -/
def State.thermRow (s : State) (temp : Nat) : Nat :=
  let warn := s.fld MS_THERM_CFG 0 8
  if temp ≥ s.fld MS_THERM_CFG 8 8 then 3 else if temp ≥ warn + 5 then 2 else if temp ≥ warn then 1 else 0

/-- Threshold that sets a level. -/
def State.thermThreshold (s : State) (level : Nat) : Nat :=
  let warn := s.fld MS_THERM_CFG 0 8
  if level = 3 then s.fld MS_THERM_CFG 8 8 else if level = 2 then warn + 5 else warn

/-- The level with hysteresis: a level is kept until the temperature has fallen HYST below its threshold. -/
def State.thermLevelAt (s : State) (temp prev : Nat) : Nat :=
  let kept := ([3, 2, 1].find? (fun n => decide (n ≤ prev) && decide (temp + s.fld MS_THERM_CFG 16 4 > s.thermThreshold n))).getD 0
  max (s.thermRow temp) kept

/-- Voltage limit in mV of a level at a temperature. -/
def State.thermLimitAt (s : State) (level temp : Nat) : Nat :=
  if level = 0 then 900
  else if level = 3 then 550
  else max 550 (750 - 20 * (temp - s.fld MS_THERM_CFG 0 8))

/-- Hottest Tier F stack. -/
def State.stackTemp (s : State) : Nat := max (s.fld MF_TEMP 0 8) (s.fld MF_TEMP 8 8)

/-- pm_throttle_req moves one step toward its level, and stays at each for 10 µs (15 R558). -/
def State.moveThrottle (s : State) : State :=
  let want := max s.ctl.thermLevel (if s.stackTemp ≥ 95 then 1 else 0)
  if s.ctl.throttle = want ∨ s.ctl.now < s.ctl.throttleAt + 10 * us then s
  else s.upCtl (fun c => { c with throttle := if c.throttle < want then c.throttle + 1 else c.throttle - 1, throttleAt := c.now })

/-- REFUSE_ALL follows CRIT and its hysteresis (10 R388). -/
def State.setRefuseAll (s : State) (temp : Nat) : State :=
  let crit := s.fld MS_THERM_CFG 8 8
  if temp ≥ crit then s.setFld NW_STATUS 16 1 1
  else if temp + s.fld MS_THERM_CFG 16 4 ≤ crit then s.setFld NW_STATUS 16 1 0
  else s

-- The floor (10 R385 to R387)

def State.vf (s : State) : Nat := s.fld PW_SPEED 16 16
def State.vfp (s : State) : Nat := s.fld PW_SPEED 32 16

/-- A posting below VF: a pending floor is replaced only by a lower one (10 R386). -/
def State.postFloor (s : State) (mv : Nat) : State :=
  if mv ≥ s.vf ∨ (s.vfp ≠ 0 ∧ mv ≥ s.vfp) then s
  else (s.setFld PW_SPEED 32 16 mv).upCtl (fun c => { c with vfpAck := none })

/-- Steps of 5 mV from 0.55 V to 0.90 V (10 R381, 15 R557). -/
def stepMv (mv : Nat) : Nat := min 900 (max 550 (mv / 5 * 5))

/-- Spacing of voltage steps (15 R565). -/
def State.stepGap (s : State) : Nat := if s.cmds.isEmpty then 100 * ns else 500 * ns

/-- One step toward the target, when the last one has ended (15 R565). -/
def State.voltageStep (s : State) : State :=
  let target := s.fld PW_VDD 16 16
  if !s.ctl.vddOk ∨ s.ctl.vddReq = target ∨ s.ctl.now < s.ctl.lastStep + s.stepGap then s
  else
    let req := if s.ctl.vddReq < target then s.ctl.vddReq + 5 else s.ctl.vddReq - 5
    s.upCtl (fun c => { c with vddReq := req, vddOk := false, lastStep := c.now })

/-- The target: between the floor and the limits, which the manual leaves to the power core (10 R386, R387). -/
def State.chooseTarget (s : State) : State :=
  let hi := stepMv (min s.ctl.thermLimit s.ctl.powerLimit)
  let lo := stepMv (max 550 s.vf)
  let x := s.draw
  let t := if hi ≤ lo then lo else lo + 5 * (x.1 % ((hi - lo) / 5 + 1))
  x.2.setFld PW_VDD 16 16 t

/-- Evaluation at a Tier S reading: the floor is posted lower when a limit falls below it, and raised to the present voltage when
nothing forbids it. -/
def State.evalFloor (s : State) (hot : Nat) : State :=
  let ahead := hot + s.fld NW_CFG 0 8
  let lim := stepMv (min (s.thermLimitAt (s.thermRow ahead) ahead) s.ctl.powerLimit)
  if lim < s.vf then s.postFloor lim
  else
    let up := min lim (s.fld PW_VDD 0 16)
    if s.vfp = 0 ∧ s.vf < up then s.setFld PW_SPEED 16 16 up else s

/-- One reading of the Tier S dies (08 R320, 10 R387, R388). -/
def State.tierSTemps (s : State) (temps : List Nat) (powerLimit : Nat) : State :=
  let temp := fun (i : Nat) => min ((temps[i]?).getD 0) 255
  let hot := maxOf ((upTo 4).map temp)
  if !s.powerRuns then (if hot ≥ s.fld MS_THERM_CFG 8 8 then s.setFld NW_STATUS 16 1 1 else s)
  else
    let s := (upTo 4).foldl (fun s i => s.setFld MS_TEMP (8 * i) 8 (temp i)) s
    let s := s.setFld MS_STATUS 4 1 (b2n (decide (hot > 95)))
    let level := s.thermLevelAt hot s.ctl.thermLevel
    let lim := s.thermLimitAt level hot
    let waited := decide (lim < s.vf) && decide (s.ctl.thermLimit ≥ s.vf)
    let s := s.upCtl (fun c => { c with thermLevel := level, thermLimit := lim, powerLimit := stepMv powerLimit })
    let s := if waited then (s.bump PW_TDRIFT_COUNT 1).setFld PW_STATUS 1 1 1 else s
    (((s.setRefuseAll hot).evalFloor hot).chooseTarget.voltageStep).moveThrottle

/-- A pending floor takes effect 100 µs after its acknowledgement (10 R386). -/
def State.floorEffect (s : State) : State :=
  match s.ctl.vfpAck with
  | none => s
  | some a =>
    if s.vfp = 0 ∨ !s.powerRuns ∨ s.ctl.now < a + 100 * us then s
    else ((s.setFld PW_SPEED 16 16 s.vfp).setFld PW_SPEED 32 16 0).upCtl (fun c => { c with vfpAck := none })

/-- pm_vdd_ok rises: the voltage has the requested value, and the next step may follow (15 R565). -/
def State.vddSettled (s : State) : State :=
  let s := (s.upCtl (fun c => { c with vddOk := true })).setFld PW_VDD 0 16 s.ctl.vddReq
  if s.powerRuns then s.voltageStep else s

-- Canaries (10 R382, R383)

def State.deadCanaries (s : State) : Nat := ((upTo 16).filter (fun n => s.flag (PW_CANARY n) 16)).length

/-- SI: the lowest live rate, or 0.9 times the nominal rate at the present voltage and 105 °C with more than four dead. -/
def State.speedIndex (s : State) : Nat :=
  if s.deadCanaries > 4 then nominalRate (s.fld PW_VDD 0 16) 105 * 9 / 6000000
  else
    match ((upTo 16).filter (fun n => !s.flag (PW_CANARY n) 16)).map (fun n => s.fld (PW_CANARY n) 0 16) with
    | [] => 0
    | r :: rs => rs.foldl min r

/-- One canary after its window. -/
def State.canary (s : State) (n count rate : Nat) : State :=
  let s := s.setFld (PW_CANARY n) 0 16 (min rate 0xFFFF)
  if count ≥ 100 ∨ s.flag (PW_CANARY n) 16 then s
  else (s.setFld (PW_CANARY n) 16 1 1).fault 2 (srcCore 1) 0x08 n

def State.canaries (s : State) (counts rates : List Nat) : State :=
  if !s.powerRuns then s
  else
    let s := (upTo 16).foldl (fun s n => s.canary n ((counts[n]?).getD 0) ((rates[n]?).getD 0)) s
    let fall := decide (s.deadCanaries > 4)
    let s := if fall && !s.flag PW_STATUS 0 then (s.setFld PW_STATUS 0 1 1).fault 4 (srcCore 1) 0x26 s.deadCanaries else s
    s.setFld PW_SPEED 0 16 (min s.speedIndex 0xFFFF)

-- Delay lines (10 R379, 14 R526)

/-- 1.15 times a measured delay, rounded up. -/
def lineSetting (measured : Nat) : Nat := ceilDiv (measured * 115) 100

/-- The core that calibrates a line. -/
def lineOwner (line : Nat) : Nat := 2 + Config.lineCore line % 5

def State.lineRuns (s : State) (line : Nat) : Bool := s.coreState (lineOwner line) == 0

def State.calibrate (s : State) (line measured : Nat) : State :=
  s.upSpine (fun x => { x with lines := insertBy line (lineSetting measured) x.lines })

/-- Re-centring sets the line from the failing point of its shadow, and warns when the point has grown by 10 % or more. -/
def State.recentre (s : State) (line point : Nat) : State :=
  let s := s.calibrate line point
  if point * 10 ≥ Config.fusedPoint line * 11 then
    (s.fault 2 (srcCore (lineOwner line)) 0x09 line).bump TT_AGING_WARN 1
  else s

-- Meanings

def execTierSTempRead (temps : List Nat) (powerLimit t : Nat) (s : State) : Out :=
  .next (whenAlive s (fun s => (s.advance t).tierSTemps temps powerLimit))

def execFloorTakesEffect (t : Nat) (s : State) : Out := .next (whenAlive s (fun s => (s.advance t).floorEffect))

/-- The hottest logic sensor, read by hardware even while the power core restarts (10 R384, 13 R506). -/
def execLogicTempRead (temps : List Nat) (t : Nat) (s : State) : Out :=
  .next (whenAlive s (fun s => ((s.advance t).setFld PW_TEMP 0 8 (min (maxOf temps) 255)).showTadm))

def execCanaryWindow (counts rates : List Nat) (t : Nat) (s : State) : Out :=
  .next (whenAlive s (fun s => (s.advance t).canaries counts rates))

def execVddOk (t : Nat) (s : State) : Out := .next (whenAlive s (fun s => (s.advance t).vddSettled))

/-- While its core restarts a line keeps its setting (10 R379). -/
def execDelayLineCalibration (line measured : Nat) (s : State) : Out :=
  .next (whenAlive s (fun s => if s.lineRuns line then s.calibrate line measured else s))

def execMarginRecentre (line point t : Nat) (s : State) : Out :=
  .next (whenAlive s (fun s => if s.lineRuns line then (s.advance t).recentre line point else s))

end Sys2Proof.Machine
end

