-- ==== Sys2Proof/Machine/Tiers.lean ====
section
/-! DEFINITION. Events of the memory tiers (08): read errors and poison, row repair, failing channels and tiers, PHY updates, write
batches, regulators, refresh and device temperatures; patrol scrub (14 R524). -/

namespace Sys2Proof.Machine

def srcTier (tier : Nat) : Nat := 3 + tier

/-- Counters of corrected words, poisoned words, link retries and update overruns (R323, R325, R326). -/
def eccCorr (tier : Nat) : Nat := if tier = 0 then MS_ECC_CORR else if tier = 1 then MF_ECC_CORR else MC_ECC_CORR
def eccUncorr (tier : Nat) : Nat := if tier = 0 then MS_ECC_UNCORR else if tier = 1 then MF_ECC_UNCORR else MC_ECC_UNCORR
def linkRetry (tier : Nat) : Nat := if tier = 1 then MF_LINK_RETRY else MC_LINK_RETRY
def overrunCtr (tier : Nat) : Nat := if tier = 1 then MF_OVERRUN else MC_OVERRUN

-- Rows and channels (R298 to R300)

/-- First byte of the 1 KiB Tier S row of an offset: chunk 0, the same die, channel, bank and row. -/
def tierSRow (o : Nat) : Nat :=
  let o1 := setBits (setBits o 20 2 0) 0 8 0
  setBits o1 10 6 ((tierSPlace o).channel ^^^ bits o1 16 6)

/-- Bank of a Tier S offset among all: die, channel and bank. -/
def tierSBank (o : Nat) : Nat :=
  let p := tierSPlace o
  (p.unit * 64 + p.channel) * 16 + p.bank

/-- First byte of the row that holds an offset; the columns of a row of Tier F and Tier C are the device's geometry (log 79). -/
def State.rowOf (s : State) (tier off : Nat) : Nat :=
  if tier = 0 then tierSRow off
  else
    let p := s.place tier off
    Config.deviceRow tier p.channel p.bank p.addr

/-- The unit that fails as a whole. -/
def State.unitOf (s : State) (tier off : Nat) : Nat :=
  let p := s.place tier off
  tier * 256 + (if tier = 0 then p.unit * 64 + p.channel else p.channel)

-- Failure of a tier (R314, R315)

/-- Partials and reservations of the ordered pool are lost with Tier C; those that a secondary mirrors are not counted (06 R238). -/
def State.losePool (s : State) : State :=
  let mirrored := fun (z : Slot) => match s.ver? z.tbl z.ver with
    | some v => (s.pentry v.pmap (z.row / 4096)).repl
    | none => false
  let n := (s.tab.slots.filter (fun z => !z.mirror && z.val.isSome && !mirrored z)).length
  ((s.upTab (fun t => { t with slots := [] })).syncPool).bump MT_ADD_DROP n

/-- Tier F or Tier C leaves service until reset. -/
def State.tierFails (s : State) (tier channel : Nat) : State :=
  if s.tierOut tier then s
  else
    let s := s.setFld MT_STATUS (1 + tier) 1 1
    let s := if tier = 1 then s.setFld MF_STATUS 2 4 8
             else (s.setFld (MC_FAIL_CAUSE channel) 0 4 8).upFlash (fun f => { f with failed := f.failed ||| 2 ^ channel })
    let s := s.fault 4 (srcTier tier) 0x25 (tier + channel * 256)
    let s := (s.upSpine (fun x => { x with repairs := x.repairs.filter (fun r => r.1 != tier) })).syncRepairs
    let s := if tier = 2 then s.losePool else s
    (s.reportTier tier).settle

/-- A Tier S die or channel fails: the tier is out of service, which is fatal (R314, R324). -/
def State.tierSFails (s : State) (die channel : Nat) : State :=
  ((s.setFld MS_STATUS die 1 0).setFld MT_STATUS 1 1 1).fatal 0x41 (die + channel * 4) (srcTier 0)

/-- A failure in a unit counts; the 64th of one second in a channel, or in a die of Tier S over all its channels, fails it. -/
def State.unitError (s : State) (tier off : Nat) : State :=
  let u := s.unitOf tier off
  let l := (s.spine.chanErrs.filter (fun e => decide (s.ctl.now < e.2 + Sys2Proof.sec))) ++ [(u, s.ctl.now)]
  let s := s.upSpine (fun x => { x with chanErrs := l })
  let same := fun (v : Nat) => if tier = 0 then v / 64 == u / 64 else v == u
  if (l.filter (fun e => same e.1)).length < 64 then s
  else
    let p := s.place tier off
    if tier = 0 then s.tierSFails p.unit p.channel else s.tierFails tier p.channel

-- Errors (R309 to R312)

/-- A row asks for repair. -/
def State.askRepair (s : State) (tier off : Nat) : State :=
  (s.upSpine (fun x => { x with repairs := addOnce (tier, s.rowOf tier off) x.repairs })).syncRepairs

/-- A corrected error counts against its row. -/
def State.corrected (s : State) (tier off : Nat) : State :=
  let row := s.rowOf tier off
  let l := (s.spine.rowErrs.filter (fun e => decide (s.ctl.now < e.2.2 + 86400 * Sys2Proof.sec))) ++ [(tier, row, s.ctl.now)]
  let s := (s.bump (eccCorr tier) 1).upSpine (fun x => { x with rowErrs := l })
  if (l.filter (fun e => e.1 == tier && e.2.1 == row)).length ≥ s.fld MT_CFG 22 8 then s.askRepair tier off else s

/-- A word is poisoned and recorded (R310). -/
def State.poisonWord (s : State) (tier off : Nat) : State :=
  let w := memKey tier off / 8
  let s := s.bump (eccUncorr tier) 1
  if s.poison.contains w then s
  else (s.addPoison w).fault 3 (srcTier tier) 0x10 (gAddr s.id tier (off / 8 * 8))

/-- An error found on a read, a scrub or the read part of a read-modify-write (R309). -/
def State.readError (s : State) (tier off : Nat) (e : ReadError) : State :=
  if off ≥ s.capacity tier ∨ s.tierOut tier then s
  else
    match e with
    | .single => s.corrected tier off
    | .uncorrectable => ((s.poisonWord tier off).askRepair tier off).unitError tier off
    | .link => if tier = 0 then s else s.bump (linkRetry tier) 1
    | .linkExhausted =>
      if tier = 0 then s
      else
        let base := off / 64 * 64
        (((upTo 8).foldl (fun s i => s.poisonWord tier (base + 8 * i)) s).askRepair tier off).unitError tier off

/-- MT_HPPR_PENDING follows the repair log (R312). -/
def State.logRepair (s : State) (tier row : Nat) : State :=
  if !s.secRuns then s
  else
    let s := s.upFlash (fun f => { f with repairs := addOnce (tier, row) f.repairs })
    s.setFld MT_HPPR_PENDING 0 16 (min s.flash.repairs.length 0xFFFF)

/-- A pending repair runs (R311 to R313): on Tier S while the bank has spare rows, on the others with SPPR_EN and a device that can. -/
def State.repairRow (s : State) (tier off : Nat) (possible : Bool) : State :=
  let row := s.rowOf tier off
  if !(s.spine.repairs.contains (tier, row)) || !s.repairMayStart tier (s.unitOf tier row) then s
  else
    let key := s.unitOf tier row
    let s := (s.upSpine (fun x => { x with
      repairAt := insertBy key s.ctl.now x.repairAt
      repairs := x.repairs.filter (fun r => r != (tier, row)), rowErrs := x.rowErrs.filter (fun e => !(e.1 == tier && e.2.1 == row)) })).syncRepairs
    let addr := gAddr s.id tier row
    let failed := fun (s : State) => (s.bump MT_REPAIR_FAIL 1).fault 2 (srcTier tier) 0x0B addr
    if tier = 0 then
      let bank := tierSBank row
      let used := (lookupBy bank s.spine.spares).getD 0
      if !possible ∨ used ≥ 16 then failed s
      else
        let s := s.upSpine (fun x => { x with spares := insertBy bank (used + 1) x.spares })
        let s := if used + 1 ≥ 14 then s.setFld MS_STATUS 5 1 1 else s
        ((s.bump MT_REPAIR 1).bump MS_REMAP 1).fault 1 (srcTier 0) 0x01 addr
    else
      let s := s.logRepair tier row
      if possible && s.flag MT_CFG 30 then (s.bump MT_REPAIR 1).fault 1 (srcTier tier) 0x01 addr else failed s

-- PHY updates (R304)

/-- An update that is held for a time in ns. -/
def State.phyUpdate (s : State) (tier channel held : Nat) : State :=
  if tier = 0 then s
  else
    let s := if held > s.fld MT_CFG 12 10 then s.bump (overrunCtr tier) 1 else s
    if held > 100000 then s.upSpine (fun x => { x with phyupd := addOnce (tier, channel) x.phyupd }) else s

-- Regulators (R318)

/-- Rated bytes of a tier in 100 ns, per port for Tier S, whose rating scales with its peak below 0.565 G handshakes/s (R297, R316). -/
def State.ratedWindow (s : State) (tier : Nat) : Nat :=
  if tier = 0 then s.reg (MT_RATED 0) * 50 * min (s.fld PW_SPEED 0 16) 565 / 565 else s.reg (MT_RATED tier) * 100

/-- A promised command of a partition has work in a tier: a lower floor waits for it (R319; DEDUCED, log 113). -/
def State.floorHeld (s : State) (tier part : Nat) : Bool :=
  s.cmds.any (fun c => s.ringPart c.ring == part && c.phase != .done &&
    c.work.any (fun w => tierOf w.1 == some tier && decide (w.2 > 0)))

/-- The floor of a partition takes effect at a refill; a lower one once no promised command needs more (R319). -/
def State.takeFloor (s : State) (tier part : Nat) : State :=
  let new := s.fld (MT_REG tier part) 0 10
  if new < s.floorOf tier part && s.floorHeld tier part then s
  else s.upSpine (fun x => { x with floors := insertBy (tier * 16 + part) new x.floors })

/-- One refill of a regulator (R318). -/
def State.refill (s : State) (tier part : Nat) (write : Bool) : State :=
  let rate := s.ratedWindow tier
  let v := s.reg (MT_REG tier part)
  let floor := s.floorOf tier part
  let k := regulator tier part write
  let b := min ((lookupBy k s.spine.buckets).getD 0 + rate * floor / 1000) (bits v 20 12 * 1024)
  s.upSpine (fun x => { x with
    buckets := insertBy k b x.buckets, caps := insertBy k (rate * max (bits v 10 10) floor / 1000) x.caps })

def State.refillAll (s : State) : State :=
  (upTo 16).foldl (fun s p =>
    let s := ((s.takeFloor 0 p).takeFloor 1 p).takeFloor 2 p
    (((s.refill 0 p false).refill 0 p true).refill 1 p false).refill 2 p false) s

-- Temperatures (R321, R322)

/-- REFRESH_2X of Tier C follows the devices that ask for it. -/
def State.syncRefreshC (s : State) : State :=
  let on := b2n (!s.spine.hot2x.isEmpty)
  (s.setFld MC_CHAN_MAP 38 1 on).setFld MC_STATUS 2 1 on

/-- A device reports its temperature. One above its operating range takes its tier out of service, and Tier S with it the block
(R314, R315, R322). -/
def State.deviceTemp (s : State) (tier device temp : Nat) (mult oor : Bool) : State :=
  if tier = 0 then (if oor then s.tierSFails (device % 4) 0 else s)
  else
    let s :=
      if tier = 1 then
        (if device ≥ 2 then s
         else
           let s := s.setFld MF_TEMP (8 * device) 8 (min temp 255)
           let s := s.setFld MF_STATUS 10 1 (b2n (decide (s.stackTemp > 85)))
           if s.powerRuns then s.moveThrottle else s)
      else (s.upSpine (fun x => { x with hot2x := if mult then addOnce device x.hot2x else x.hot2x.filter (· != device) })).syncRefreshC
    -- a Tier F device is a stack: its first pseudo-channel names it
    if oor then s.tierFails tier (if tier = 1 then 32 * (device % 2) else device % 32) else s

-- Scrub (14 R524)

/-- The next word of a tier is scrubbed. -/
def State.scrubWord (s : State) (tier : Nat) (found : Option ReadError) : State :=
  if s.tierOut tier ∨ s.capacity tier = 0 then s
  else
    let pos := (s.spine.scrub[tier]?).getD 0
    let s := s.upSpine (fun x => { x with scrub := x.scrub.set tier ((pos + 8) % s.capacity tier) })
    match found with
    | none => s
    | some e => if s.poison.contains (memKey tier pos / 8) then s else s.readError tier pos e

-- Meanings

/-- A Tier F or Tier C channel fails; Tier S has its own event. -/
def execTierFailure (tier : Fin 3) (channel t : Nat) (s : State) : Out :=
  .next (whenAlive s (fun s =>
    if tier.val = 0 ∨ channel ≥ (if tier.val = 1 then 64 else 32) then s else (s.advance t).tierFails tier.val channel))

def execTierSFailure (die : Fin 4) (channel : Fin 64) (t : Nat) (s : State) : Out :=
  .next (whenAlive s (fun s => (s.advance t).tierSFails die.val channel.val))

def execPhyUpdateRequest (tier : Fin 3) (channel : Fin 64) (held t : Nat) (s : State) : Out :=
  .next (whenAlive s (fun s => (s.advance t).phyUpdate tier.val channel.val held))

/-- An update has held its channel for more than 100 µs (R315). -/
def execPhyUpdateOverrun (tier : Fin 3) (channel : Fin 64) (t : Nat) (s : State) : Out :=
  .next (whenAlive s (fun s =>
    if tier.val = 0 ∨ (tier.val = 2 ∧ channel.val ≥ 32) then s
    else ((s.advance t).upSpine (fun x => { x with phyupd := x.phyupd.filter (· != (tier.val, channel.val)) })).tierFails tier.val channel.val))

/-- A channel turns its bus to write: a batch is full, the oldest write has waited WR_HOLD, or the queue holds three quarters of 256
(R302). -/
def State.turnsToWrite (s : State) (tier : Nat) (q : WriteQueue) : Bool :=
  decide (q.1 ≥ (if tier = 1 then 32 else 16)) || decide (s.ctl.now ≥ q.2 + s.fld MT_CFG 0 12 * 10 * ns) || decide (q.1 ≥ 192)

/-- The bus turns to write and the queue of the channel drains; its bytes were visible already (R301, R302). -/
def execWriteBatchTurn (tier : Fin 3) (channel : Fin 64) (s : State) : Out :=
  .next (whenAlive s (fun s =>
    let key := tier.val * 64 + channel.val
    match lookupBy key s.spine.writeQ with
    | none => s
    | some q => if s.turnsToWrite tier.val q then s.upSpine (fun x => { x with writeQ := eraseBy key x.writeQ }) else s))

def execTierReadError (tier : Fin 3) (offset : Nat) (e : ReadError) (t : Nat) (s : State) : Out :=
  .next (whenAlive s (fun s => (s.advance t).readError tier.val offset e))

def execRowRepair (tier : Fin 3) (offset : Nat) (possible : Bool) (t : Nat) (s : State) : Out :=
  .next (whenAlive s (fun s => (s.advance t).repairRow tier.val offset possible))

/-- Refresh keeps what the tier holds; it takes time only (R322). -/
def execRefresh (_tier : Fin 3) (s : State) : Out := .next s

def execRegulatorRefill (t : Nat) (s : State) : Out := .next (whenAlive s (fun s => (s.advance t).refillAll))

def execDeviceTemperatureReport (tier : Fin 3) (device : Fin 64) (temp : Nat) (multiplier2x outOfRange : Bool) (t : Nat) (s : State) :
    Out :=
  .next (whenAlive s (fun s => (s.advance t).deviceTemp tier.val device.val temp multiplier2x outOfRange))

/-- A controller update or a ZQ latch holds a channel for at most 100 ns and changes nothing that it holds (R304). -/
def execControllerUpdate (_tier : Fin 3) (_channel : Fin 64) (_zq : Bool) (_held : Nat) (s : State) : Out := .next s

def execPatrolScrub (tier : Fin 3) (found : Option ReadError) (t : Nat) (s : State) : Out :=
  .next (whenAlive s (fun s => (s.advance t).scrubWord tier.val found))

end Sys2Proof.Machine
end

