-- ==== Sys2Proof/Machine/CacheCmd.lean ====
section
/-! DEFINITION. Events and registers of the caches (07): fills that arrive, heat decay, ways retired, rotated and disabled, the merging
buffer, and SRAM scrub (14 R525). -/

namespace Sys2Proof.Machine

-- Fills of the Row Cache (R268, R270, R271)

/-- A sector of a fill has come. The fill ends with its last one; when no fill of the line into its way is left, the line is VALID, or
INVALID when nothing of it is, and a miss that waits goes on. -/
def State.fillDone (s : State) (f : RcFill) (b : Nat) : State :=
  let g := { f with arrived := f.arrived ||| b }
  if g.arrived ≠ g.want then s.upCache (fun c => { c with fills := updFirst (· == f) (fun _ => g) c.fills })
  else
    let s := s.upCache (fun c => { c with fills := c.fills.erase f })
    let s :=
      if f.way.isNone || (s.lineFills f.slice f.line).any (fun x => x.way == f.way) then s
      else s.upCache (fun c => { c with
        lines := (c.lines.map (fun x =>
          if x.slice == f.slice && x.tag == f.line && x.st == .filling then { x with st := .valid } else x)).filter
          (fun x => !(x.slice == f.slice && x.tag == f.line && x.st == .valid && x.sectors == 0)) })
    s.runWait f.slice

/-- The sector of a fill is installed: the first one of a new line takes the EVICTING way, with the new tag and FILL_HEAT; one that a
write made stale stays invalid (R262, R268, R270). -/
def State.install (s : State) (f : RcFill) (w good : Nat) : State :=
  let st := rcSet f.line
  match s.rcLineAt f.slice st w with
  | none => s
  | some l =>
    if l.tag = f.line then s.setWay f.slice st w (some { l with sectors := l.sectors ||| good })
    else if l.st = .evicting then
      s.setWay f.slice st w (some { slice := f.slice, set := st, way := w, tag := f.line, sectors := good,
                                    heat := s.fld RC_GLOBAL_CFG 0 6, st := .filling })
    else s

/-- A fill sector arrives: it belongs to the oldest fill that still waits for it. -/
def State.fillSector (s : State) (sl a sector : Nat) : State :=
  let b := 2 ^ sector
  match (s.lineFills sl a).find? (fun f => (f.want &&& b) != 0 && (f.arrived &&& b) == 0) with
  | none => s
  | some f =>
    let good := if f.stale &&& b ≠ 0 then 0 else b
    let s := match f.way with
      | none => s
      | some w => s.install f w good
    s.fillDone f b

/-- Heat of every line is halved (R262). -/
def State.decay (s : State) : State :=
  if s.fld RC_GLOBAL_CFG 6 16 = 0 then s
  else s.upCache (fun c => { c with lines := c.lines.map (fun l => { l with heat := l.heat / 2 }) })

-- Ways of the Row Cache (R273 to R276)

/-- Every line of a way is invalidated; fills meant for it are delivered without a way. -/
def State.emptyWay (s : State) (sl w : Nat) : State :=
  (s.clearWays (fun l => l.slice == sl && l.way == w)).upCache (fun c => { c with
    fills := c.fills.map (fun f => if f.slice == sl && f.way == some w then { f with way := none } else f) })

def State.sliceWays (s : State) (sl : Nat) : SliceWays := (s.cache.ways[sl]?).getD SliceWays.zero

/-- SPARE_USED, and the logical way on the physical way that was spare at reset (R293). -/
def State.syncWays (s : State) (sl : Nat) : State :=
  let x := s.sliceWays sl
  let on := ((upTo 16).find? (fun w => (x.phys[w]?).getD 16 == 16)).getD 0
  (s.setFld (RC_STATUS sl) 1 1 (b2n x.used)).setFld (RC_STATUS sl) 2 4 on

/-- A logical way moves onto the spare physical way. -/
def SliceWays.swap (x : SliceWays) (w : Nat) (used : Bool) : SliceWays :=
  { x with phys := x.phys.set w x.spare, spare := (x.phys[w]?).getD x.spare, used := used, errs := x.errs.set w 0 }

/-- A way is retired: onto the spare, or disabled when the spare is taken (R274). -/
def State.retireWay (s : State) (sl w : Nat) : State :=
  if s.wayOff sl w then s
  else
    let s := s.emptyWay sl w
    if !(s.sliceWays sl).used then
      ((s.upSlice sl (fun x => x.swap w true)).syncWays sl).fault 1 (srcHolm sl) 0x03 (w + sl * 16)
    else (s.setFld (RC_WAY_DISABLE sl) w 1 1).fault 4 (srcHolm sl) 0x20 (w + sl * 16)

/-- An error event of a way counts toward its retirement. -/
def State.wayError (s : State) (sl w : Nat) : State :=
  let n := (((s.sliceWays sl).errs[w]?).getD 0) + 1
  let s := s.upSlice sl (fun x => { x with errs := x.errs.set w n })
  if n ≥ s.fld RC_GLOBAL_CFG 26 8 then s.retireWay sl w else s

/-- The next logical way that is not disabled, after the last one rotated. -/
def State.nextWay (s : State) (sl : Nat) : Option Nat :=
  ((upTo 16).map (fun i => ((s.sliceWays sl).rot + 1 + i) % 16)).find? (fun w => !s.wayOff sl w)

/-- One rotation (R276). The physical way that leaves is tested; one that fails never serves as the spare (14 R538). -/
def State.rotate (s : State) (sl : Nat) (pass : Bool) : State :=
  if s.fld RC_GLOBAL_CFG 34 12 = 0 ∨ (s.sliceWays sl).used ∨ s.coreState (3 + sl) ≠ 0 ∨ !s.holmOnline sl then s
  else
    match s.nextWay sl with
    | none => s
    | some w =>
      let s := s.emptyWay sl w
      let s := s.upSlice sl (fun x => { x.swap w (!pass) with rot := w })
      let s := s.syncWays sl
      if pass then s else s.fault 1 (srcHolm sl) 0x03 (w + sl * 16)

/-- A write of RC_WAY_DISABLE (R275). -/
def State.writeWayDisable (s : State) (sl v : Nat) : State :=
  let old := s.fld (RC_WAY_DISABLE sl) 0 16
  let set := (upTo 16).filter (fun w => bit v w && !bit old w)
  let clear := (upTo 16).filter (fun w => !bit v w && bit old w)
  let s := set.foldl (fun s w => s.emptyWay sl w) s
  let s := clear.foldl (fun s w => s.upSlice sl (fun x => { x with errs := x.errs.set w 0 })) s
  s.setFld (RC_WAY_DISABLE sl) 0 16 v

-- Metadata Cache (R280, R281, R287 to R289)

/-- Every line of a way is invalidated; fills meant for it are delivered without a way. -/
def State.mdEmptyWay (s : State) (w : Nat) : State :=
  s.upCache (fun c => { c with
    md := c.md.filter (fun l => l.way != w)
    mdFills := c.mdFills.map (fun f => if f.way == some w then { f with way := none } else f) })

/-- A way disables itself; the fifth stays and sets LIMIT (R288). -/
def State.mdDisable (s : State) (w : Nat) : State :=
  if s.flag MD_WAY_DISABLE w then s
  else if s.cache.mdSelf.length ≥ 4 then (s.setFld MD_WAY_DISABLE 8 1 1).fault 4 2 0x21 (w + 256)
  else
    let s := (s.mdEmptyWay w).upCache (fun c => { c with mdSelf := addOnce w c.mdSelf })
    (s.setFld MD_WAY_DISABLE w 1 1).fault 4 2 0x21 w

/-- An error event of a way, under scheme 0. -/
def State.mdWayError (s : State) (w : Nat) : State :=
  if s.flag MD_CFG 0 then s
  else
    let n := ((s.cache.mdErrs[w]?).getD 0) + 1
    let s := s.upCache (fun c => { c with mdErrs := c.mdErrs.set w n })
    if n ≥ s.fld MD_CFG 2 8 then s.mdDisable w else s

/-- A fetched line arrives: it is installed in its way, or, when stale, delivered only (R268, R278); an uncorrectable copy is
uncorrectable metadata (R286). -/
def State.mdArrive (s : State) (g : Nat) : State :=
  match s.cache.mdFills.find? (fun f => f.addr == g) with
  | none => s
  | some f =>
    let s := s.upCache (fun c => { c with mdFills := c.mdFills.erase f })
    if s.poisoned (memKey (gTier g) (gOff g)) 64 then s.fault 3 2 0x11 g
    else
      match f.way with
      | none => s
      | some w =>
        if f.stale then s
        else s.upCache (fun c => { c with
          md := { set := mdSet g, way := w, tag := g / 64 } :: c.md.filter (fun l => !(l.set == mdSet g && l.way == w)) })

/-- A write of MD_WAY_DISABLE (R288): ways set are emptied, LIMIT clears on a 1. -/
def State.writeMdDisable (s : State) (v : Nat) : State :=
  let old := s.fld MD_WAY_DISABLE 0 8
  let set := (upTo 8).filter (fun w => bit v w && !bit old w)
  let clear := (upTo 8).filter (fun w => !bit v w && bit old w)
  let s := set.foldl (fun s w => s.mdEmptyWay w) s
  let s := clear.foldl (fun s w => s.upCache (fun c => { c with mdErrs := c.mdErrs.set w 0, mdSelf := c.mdSelf.filter (· != w) })) s
  s.writeFields MD_WAY_DISABLE v

/-- A write of MD_CFG: a change of ERR_SCHEME drains the merging buffer and invalidates the whole cache first (R289). -/
def State.writeMdCfg (s : State) (v : Nat) : State :=
  let s := if !s.locked && bit v 0 != s.flag MD_CFG 0 then s.upCache (fun c => { c with
      mb := [], md := [], mdFills := c.mdFills.map (fun f => { f with stale := true }) })
    else s
  s.writeFields MD_CFG v

-- SRAM scrub (14 R525)

/-- An error in a line of a Row Cache way (R273): corrected in place, or the line goes, or the sector goes and is fetched again for the
request that waits for it. -/
def State.rowCacheError (s : State) (sl st w : Nat) (e : SramError) : State :=
  let here := fun (l : RcLine) => l.slice == sl && l.set == st && l.way == w
  match e with
  | .corrected => s.bump (RC_ECC_CORR sl) 1
  | .read x =>
    let s := s.bump (RC_ECC_UNCORR sl) 1
    match s.cache.lines.find? here with
    | none => s
    | some l =>
      if l.sectors &&& 2 ^ x.val = 0 then s
      else
        let s := s.setWay sl st w (some { l with sectors := l.sectors &&& (0xFFFF - 2 ^ x.val) })
        if l.st = .evicting then s else s.fetch sl l.tag 0 (some w) (2 ^ x.val)
  | _ => (s.bump (RC_ECC_UNCORR sl) 1).dropLines here

/-- An error in a line of a Metadata Cache way (R287): scheme 0 corrects a single-bit error and counts against the way; any other error
invalidates the line, and one of its data has it fetched again. -/
def State.metaCacheError (s : State) (st w : Nat) (e : SramError) : State :=
  if e = .corrected && !s.flag MD_CFG 0 then (s.bump MD_ERR_CORR 1).mdWayError w
  else
    let hit := s.cache.md.filter (fun l => l.set == st && l.way == w)
    let s := s.upCache (fun c => { c with md := c.md.filter (fun l => !(l.set == st && l.way == w)) })
    let s := if e = .tag then (if s.flag MD_CFG 0 then s else s.bump MD_ERR_REFETCH 1)
      else hit.foldl (fun s l => s.mdFetch MdFor.own (l.tag * 64)) (s.bump MD_ERR_REFETCH 1)
    s.mdWayError w

/-- One error in an SRAM array. Arrays 0 to 3 are the slices (index 16 times the set plus the logical way), 4 the Metadata Cache
(8 times the set plus the way), 5 the TLB and 6 the walk cache (position), 7 to 13 the instruction memories of cores 0 to 6. -/
def State.sramError (s : State) (array index : Nat) (e : SramError) (t : Nat) : State :=
  if array < 4 then (s.rowCacheError array (index / 16) (index % 16) e).wayError array (index % 16)
  else if array = 4 then s.metaCacheError (index / 8) (index % 8) e
  else if e = .corrected then s
  else if array = 5 then s.upTu (fun u => { u with tlb := u.tlb.eraseIdx index })
  else if array = 6 then s.upTu (fun u => { u with walks := u.walks.eraseIdx index })
  else if array = 7 then s.haltSecurity
  else if array ≤ 13 then s.restartCore (array - 7) t
  else s

-- Meanings

def execHeatDecaySweep (s : State) : Out := .next (whenAlive s State.decay)

def execFillArrival (slice : Fin 4) (lineNo : Nat) (sector : Fin 16) (s : State) : Out :=
  .next (whenAlive s (fun s => s.fillSector slice.val lineNo sector.val))

def execWayRetire (slice : Fin 4) (way : Fin 16) (t : Nat) (s : State) : Out :=
  .next (whenAlive s (fun s => (s.advance t).retireWay slice.val way.val))

def execSpareRotation (slice : Fin 4) (testPass : Bool) (t : Nat) (s : State) : Out :=
  .next (whenAlive s (fun s => (s.advance t).rotate slice.val testPass))

/-- Scheme 1 never disables a way (R287). -/
def execMdWaySelfDisable (way : Fin 8) (t : Nat) (s : State) : Out :=
  .next (whenAlive s (fun s => if s.flag MD_CFG 0 then s else (s.advance t).mdDisable way.val))

def execMdFill (lineAddr : Word64) (s : State) : Out := .next (whenAlive s (fun s => s.mdArrive lineAddr.toNat))

/-- Entries open for MB_HOLD ns close and are sent (R283). -/
def execMbHoldExpiry (t : Nat) (s : State) : Out :=
  .next (whenAlive s (fun s =>
    let s := s.advance t
    let hold := s.fld MD_CFG 10 8 * ns
    s.upCache (fun c => { c with mb := c.mb.filter (fun e => decide (t < e.opened + hold)) })))

def execSramScrub (array index : Nat) (e : SramError) (t : Nat) (s : State) : Out :=
  .next (whenAlive s (fun s => (s.advance t).sramError array index e t))

/-- Once per second the per-way counts are cleared (R274, R288). -/
def execErrorCountWindowClear (s : State) : Out :=
  .next (whenAlive s (fun s => s.upCache (fun c => { c with
    ways := c.ways.map (fun x => { x with errs := x.errs.map (fun _ => 0) }), mdErrs := c.mdErrs.map (fun _ => 0) })))

def execRcWayDisableWrite (src : Src) (holm : Fin 4) (value : Word64) (s : State) : Out :=
  .next (if s.writable src (RC_WAY_DISABLE holm.val) value.toNat then s.writeWayDisable holm.val (bits value.toNat 0 16) else s)

def execMdWayDisableWrite (src : Src) (value : Word64) (s : State) : Out :=
  .next (if s.writable src MD_WAY_DISABLE value.toNat then s.writeMdDisable value.toNat else s)

def execErrSchemeChange (src : Src) (value : Word64) (s : State) : Out :=
  .next (if s.writable src MD_CFG value.toNat then s.writeMdCfg value.toNat else s)

end Sys2Proof.Machine
end

