-- ==== Sys2Proof/Machine/Spine.lean ====
section
/-! DEFINITION. The Test and Telemetry Spine (14): Holms taken out, tested, returned and failed (01 R24, R25, 07 R260), the fault log's
LOAD, the host-port loop-back, telemetry, fatal causes, background periods, boundary FIFOs (15 R559 to R563), and TK_FAIL_CTRL (12 R470,
R472, R482). -/

namespace Sys2Proof.Machine

-- Holms (01 R24, R25; 14 R528 to R530)

/-- A command has work on a Holm (R24, R25). A look-up or a backward command has it at its home Holm, and on the Holms of its pieces, or, before
they are formed, on any Holm of its order. Any other command has it at its home Holm until its effects begin, and a row command while rows
pass through that Holm (DEDUCED, log 110). -/
def State.onHolm (s : State) (c : Cmd) (h : Nat) : Bool :=
  let d := Desc.of c.desc
  let home := c.order.head? == some h
  c.phase != .done &&
  (if d.isRead || d.isBack then home || (if c.stage = 0 then c.order.contains h else c.pieces.contains h)
   else home && !(s.fab.lb.any (fun b => b.handle == c.handle)) &&
     (c.stage == 0 || d.opc == oRowsRead || (d.opc == oRowsWrite && decide (c.stage < 3))))

/-- No line is held outside the slice that the Holms online give it: with two or more slices out, the alternate of a line moves with their
number, so a line in its old alternate goes (01 R21, 07 R259). A line whose primary slice is returning waits for the walk. Misses that wait
ask again where their line now belongs. -/
def State.rehash (s : State) : State :=
  let off := fun (a sl : Nat) => s.slice a != sl && !s.noAllocate a
  let waits := s.cache.rcWait.filter (fun w => off w.line w.slice)
  let fills := s.cache.fills.filter (fun f => !off f.line f.slice)
  let keep := fun (l : RcLine) =>
    if l.st = .evicting then
      let l := if l.tag != noLine && off l.tag l.slice then { l with tag := noLine, sectors := 0 } else l
      if fills.any (fun f => f.slice == l.slice && f.way == some l.way && rcSet f.line == l.set) then some l
      else if l.tag = noLine then none else some { l with st := .valid }
    else if off l.tag l.slice then none else some l
  let s := s.upCache (fun c => { c with
    lines := c.lines.filterMap keep, fills := fills, rcWait := c.rcWait.filter (fun w => !off w.line w.slice) })
  waits.foldl (fun s w => (s.rcRequest w.line w.part w.want).1) s

/-- The lines and fills of a Holm's slice go; what was written is in the tiers (R24). -/
def State.emptySlice (s : State) (h : Nat) : State :=
  ((s.clearWays (fun l => l.slice == h)).upCache (fun c => { c with fills := c.fills.filter (fun f => f.slice != h) })).rehash

/-- A Holm reports itself offline. -/
def State.holmLeaves (s : State) (h : Nat) : State :=
  ((s.setFld TT_HOLM_CTRL (4 + h) 1 0).setFld (RC_STATUS h) 0 1 0).emptySlice h

/-- The Holm test starts on an offline Holm. -/
def State.startTest (s : State) (h : Nat) : State := if s.holmOnline h then s else s.setFld TT_HOLM_CTRL (20 + h) 1 1

/-- One Holm under a write of TT_HOLM_CTRL: drain, return by test, or TEST. A Holm that still drains is tested once it is offline. -/
def State.writeHolm (s : State) (v h : Nat) : State :=
  let was := s.flag TT_HOLM_CTRL h
  let s :=
    if bit v h then
      (s.setFld TT_HOLM_CTRL h 1 1).upSpine (fun x => { x with returning := x.returning.filter (fun y => y != h) })
    else if was then (s.upSpine (fun x => { x with returning := insertNat h x.returning })).startTest h
    else s
  if !bit v (12 + h) then s
  else if s.holmOnline h then s.setFld TT_HOLM_CTRL 8 1 1
  else s.startTest h

/-- A write of TT_HOLM_CTRL (R529, R530, R543): one that would leave no Holm online is ignored, and ERR is set. -/
def State.writeHolmCtrl (s : State) (v : Nat) : State :=
  if (s.holmsOnline.filter (fun h => !bit v h)).isEmpty then s.setFld TT_HOLM_CTRL 8 1 1
  else
    let s := if bit v 8 then s.setFld TT_HOLM_CTRL 8 1 0 else s
    (upTo 4).foldl (fun s h => s.writeHolm v h) s

/-- A draining Holm without work goes offline (R24, R529). -/
def State.drainHolm (s : State) (h : Nat) : State :=
  if !s.holmOnline h || !s.flag TT_HOLM_CTRL h || s.cmds.any (fun c => s.onHolm c h) then s
  else
    let s := s.holmLeaves h
    if s.spine.returning.contains h then s.startTest h else s

/-- The Holm test ends (R530): a pass starts the return of a Holm whose OFFLINE was cleared. -/
def State.testDone (s : State) (h : Nat) (pass : Bool) : State :=
  if !s.flag TT_HOLM_CTRL (20 + h) then s
  else
    let back := s.spine.returning.contains h
    let s := ((s.setFld TT_HOLM_CTRL (20 + h) 1 0).setFld TT_HOLM_CTRL (16 + h) 1 (b2n pass)).bump TT_HOLM_TEST 1
    let s := s.upSpine (fun x => { x with returning := x.returning.filter (fun y => y != h) })
    if !pass then s.fault 4 (srcHolm h) 0x22 h
    else if !back then s
    else
      ((s.setFld TT_HOLM_CTRL h 1 0).upSpine (fun x => { x with holmFailed := x.holmFailed.filter (fun y => y != h) })).upCache
        (fun c => { c with walking := insertNat h c.walking })

/-- The walk of the other slices is complete: the Holm is online, and its slice takes its lines (07 R260). -/
def State.walkDone (s : State) (h : Nat) : State :=
  if !s.cache.walking.contains h then s
  else
    let s := s.upCache (fun c => { c with walking := c.walking.filter (fun y => y != h) })
    ((s.setFld TT_HOLM_CTRL (4 + h) 1 1).setFld (RC_STATUS h) 0 1 1).rehash

/-- What a failed Holm does to one command (R25). -/
def State.failOnHolm (s : State) (c : Cmd) : State :=
  let d := Desc.of c.desc
  if d.isRead then s.endResume c.handle d.resume
  else if d.isBack then
    (if c.handedOff then s else (if c.stage = 3 then s.abandonSlots c else s).endResume c.handle 0)
  else s.endWith c.handle sAborted

/-- A Holm fails (R25). -/
def State.failHolm (s : State) (h : Nat) : State :=
  if !s.holmOnline h then s
  else
    let hit := s.cmds.filter (fun c => s.onHolm c h)
    let s := (s.setFld TT_HOLM_CTRL h 1 1).fault 4 (srcHolm h) 0x22 h
    let s := s.upSpine (fun x => { x with holmFailed := insertNat h x.holmFailed, returning := x.returning.filter (fun y => y != h) })
    ((hit.foldl (fun s c => s.failOnHolm c) s).holmLeaves h).settle

-- The fault log (R517)

/-- A write of TT_FAULT_CTRL: the record counted back from the newest; free bytes where there is none. -/
def State.writeFaultCtrl (s : State) (v : Nat) : State :=
  let s := s.writeFields TT_FAULT_CTRL v
  if !bit v 8 then s
  else
    let r := match s.spine.faults[bits v 0 8]? with
      | some r => (r.bytes, s)
      | none => s.freeBytes 32
    (upTo 4).foldl (fun s q => s.setReg (TT_FAULT_DATA q) (leAt r.1 (8 * q) 8)) r.2

-- The host-port loop-back (R535)

/-- A write of TT_LB_CTRL. -/
def State.writeLbCtrl (s : State) (v : Nat) : State :=
  if bit v 0 && (s.headless || (upTo 64).any (fun n => s.ringState n != 0)) then s.setFld TT_LB_CTRL 2 1 1
  else
    let active := s.flag TT_LB_CTRL 1
    let s := s.writeFields TT_LB_CTRL v
    if bit v 0 && !active then
      (s.setFld TT_LB_CTRL 1 1 1).upSpine (fun x => { x with h1Left := max 1 (bits v 16 16), h1Count := max 1 (bits v 16 16) })
    else s

/-- A packet turns round: 16 header bytes and the data beats. -/
def State.h1Packet (s : State) (bs : List Byte) : State :=
  if !s.flag TT_LB_CTRL 1 || s.spine.h1Left == 0 then s
  else
    (s.upTu (fun u => { u with hout := u.hout ++ [{ hopc := leAt bs 0 1, tag := leAt bs 2 2, err := bit (leAt bs 1 1) 0, data := bs }] })).upSpine
      (fun x => { x with h1Left := x.h1Left - 1 })

/-- The turnaround ends after COUNT packets. -/
def State.h1Done (s : State) : State :=
  if !s.flag TT_LB_CTRL 1 || s.spine.h1Left != 0 then s
  else
    let s := (s.setFld TT_LB_CTRL 32 16 s.spine.h1Count).setFld TT_LB_CTRL 1 1 0
    (s.upTu (fun u => { u with waits := [] })).settle

-- Background periods (R523)

/-- The unit that a background task belongs to; the manual names none for most of them (DESIGN CHOICE, log 77). -/
def taskSource (task : Nat) : Nat :=
  if task ≤ 1 ∨ task = 3 then 3 else if task = 2 ∨ task = 4 ∨ task = 9 then 4 else if task = 5 then 5 else if task = 6 then 2
  else if task = 7 ∨ task = 11 ∨ task = 15 then 6 else if task = 12 then 20 else if task = 13 then 19 else 22

/-- A task has not finished within its period plus 10 %. -/
def State.taskBehind (s : State) (task : Nat) : State :=
  if task = 0 then s
  else
    let s := if 3 ≤ task ∧ task ≤ 6 then s.setFld TT_SCRUB_STATUS (task - 3) 1 1 else s
    s.fault 2 (taskSource task) 0x0A task

-- Telemetry (R542)

/-- Sum of counters. -/
def State.sumRegs (s : State) (l : List Nat) : Nat := sumOf (l.map s.reg)

/-- The snapshot of 128 bytes; PORTS is a mask, as HOLMS is (DEDUCED, log 95). -/
def State.snapshot (s : State) : List Byte :=
  let b := fun (n v : Nat) => leBytes n (min v (256 ^ n - 1))
  let mask := fun (n : Nat) (p : Nat → Bool) => sumOf ((upTo n).map (fun i => if p i then 2 ^ i else 0))
  let four := fun (f : Nat → Nat) => (upTo 4).map f
  let corr := [MS_ECC_CORR, MF_ECC_CORR, MC_ECC_CORR] ++ four RC_ECC_CORR
  let uncorr := [MS_ECC_UNCORR, MF_ECC_UNCORR, MC_ECC_UNCORR] ++ four RC_ECC_UNCORR
  leBytes 2 (s.id + 2 ^ 15 * b2n s.valid) ++ b 1 (mask 4 s.holmOnline) ++ b 1 (mask 8 s.linkUp) ++ b 2 (s.fld PW_SPEED 0 16) ++
  b 2 (s.fld PW_VDD 0 16) ++ b 1 (s.fld PW_TEMP 0 8) ++ b 1 (maxOf (four (fun i => s.fld MS_TEMP (8 * i) 8))) ++ b 1 s.stackTemp ++
  leBytes 1 (s.reg TT_FAULT_STATUS) ++ b 2 (s.fld NW_LOAD 0 10) ++ b 2 s.spine.power ++ b 4 (s.fld MC_CHAN_MAP 0 32) ++
  b 2 (s.fld FP_FLOWS_OPEN 0 14) ++ b 1 ((upTo 64).filter (fun n => s.ringState n == 1)).length ++ zeros 1 ++ b 8 s.uptime ++
  b 8 s.spine.acceptedAll ++ b 8 (s.sumRegs ((upTo 8).map NW_REFUSE)) ++ b 8 (s.reg NW_MISSED) ++ b 8 (s.sumRegs corr) ++
  b 8 (s.sumRegs uncorr) ++ b 8 (s.sumRegs (four RC_HIT)) ++ b 8 (s.sumRegs (four RC_MISS)) ++ b 8 s.fab.txBytes ++ b 8 s.fab.rxBytes ++
  b 8 (s.reg MT_ADD_APPLIED) ++ b 8 (s.reg TT_FAULT_SEQ) ++ zeros 8

/-- The telemetry tick: the load of the last millisecond is a free value, as the work model's history is not held. -/
def State.sampleTelemetry (s : State) (power : Nat) : State :=
  let r := s.draw
  let s := (r.2.setFld NW_LOAD 0 10 (r.1 % 1001)).upSpine (fun x => { x with power := power })
  s.upSpine (fun x => { x with snap := s.snapshot })

-- Fatal causes (R519)

/-- SOURCE of the record of a fatal cause: the unit that it lies in (DESIGN CHOICE, log 68). -/
def fatalSource (cause : Nat) : Nat :=
  if cause = 0x40 ∨ cause = 0x47 then 2 else if cause = 0x41 then 3 else if cause = 0x42 then srcCore 1
  else if cause = 0x43 then srcCore 2 else if cause = 0x45 then 0 else if cause = 0x46 then 1 else srcCore 0

-- TK_FAIL_CTRL (12 R470, R472, R482)

/-- A write of TK_FAIL_CTRL: triggers are taken while BUSY is clear. -/
def State.writeFailCtrl (s : State) (v : Nat) : State :=
  let busy := s.flag TK_FAIL_CTRL 18
  let s := s.writeFields TK_FAIL_CTRL v
  if busy || !(bit v 16 || bit v 17) then s else (s.failCtrl (bits v 0 15) (bit v 16) (bit v 17)).settle

/-- ACK_WAIT has passed without an answer. -/
def State.failCtrlSilent (s : State) : State :=
  if !s.flag TK_FAIL_CTRL 18 then s
  else
    let s := (s.setFld TK_FAIL_CTRL 18 1 0).setFld TK_FAIL_CTRL 20 1 1
    let mine := (s.tab.served.filter (fun v => v.src == s.id && mType v.msg == 0x1A)).map (fun v => v.id)
    let s := s.upTab (fun t => { t with served := t.served.filter (fun v => !mine.contains v.id) })
    s.upFab (fun f => { f with xchg := f.xchg.filter (fun x =>
      !((x.kind == .declare || x.kind == .query) && (x.handle == noHandle.toNat || mine.contains x.handle))) })

-- Meanings

def execHolmOfflineWrite (src : Src) (value : Word64) (s : State) : Out :=
  .next (if s.writable src TT_HOLM_CTRL value.toNat then s.writeHolmCtrl value.toNat else s)

def execHolmTest (src : Src) (value : Word64) (s : State) : Out :=
  .next (if s.writable src TT_HOLM_CTRL value.toNat then s.writeHolmCtrl value.toNat else s)

def execHolmDrained (holm : Fin 4) (s : State) : Out := .next (whenAlive s (fun s => s.drainHolm holm.val))

def execHolmTestDone (holm : Fin 4) (pass : Bool) (t : Nat) (s : State) : Out :=
  .next (whenAlive s (fun s => (s.advance t).testDone holm.val pass))

def execSliceReturnWalkDone (holm : Fin 4) (s : State) : Out := .next (whenAlive s (fun s => s.walkDone holm.val))

def execHolmFailure (holm : Fin 4) (t : Nat) (s : State) : Out := .next (whenAlive s (fun s => (s.advance t).failHolm holm.val))

def execFaultLoad (src : Src) (value : Word64) (s : State) : Out :=
  let v := value.toNat ||| 2 ^ 8
  .next (if s.writable src TT_FAULT_CTRL v then s.writeFaultCtrl v else s)

def execArm (src : Src) (value : Word64) (s : State) : Out :=
  let v := value.toNat ||| 1
  .next (if s.writable src TT_LB_CTRL v then s.writeLbCtrl v else s)

def execH1TurnaroundPacket (words : List Byte) (s : State) : Out := .next (whenAlive s (fun s => s.h1Packet words))

def execH1TurnaroundDone (s : State) : Out := .next (whenAlive s State.h1Done)

def execBackgroundTaskBehind (task : Fin 16) (t : Nat) (s : State) : Out :=
  .next (whenAlive s (fun s => (s.advance t).taskBehind task.val))

def execTelemetrySample (power t : Nat) (s : State) : Out :=
  .next (whenAlive s (fun s => (s.advance t).sampleTelemetry power |>.owedNotify))

/-- A fatal cause of R519; one during a stop only adds its record (R520). -/
def execFatalStop (cause : BitVec 16) (detail : Word64) (t : Nat) (s : State) : Out :=
  .next (if (s.alive || s.ctl.life == .stopped) && decide (0x40 ≤ cause.toNat ∧ cause.toNat ≤ 0x49) then
    (s.advance t).fatal cause.toNat detail.toNat (fatalSource cause.toNat) else s)

/-- The reference clock has been without an edge for `gap` ns (R519, 15 R545). -/
def execRefClkLost (gap t : Nat) (s : State) : Out :=
  .next (if (s.alive || s.ctl.life == .stopped) && decide (gap > 2000) then
    (s.advance t).fatal 0x49 (min gap (2 ^ 64 - 1)) (srcCore 0) else s)

/-- A partial packet has been held beyond the stall limit (15 R561). -/
def execPacketStallRewind (_edge : Fin 8) (s : State) : Out :=
  .next (if s.ctl.life == .inReset then s else s.bump TT_BF_STALL 1)

/-- A bad packet is rewound (15 R560); on the fabric's edge it counts against its port (09 R371). -/
def execBadPacketRewind (edge : Fin 8) (port : Option (Fin 8)) (s : State) : Out :=
  .next (if s.ctl.life == .inReset then s
    else
      let s := s.bump TT_BF_REWIND 1
      match port with
      | some k => if edge.val = 4 then s.bump (FP_PORT_CTR k.val 2) 1 else s
      | none => s)

/-- A clocked reader reads an empty FIFO (15 R563). -/
def execEmptyFifoRead (edge : Fin 8) (s : State) : Out :=
  .next (if s.ctl.life == .inReset then s else s.setFld TT_BF_STATUS edge.val 1 1)

/-- Replies to REG messages are kept for two seconds (09 R353). -/
def execRegReplyRetentionExpiry (t : Nat) (s : State) : Out :=
  .next (whenAlive s (fun s =>
    (s.advance t).upFab (fun f => { f with regReplies := f.regReplies.filter (fun x => decide (t < x.2.2.2 + 2 * Sys2Proof.sec)) })))

/-- The instruction of a code (R539). -/
def wrapOf (code : Nat) : WrapInstr :=
  if code = 1 then .extest else if code = 2 then .clamp else if code = 3 then .safe else if code = 4 then .mbist
  else if code = 5 then .ijtag else if code = 8 then .intest else .bypass

/-- INTEST is allowed only while the block is held in reset (R539). -/
def execWrapperInstructionUpdate (code : BitVec 4) (s : State) : Out :=
  .next (if wrapOf code.toNat = .intest ∧ s.ctl.life ≠ .inReset then s else s.upCtl (fun c => { c with wrap := wrapOf code.toNat }))

def execDeclare (src : Src) (value : Word64) (t : Nat) (s : State) : Out :=
  let v := value.toNat ||| 2 ^ 16
  .next (if s.writable src TK_FAIL_CTRL v then (s.advance t).writeFailCtrl v else s)

def execQuery (src : Src) (value : Word64) (t : Nat) (s : State) : Out :=
  let v := value.toNat ||| 2 ^ 17
  .next (if s.writable src TK_FAIL_CTRL v then (s.advance t).writeFailCtrl v else s)

def execFailCtrlNoAnswer (t : Nat) (s : State) : Out := .next (whenAlive s (fun s => (s.advance t).failCtrlSilent))

end Sys2Proof.Machine
end

