-- ==== Sys2Proof/Machine/TransCmd.lean ====
section
/-! DEFINITION. The commands of the Translation Unit and of the host port (11 R405 to R411, R423, R424, R430 to R435, R440; 15 R547 to
R551), and the route table's accesses (09 R335). -/

namespace Sys2Proof.Machine

/-- The 8-byte words of an entry in its data registers. -/
def State.loadWords (s : State) (reg : Nat → Nat) (n : Nat) (bs : List Byte) : State :=
  (upTo n).foldl (fun s q => s.setReg (reg q) (leAt bs (8 * q) 8)) s

/-- The bytes that the data registers hold. -/
def State.storeWords (s : State) (reg : Nat → Nat) (n : Nat) : List Byte := ((upTo n).map (fun q => leBytes 8 (s.reg (reg q)))).flatten

-- Context table (R405 to R408)

/-- A STORE would take a context, or its pointer mode, away from a ring that is ATTACHED or DETACHING (R408). -/
def State.ctxInUse (s : State) (c flags : Nat) : Bool :=
  (upTo 64).any (fun n => s.ringCtx n == c && (s.ringState n == 1 || s.ringState n == 2) &&
    (!bit flags 0 || !bit flags (if s.ptrGlobal n then 2 else 1)))

/-- STORE in TU_CTX_CTRL (R406, R408). -/
def State.storeCtx (s : State) (c : Nat) : State :=
  let e := s.storeWords TU_CTX_DATA 4
  if c = 0 then s
  else if s.ctxInUse c (leAt e 8 1) then s.setFld TU_STATUS 0 1 1
  else
    let moved := decide (leAt (s.ctxEntry c) 0 8 ≠ leAt e 0 8)
    let s := s.upTu (fun u => { u with ctxs := insertBy c e u.ctxs })
    if moved then s.addShoot { scope := .context c, htag := none, silent := true } else s

/-- A write of TU_CTX_CTRL; LOAD follows STORE when both are written. -/
def State.writeCtxCtrl (s : State) (v : Nat) : State :=
  let s := s.writeFields TU_CTX_CTRL v
  let c := bits v 0 16
  let s := if bit v 17 then s.storeCtx c else s
  if bit v 16 then s.loadWords TU_CTX_DATA 4 (s.ctxEntry c) else s

-- Window table (R410, R411)

/-- A write of TU_WIN_CTRL. -/
def State.writeWinCtrl (s : State) (v : Nat) : State :=
  let s := s.writeFields TU_WIN_CTRL v
  let i := bits v 0 8
  let s := if bit v 17 then s.upTu (fun u => { u with wins := insertBy i (s.storeWords TU_WIN_DATA 2) u.wins }) else s
  if bit v 16 then s.loadWords TU_WIN_DATA 2 ((lookupBy i s.tu.wins).getD (zeros 16)) else s

-- Shoot-downs (R423, R424)

/-- The scope that an address and a control word name. -/
def scopeOf (scope ctx vpn npages : Nat) : SdScope :=
  if scope = 0 then .pages ctx vpn npages else if scope = 1 then .context ctx else .all

/-- A write of TU_INV_CTRL: SCOPE 3 is not taken, and GO is ignored while BUSY is set. -/
def State.writeInvCtrl (s : State) (v : Nat) : State :=
  let v := if bits v 0 2 = 3 then setBits v 0 2 (s.fld TU_INV_CTRL 0 2) else v
  let busy := s.flag TU_INV_CTRL 19
  let s := s.writeFields TU_INV_CTRL v
  if bit v 18 && !busy then
    (s.setFld TU_INV_CTRL 19 1 1).addShoot
      { scope := scopeOf (bits v 0 2) (s.fld TU_INV_ADDR 36 16) (s.fld TU_INV_ADDR 0 36) (bits v 2 16 + 1), htag := none,
        silent := false }
  else s

/-- An INV packet (15 R547): a reserved scope is a bad packet, and a ninth one stays in the FIFO. -/
def State.recvInv (s : State) (tag ctx a : Nat) : State :=
  if !s.hostPort then s
  else if bits a 52 2 = 3 then s.bump TT_BF_REWIND 1
  else
    let x : Shoot := { scope := scopeOf (bits a 52 2) ctx (bits a 0 36) (bits a 36 16 + 1), htag := some tag, silent := false }
    if (s.tu.shoots.filter (fun x => x.htag.isSome)).length ≥ 8 then s.upTu (fun u => { u with heldInvs := u.heldInvs ++ [x] })
    else s.addShoot x

/-- The transfers in scope have drained: entries go, acknowledgements leave, and what waited walks afresh. -/
def State.shotDown (s : State) : State :=
  if s.tu.shoots.isEmpty then s else (s.drainShoots.upTu (fun u => { u with waits := [] })).settle

-- Page migration (R430 to R432, R435)

/-- The level-0 entry of a page, when the levels above lead to one. -/
def State.pteFrom (s : State) (va table : Nat) : Nat → Option Nat
  | 0 => some (table + 8 * vaIndex va 0)
  | lvl + 1 =>
    let e := s.numAt (memKey 3 (table + 8 * vaIndex va (lvl + 1))) 8
    if !bit e 0 || bit e 1 || bits e 46 10 != 0 then none else s.pteFrom va (bits e 12 34 * 4096) lvl

/-- The address and value of a page's level-0 entry. -/
def State.pteOf (s : State) (ctx vpn : Nat) : Option (Nat × Nat) :=
  (s.pteFrom (vpn * 4096) (s.ctxRoot ctx) 3).map (fun a => (a, s.numAt (memKey 3 a) 8))

/-- Tier and offset of a frame, and its aperture address (R417, R430). -/
def State.frameAt (s : State) (i : Nat) : Nat × Nat := (s.fld TU_MIG_REGION 46 3, s.fld TU_MIG_REGION 0 46 + 4096 * i)
def State.frameAperture (s : State) (i : Nat) : Nat := s.fld TU_APERTURE 0 46 + (s.frameAt i).1 * 2 ^ 39 + (s.frameAt i).2

/-- A free frame. -/
def State.freeFrame (s : State) : Option Nat :=
  if !s.flag TU_APERTURE 63 then none
  else (upTo (min (s.reg TU_MIG_PAGES) (s.tu.frames.length + 1))).find? (fun i => !(s.tu.frames.any (fun f => f.1 == i)))

/-- A compare-and-swap of a page-table entry on the host port; the cached copy changes with it (R431). -/
def State.casPte (s : State) (a new : Nat) : State :=
  let k := memKey 3 a
  (s.hostPacket 0x04 0 a 8 (s.bytesAt k 8) none noHandle.toNat).putMeta k (leBytes 8 new)

/-- A migration ends: what asked for it is told. -/
def State.endMigration (s : State) (ctx vpn : Nat) (pull : Bool) : State :=
  let s := s.upTu (fun u => { u with migs := u.migs.filter (fun m => !(m.1 == ctx && m.2.1 == vpn)) })
  if pull then s.setFld TU_MIG_CTRL 54 1 0 else s

/-- One migration by the scheduler core. -/
def State.migratePage (s : State) (ctx vpn : Nat) : State :=
  match s.tu.migs.find? (fun m => m.1 == ctx && m.2.1 == vpn) with
  | none => s
  | some m =>
    if s.fld (CC_CORE 2) 2 2 ≠ 0 ∨ !s.hostPort then s
    else
      let s := s.endMigration ctx vpn m.2.2
      match s.pteOf ctx vpn with
      | none => s.bump TU_MIG_ABANDON 1
      | some (a, e) =>
        if bit e 0 || !bit e 5 then s.bump TU_MIG_ABANDON 1
        else
          match s.freeFrame with
          | none => (s.casPte a (setBits (setBits e 0 1 1) 5 1 0)).bump TU_MIG_FULL 1
          | some i =>
            let src := bits e 12 34 * 4096
            let fr := s.frameAt i
            let s := ((s.hostRead 0 src 4096 none noHandle.toNat).putData (memKey fr.1 fr.2) (s.bytesAt (memKey 3 src) 4096)).upTu
              (fun u => { u with frames := u.frames ++ [(i, ctx, vpn, src)] })
            (s.casPte a (setBits (setBits (setBits e 0 1 1) 5 1 0) 12 34 (bits (s.frameAperture i) 12 34))).bump TU_MIG 1

/-- PULL: the page must be as R432 leaves it. -/
def State.pullPage (s : State) (ctx vpn : Nat) : State :=
  match s.pteOf ctx vpn with
  | none => s.setFld TU_STATUS 1 1 1
  | some (_, e) =>
    if bit e 0 || !bit e 5 || !s.hostPort then s.setFld TU_STATUS 1 1 1
    else
      (s.setFld TU_MIG_CTRL 54 1 1).upTu (fun u => { u with
        migs := u.migs.filter (fun m => !(m.1 == ctx && m.2.1 == vpn)) ++ [(ctx, vpn, true)] })

/-- RELEASE: back to host memory. -/
def State.releasePage (s : State) (ctx vpn : Nat) : State :=
  match s.tu.frames.find? (fun f => f.2.1 == ctx && f.2.2.1 == vpn), s.pteOf ctx vpn with
  | some (i, _, _, orig), some (a, e) =>
    if bit e 0 || !bit e 5 || bits e 12 34 != bits (s.frameAperture i) 12 34 || !s.hostPort then s.setFld TU_STATUS 1 1 1
    else
      let s := s.upTu (fun u => { u with
        tlb := u.tlb.filter (fun x => !scopeCovers (.pages ctx vpn 1) x.ctx x.vpn x.size)
        frames := u.frames.filter (fun f => f.1 != i) })
      let fr := s.frameAt i
      let s := s.hostWrite 0 orig (s.bytesAt (memKey fr.1 fr.2) 4096) none noHandle.toNat
      s.casPte a (setBits (setBits (setBits e 0 1 1) 5 1 0) 12 34 (bits orig 12 34))
  | _, _ => s.setFld TU_STATUS 1 1 1

/-- A write of TU_MIG_CTRL: PULL and RELEASE are ignored while BUSY is set. -/
def State.writeMigCtrl (s : State) (v : Nat) : State :=
  let busy := s.flag TU_MIG_CTRL 54
  let s := s.writeFields TU_MIG_CTRL v
  let ctx := bits v 36 16
  let vpn := bits v 0 36
  if busy then s
  else if bit v 52 then s.pullPage ctx vpn
  else if bit v 53 then s.releasePage ctx vpn
  else s

-- The host port (15 R548 to R551)

def State.hostOut (s : State) (hopc tag : Nat) (err : Bool) (data : List Byte) : State :=
  s.upTu (fun u => { u with hout := u.hout ++ [{ hopc := hopc, tag := tag, err := err, data := data }] })

/-- SNP_INV: the line leaves the Metadata Cache (07 R278). -/
def State.snoop (s : State) (tag a : Nat) : State :=
  if !s.hostPort then s
  else (s.mdFlush (gAddr s.id 3 (bits a 0 46 / 64 * 64)) 64).hostOut 0xA0 tag false []

/-- An error response is a denial (11 R412, R413): a write or an atomic operation has had no effect, a walk leaves no translation, a
ring's structure fails under 03 R146, and the command served ends. -/
def State.hostError (s : State) (x : HReq) : State :=
  let s := s.bump TU_DENY 1
  let s := if x.old.isEmpty then s else s.putData (memKey 3 x.addr) x.old
  let s := s.upTu (fun u => { u with tlb := u.tlb.filter (fun e =>
    !(e.ctx == x.ctx && decide (x.addr ≤ e.pte ∧ e.pte < x.addr + x.len))) })
  let s := match x.ring with
    | some n => s.faultRing n
    | none => s
  match s.cmd? x.handle with
  | some _ => s.endFault x.handle sDenied 0
  | none => s

/-- The response of a request; one that nothing waits for is discarded. -/
def State.hostAnswered (s : State) (tag : Nat) (err : Bool) : State :=
  match s.tu.hreqs.find? (fun x => x.tag == tag) with
  | none => s
  | some x =>
    let s := s.upTu (fun u => { u with hreqs := u.hreqs.eraseP (fun y => y.tag == tag) })
    if err then (s.hostError x).settle else s

/-- The response of a host-port request, and what it lets go on. -/
def State.hostResponse (s : State) (tag : Nat) (err : Bool) : State :=
  let id := ((s.tu.hreqs.find? (fun x => x.tag == tag)).map (fun x => x.handle)).getD 0
  let s := s.hostAnswered tag err
  if id < 2 ^ 32 then s
  else
    let id := id - 2 ^ 32
    (if err then s.upTab (fun t => { t with served := t.served.map (fun v => if v.id == id then { v with left := sDenied } else v) }) else s).closeHost id

/-- A core's access in the tier aperture (11 R440, 15 R550). -/
def State.aperture (s : State) (write : Bool) (tag off len : Nat) (data : List Byte) : State :=
  let tier := off / 2 ^ 39
  let o := off % 2 ^ 39
  if !s.hostPort then s
  else if len = 0 ∨ off / 64 ≠ (off + len - 1) / 64 ∨ tier ≥ 3 ∨ o + len > s.capacity tier ∨ s.tierOut tier ∨
      !s.flag TU_APERTURE 63 then s.hostOut 0x90 tag true []
  else if write then (s.putData (memKey tier o) (fitTo len data)).hostOut 0x90 tag false []
  else if s.poisoned (memKey tier o) len then s.hostOut 0x90 tag true []
  else s.hostOut 0x90 tag false (s.bytesAt (memKey tier o) len)

-- The route table (09 R335)

/-- STORE in FP_ROUTE_CTRL: DOWN and FAILED stay; a clear VALID closes the partner's flows. -/
def State.storeRoute (s : State) (b : Nat) : State :=
  let e := s.storeWords FP_ROUTE_DATA 4
  let old := s.route b
  let fl := setBits (leAt e 7 1) 2 2 (bits (leAt old 7 1) 2 2)
  let s := s.upFab (fun f => { f with routes := insertBy b (e.take 7 ++ leBytes 1 fl ++ e.drop 8) f.routes })
  if bit (leAt old 7 1) 0 && !bit fl 0 then ((s.closeFlows b).failXchgs b).settle
  else
    (s.fab.flows.filter (fun f => f.partner == b && !(match f.port with
      | some k => (s.usable b f.badPorts).contains k
      | none => false))).foldl (fun s f => s.moveFlow f.partner f.lane) s

/-- A write of FP_ROUTE_CTRL. -/
def State.writeRouteCtrl (s : State) (v : Nat) : State :=
  let s := s.writeFields FP_ROUTE_CTRL v
  let b := bits v 0 15
  let s := if bit v 17 then s.storeRoute b else s
  if bit v 16 then s.loadWords FP_ROUTE_DATA 4 (s.route b) else s

-- Meanings

def execCtxLoad (src : Src) (value : Word64) (s : State) : Out :=
  let v := value.toNat ||| 2 ^ 16
  .next (if s.writable src TU_CTX_CTRL v then s.writeCtxCtrl v else s)

def execCtxStore (src : Src) (value : Word64) (s : State) : Out :=
  let v := value.toNat ||| 2 ^ 17
  .next (if s.writable src TU_CTX_CTRL v then s.writeCtxCtrl v else s)

def execWinLoad (src : Src) (value : Word64) (s : State) : Out :=
  let v := value.toNat ||| 2 ^ 16
  .next (if s.writable src TU_WIN_CTRL v then s.writeWinCtrl v else s)

def execWinStore (src : Src) (value : Word64) (s : State) : Out :=
  let v := value.toNat ||| 2 ^ 17
  .next (if s.writable src TU_WIN_CTRL v then s.writeWinCtrl v else s)

def execPull (src : Src) (value : Word64) (s : State) : Out :=
  let v := value.toNat ||| 2 ^ 52
  .next (if s.writable src TU_MIG_CTRL v then s.writeMigCtrl v else s)

def execRelease (src : Src) (value : Word64) (s : State) : Out :=
  let v := setBits value.toNat 52 2 2
  .next (if s.writable src TU_MIG_CTRL v then s.writeMigCtrl v else s)

def execPageMigration (ctx : BitVec 16) (vpn : BitVec 36) (s : State) : Out :=
  .next (whenAlive s (fun s => s.migratePage ctx.toNat vpn.toNat))

def execShootDownGo (src : Src) (value : Word64) (s : State) : Out :=
  let v := value.toNat ||| 2 ^ 18
  .next (if s.writable src TU_INV_CTRL v then s.writeInvCtrl v else s)

def execInv (htag ctx : BitVec 16) (addr : Word64) (s : State) : Out :=
  .next (whenAlive s (fun s => s.recvInv htag.toNat ctx.toNat addr.toNat))

def execShootDownDrained (s : State) : Out := .next (whenAlive s State.shotDown)

def execSnpInv (htag : BitVec 16) (addr : Word64) (s : State) : Out :=
  .next (whenAlive s (fun s => s.snoop htag.toNat addr.toNat))

/-- A response is taken unless H1 turns it round (14 R535). -/
def execHostResponse (htag : Nat) (err : Bool) (s : State) : Out :=
  .next (whenAlive s (fun s => if s.flag TT_LB_CTRL 1 then s else s.hostResponse htag err))

/-- A request without a response for 10 µs ends as an error response (15 R551). -/
def execHostRequestTimeout (htag : Nat) (s : State) : Out :=
  .next (whenAlive s (fun s =>
    if s.tu.hreqs.any (fun x => x.tag == htag) then (s.bump TT_HP_TIMEOUT 1).hostResponse htag true else s))

def execApertureAccess (write : Bool) (htag : BitVec 16) (off len : Nat) (data : List Byte) (s : State) : Out :=
  .next (whenAlive s (fun s => s.aperture write htag.toNat off len data))

def execRouteLoad (src : Src) (value : Word64) (s : State) : Out :=
  let v := value.toNat ||| 2 ^ 16
  .next (if s.writable src FP_ROUTE_CTRL v then s.writeRouteCtrl v else s)

def execRouteStore (src : Src) (value : Word64) (s : State) : Out :=
  let v := value.toNat ||| 2 ^ 17
  .next (if s.writable src FP_ROUTE_CTRL v then s.writeRouteCtrl v else s)

/-- The host link comes up or goes down: accesses that waited for it go on (15 R551). -/
def execHpLinkUpChange (up : Bool) (s : State) : Out :=
  let s := s.upCtl (fun c => { c with hpLinkUp := up })
  .next (if up then whenAlive s (fun s => (s.upTu (fun u => { u with waits := [] })).settle) else s)

end Sys2Proof.Machine
end

