-- ==== Sys2Proof/Machine/RegWrite.lean ====
section
/-! DEFINITION. Writes of the register window (16 R571 to R590) with what each register's own rules add, ring control (03 R143 to R146),
and the register accesses of Strait (09 R353, R361). -/

namespace Sys2Proof.Machine

-- Registers whose writes obey more than their access codes

/-- A field keeps its value unless a condition holds for the new one. -/
def keepField (old v lo w : Nat) (ok : Nat → Bool) : Nat := if ok (bits v lo w) then v else setBits v lo w (bits old lo w)

/-- A write of RF_RING_CTRL: DETACH before ATTACH when both are written (03 R144, R146). -/
def State.writeRingCtrl (s : State) (n v : Nat) : State :=
  if bit v 1 then (s.detachRing n (bit v 2)).settle
  else if bit v 0 then s.attachRing n (bits v 8 8) (bits v 16 8)
  else s

/-- Bytes that the receive side holds: partial messages and messages not yet worked on (09 R377). -/
def State.rxUse (s : State) : Nat :=
  sumOf (s.fab.flows.map (fun f => sumOf (f.partials.map (fun p => p.2.length)))) + sumOf (s.fab.inbox.map (fun m => m.bytes.length))

/-- Bytes of the staging area in use (09 R355). -/
def State.stageUse (s : State) : Nat := sumOf (s.fab.stage.map (fun x => x.2.2))

/-- A write of FP_BUF_CFG (09 R347, R377). -/
def State.writeBufCfg (s : State) (v : Nat) : State :=
  let old := s.reg FP_BUF_CFG
  let roomy := fun (use : Nat) (mib : Nat) => decide (use ≤ mib * 2 ^ 20)
  let v := keepField old v 0 16 (fun x => decide (260 ≤ x))
  let v := keepField old v 32 12 (roomy s.rxUse)
  let v := keepField old v 44 12 (roomy s.txUse)
  s.writeFields FP_BUF_CFG (keepField old v 56 8 (roomy s.stageUse))

/-- A write of FP_PORT_CFG_k: a port whose ENABLE clears leaves service (09 R367). -/
def State.writePortCfg (s : State) (k v : Nat) : State :=
  let s := s.writeFields (FP_PORT_CFG k) v
  if s.flag (FP_PORT_CFG k) 0 then s else s.portLeaves k 6 false

/-- A write of MT_REG_t_p: the floors of a tier reach 970 per mille at most (08 R318). -/
def State.writeMtReg (s : State) (t p v : Nat) : State :=
  let others := sumOf (((upTo 16).filter (fun q => q != p)).map (fun q => s.fld (MT_REG t q) 0 10))
  if others + bits v 0 10 > 970 then s.setFld MT_STATUS 0 1 1 else s.writeFields (MT_REG t p) v

/-- A write of MC_MAPOUT is copied to the flash log (14 R531). -/
def State.writeMapout (s : State) (v : Nat) : State :=
  let s := s.writeFields MC_MAPOUT v
  s.upFlash (fun f => { f with mapout := s.fld MC_MAPOUT 0 32 })

/-- A write of a register that shrinks an area is taken while the area still holds what is in it (06 R256). -/
def State.writeSize (s : State) (off w v used : Nat) : State := if bits v 0 w < used then s else s.writeFields off v

/-- The register array element that an offset is. -/
def indexIn (base n stride off : Nat) : Option Nat :=
  if base ≤ off ∧ off < base + n * stride ∧ (off - base) % stride = 0 then some ((off - base) / stride) else none

/-- Ring structures and RF_RING_CFG change only while the ring is DETACHED (03 R143). -/
def ringGuarded (n off : Nat) : Bool :=
  off == RF_SQ_BASE n || off == RF_AQ_BASE n || off == RF_CQ_BASE n || off == RF_CFG n || off == RF_NOTIFY_ADDR n

/-- A write of a register of an array; `t` is the tier that a tier register would belong to. -/
def State.writeIndexed (s : State) (off v t : Nat) : State :=
  match indexIn (CC_CORE 0) 7 8 off with
  | some c => s.writeCore c v s.ctl.now
  | none => match indexIn (RC_WAY_DISABLE 0) 4 0x4000 off with
    | some h => s.writeWayDisable h v
    | none => match indexIn (FP_PORT_CFG 0) 8 8 off with
      | some k => s.writePortCfg k v
      | none => match indexIn (MT_REG t 0) 16 8 off with
        | some p => if t < 3 ∧ MT_REG 0 0 ≤ off then s.writeMtReg t p v else s.writeFields off v
        | none => s.writeFields off v

/-- A write of the register at an offset, from a source that may make it. -/
def State.writeReg (s : State) (off v : Nat) : State :=
  match ringOfOff off with
  | some n =>
    if off = RF_CTRL n then s.writeRingCtrl n v
    else if ringGuarded n off && s.ringState n != 0 then s
    else s.writeFields off v
  | none =>
    if off = CC_SETUP_LOCK then (if bit v 0 then s.setLock else s)
    else if off = CC_STOP then s.writeStop v
    else if off = NW_CFG then s.writeFields off (keepField (s.reg off) v 8 10 (fun x => decide (x ≤ 500)))
    else if off = MD_CFG then s.writeMdCfg v
    else if off = MD_WAY_DISABLE then s.writeMdDisable v
    else if off = MD_LFSR then (if bits v 0 16 = 0 then s else s.writeFields off v)
    else if off = MT_ORD_POOL_SIZE then s.writeSize off 46 v (s.fld MT_ORD_POOL_USED 0 46)
    else if off = MT_JOURNAL_SIZE then s.writeSize off 32 v (s.fld MT_JOURNAL_USED 0 32)
    else if off = MC_MAPOUT then s.writeMapout v
    else if off = FP_BUF_CFG then s.writeBufCfg v
    else if off = FP_ROUTE_CTRL then s.writeRouteCtrl v
    else if off = TU_CTX_CTRL then s.writeCtxCtrl v
    else if off = TU_WIN_CTRL then s.writeWinCtrl v
    else if off = TU_MIG_CTRL then s.writeMigCtrl v
    else if off = TU_INV_CTRL then s.writeInvCtrl v
    else if off = TK_FAIL_CTRL then s.writeFailCtrl v
    else if off = PW_CAP then (if 90 ≤ bits v 0 8 ∧ bits v 0 8 ≤ 200 then s.writeFields off v else s)
    else if off = SE_MBOX_CTRL then s.writeMbox v
    else if off = TT_FAULT_CTRL then s.writeFaultCtrl v
    else if off = TT_HOLM_CTRL then s.writeHolmCtrl v
    else if off = TT_LB_CTRL then s.writeLbCtrl v
    else if off = CC_BLOCK_ID ∨ (indexIn (TK_REGISTRY 0) 8 8 off).isSome then (s.writeFields off v).syncTk
    else s.writeIndexed off v ((off - MT_REG 0 0) / 0x80)

-- Reads with effect

/-- A source may read registers: the network while WS_IJTAG opens it (14 R539, R540), the others outside recovery mode, a block by its level (09 R361, 16 R572, R573). -/
def State.readable (s : State) (src : Src) : Bool :=
  match s.ctl.life, src with
  | .inReset, _ => false
  | _, .jtag => s.ctl.wrap == .ijtag
  | .recovery, _ => false
  | _, .host => !s.headless && !s.flag TT_LB_CTRL 1
  | .alive, .reg b => s.raLevel b ≥ 1
  | .stopped, .reg _ => false
  | _, _ => true

/-- A read of RF_RING_STATUS clears DB_ERR (03 R143). -/
def State.readStatus (s : State) (n : Nat) : State := s.setFld (RF_STATUS n) 10 16 0

/-- The effect of a read: the value, and what reading clears. -/
def State.readEffect (s : State) (off : Nat) : State × Nat :=
  match ringOfOff off with
  | some n => if off = RF_STATUS n then (s.readStatus n, s.reg off) else (s, s.readReg off)
  | none => (s, s.readReg off)

-- Strait register accesses (09 R353, R361)

/-- A word of the doorbell window (03 R100). -/
def State.doorbellWord (s : State) (off : Nat) : Nat :=
  let r := s.ring (off / 4096)
  if off ≥ 2 ^ 18 then 0
  else if off % 4096 = 0 then r.tail
  else if off % 4096 = 8 then r.head
  else if off % 4096 = 0x10 then r.cqHead
  else if off % 4096 = 0x18 then r.cqTail
  else 0

/-- One entry of a REG message: its effect and the value read; none when it is denied. -/
def State.regEntry (s : State) (src : Nat) (e : List Byte) : Option (State × List Byte) :=
  let off := leAt e 0 4
  let v := leAt e 8 8
  let write := leAt e 5 1 == 1
  let shown := fun (s : State) (x : Nat) => some (s, e.take 8 ++ leBytes 8 x)
  if leAt e 4 1 = 1 then
    if write then
      let n := off / 4096
      if off % 4096 = 0x10 && decide (n < 64) && s.remoteRing n && s.reqBlock n == src then some (s.cqHeadWrite n v, e) else none
    else shown s (if off % 8 = 0 then s.doorbellWord off else 0)
  else if write then
    if !s.levelOk (.reg src) off v then none
    else some (if off % 8 = 0 && s.writable (.reg src) off v then s.writeReg off v else s, e)
  else if off % 8 = 0 then
    let r := s.readEffect off
    shown r.1 r.2
  else shown s 0

/-- The entries in order until one is denied. -/
def State.regEntries (s : State) (src : Nat) : List (List Byte) → State × List Byte × Bool
  | [] => (s, [], true)
  | e :: es =>
    match s.regEntry src e with
    | none => (s, (e :: es).flatten, false)
    | some (s, out) =>
      let r := s.regEntries src es
      (r.1, out ++ r.2.1, r.2.2)

/-- A REG message: answered from the store when it is a repeat. -/
def State.recvReg (s : State) (src lane : Nat) (msg : List Byte) : State :=
  let xid := mXid msg
  match s.fab.regReplies.find? (fun x => x.1 == src && x.2.1 == xid && decide (s.ctl.now < x.2.2.2 + 2 * Sys2Proof.sec)) with
  | some x => s.send src lane x.2.2.1
  | none =>
    let n := leAt msg 16 4
    if n = 0 ∨ n > 256 ∨ msg.length ≠ 32 + 16 * n then s.bump FP_DISCARD 1
    else
      let r := if s.raLevel src = 0 then (s, msg.drop 32, false) else s.regEntries src (chunks 16 (msg.drop 32))
      let s := if r.2.2 then r.1 else r.1.bump FP_RA_DENY 1
      let reply := mkMsg 0x87 (if r.2.2 then 0 else sDenied) (mHandle msg) xid ((msg.drop 16).take 16 ++ r.2.1)
      let s := s.upFab (fun f =>
        let mine := f.regReplies.filter (fun x => x.1 == src)
        { f with regReplies := f.regReplies.filter (fun x => x.1 != src) ++ mine.drop (mine.length - 63) ++ [(src, xid, reply, s.ctl.now)] })
      s.send src lane reply

-- Meanings

/-- ATTACH alone: the write carries no DETACH. -/
def execAttach (src : Src) (ring : Fin 64) (value : Word64) (s : State) : Out :=
  let v := setBits value.toNat 0 2 1
  .next (if s.writable src (RF_CTRL ring.val) v then s.writeRingCtrl ring.val v else s)

def execDetach (src : Src) (ring : Fin 64) (value : Word64) (s : State) : Out :=
  let v := value.toNat ||| 2
  .next (if s.writable src (RF_CTRL ring.val) v then s.writeRingCtrl ring.val v else s)

/-- An access to a structure of the ring fails (03 R146). -/
def execRingFault (ring : Fin 64) (s : State) : Out := .next (whenAlive s (fun s => (s.faultRing ring.val).settle))

/-- A read of RF_RING_STATUS returns its value, and clears DB_ERR (03 R143, 00 R13). -/
def execDbErrRead (src : Src) (ring : Fin 64) (s : State) : Out :=
  .next (if s.readable src then (s.readStatus ring.val).upCtl (fun c => { c with readOut := s.reg (RF_STATUS ring.val) }) else s)

def execMtRegWrite (src : Src) (tier : Fin 3) (part : Fin 16) (value : Word64) (s : State) : Out :=
  .next (if s.writable src (MT_REG tier.val part.val) value.toNat then s.writeMtReg tier.val part.val value.toNat else s)

def execMcMapoutWrite (src : Src) (value : Word64) (s : State) : Out :=
  .next (if s.writable src MC_MAPOUT value.toNat then s.writeMapout value.toNat else s)

/-- A write of a register by MMIO, the network, a REG entry or firmware; one that is not aligned is ignored (15 R550). -/
def execRegisterWrite (src : Src) (offset : BitVec 20) (value : Word64) (s : State) : Out :=
  .next (if offset.toNat % 8 = 0 && s.writable src offset.toNat value.toNat then s.writeReg offset.toNat value.toNat else s)

def execReg (src : BitVec 15) (msg : List Byte) (t : Nat) (s : State) : Out :=
  .next (whenAlive s (fun s => (s.advance t).onMsg src.toNat msg 0x07 (fun s lane => s.recvReg src.toNat lane msg)))

end Sys2Proof.Machine
end

