-- ==== Sys2Proof/Machine/Boot.lean ====
section
/-! DEFINITION. Reset and boot (13 R490 to R493, R509, R512; 14 R538; 15 R567; 08 R305 to R308; 16 R573): what rst_n keeps and clears,
the ROM's sequence, memory self-test, tier training, and the operator's configuration record. -/

namespace Sys2Proof.Machine

-- rst_n falls (15 R567)

/-- The machine while rst_n is low: fuses, flash, host memory and the pins driven from outside are as they were. -/
def State.inReset (s : State) (t : Nat) : State :=
  { State.reset with
    ctl := { Ctl.zero with now := max s.ctl.now t, fresh := s.ctl.fresh, hpLinkUp := s.ctl.hpLinkUp, vddOk := s.ctl.vddOk, wrap := s.ctl.wrap }
    mem := s.mem.filter (fun c => decide (memKey 3 0 ≤ c.1))
    fuses := s.fuses, flash := s.flash, pending := s.pending }

-- The ROM (13 R490)

/-- Digests of the four sections of a slot's image. -/
def State.sectionDigests (s : State) (slot : Nat) : List (List Byte) :=
  (upTo 4).map (fun i =>
    let x := hdrSect (s.slotHeader slot) i
    sha384 (s.flashBytes (slotBase slot + x.1) x.2))

/-- The driver interface of the image (03 R142, R509). -/
def State.setIface (s : State) : State :=
  let minor := leAt s.sec.header 14 1
  let s := (s.setFld RF_IFACE_VERSION 0 8 minor).setFld RF_IFACE_VERSION 8 8 (leAt s.sec.header 15 1)
  (s.setFld RF_IFACE_VERSION 16 2 (if minor ≥ 1 then 3 else 0)).setFld RF_IFACE_VERSION 18 2 (if minor ≥ 2 then 3 else 0)

/-- A verified slot is measured and its cores start; the fuse blows of a confirmed image are completed (R492, R501). -/
def State.bootSlot (s : State) (slot : Nat) (trial rolled : Bool) : State :=
  let digests := s.sectionDigests slot
  let header := s.slotHeader slot
  let s := s.upSec (fun x => { x with slot := slot, header := header, digests := digests })
  let s := ((s.measure 0 (sha384 header)).measure 1 ((digests[0]?).getD [])).measure 2 ((digests[1]?).getD [])
  let s := s.setReg SE_STATUS (b2n s.fuses.approvedOnly + 2 + 16 * b2n trial + 32 * b2n rolled + 64 * slot + 2 ^ 12 * s.fuses.svn)
  let s := s.setIface
  let s := if trial then s else s.blowFuses
  if rolled then s.fault 2 (srcCore 0) 0x0C slot else s

/-- The slot that the current record names, and whether it boots as a trial or after a rollback; the records that the ROM writes first
are written (R490 steps 2 to 5). -/
def State.romRecord (s : State) : State × Nat × Bool × Bool :=
  match s.bootCurrent with
  | none => (s, 0, false, false)
  | some (_, r) =>
    if !r.trial then (s, min r.active 1, false, r.rolled)
    else if !r.attempted then (s.writeBootRec { r with attempted := true }, min r.active 1, true, r.rolled)
    else (s.writeRollback r.prev, min r.prev 1, false, true)

/-- The ROM: the slot of the record, else the other one, else recovery mode (R490 steps 6 to 8, R491). -/
def State.rom (s : State) : State :=
  let r := s.romRecord
  let slot := r.2.1
  if r.1.verifySlot slot none none = 0 then r.1.bootSlot slot r.2.2.1 r.2.2.2
  else if r.1.verifySlot (1 - slot) none none = 0 then (r.1.writeRollback (1 - slot)).bootSlot (1 - slot) false true
  else r.1.upCtl (fun c => { c with life := .recovery })

/-- rst_n rises: cfg_headless is sampled, pm_safe falls, the interior starts at 0.75 V (01 R40; 10 R404; 15 R566, R567). -/
def State.leaveReset (s : State) (headless : Bool) (t : Nat) : State :=
  let s := s.upCtl (fun c => { c with life := .alive, now := max c.now t, released := max c.now t, pmSafe := false })
  let s := (s.setFld CC_BLOCK_ID 17 1 (b2n headless)).setFld PW_SPEED 16 16 750
  let s := (s.setFld PW_VDD 0 16 750).setFld PW_VDD 16 16 750
  (s.setFld MT_HPPR_PENDING 0 16 (min s.flash.repairs.length 0xFFFF)).setFld MC_MAPOUT 0 32 s.flash.mapout

-- VALID (08 R305, R307; 14 R538)

/-- Firmware writes VALID once self-test and training have passed and the record has asked for it. -/
def State.tryValid (s : State) : State :=
  if s.ctl.wantValid && s.ctl.trained && !s.ctl.trainBad && !s.ctl.mbistBad && s.flag TT_MBIST_STATUS 10 && s.fwReady then
    (s.setFld CC_BLOCK_ID 15 1 1).upCtl (fun c => { c with wantValid := false })
  else s

-- Memory self-test (14 R538)

/-- The results of self-test. -/
def State.selfTested (s : State) (r : MbistResult) : State :=
  let status := r.rcOk % 16 + 16 * b2n r.mdOk + 32 * b2n r.mbOk + 64 * b2n r.imOk + 128 * b2n r.tlbOk + 256 * b2n r.faultRingOk +
    512 * b2n r.fifoOk + 1024
  let s := s.setReg TT_MBIST_STATUS status
  let s := (upTo 4).foldl (fun s h => s.setFld (RC_STATUS h) 0 1 (b2n (s.holmOnline h))) s
  let s := r.rcFail.foldl (fun s x =>
    if x.1 < 4 ∧ x.2 < 16 then ((s.emptyWay x.1 x.2).setFld (RC_WAY_DISABLE x.1) x.2 1 1).fault 4 (srcHolm x.1) 0x20 (x.2 + x.1 * 16) else s) s
  let s := r.mdFail.foldl (fun s w => if w < 8 then s.mdDisable w else s) s
  let bad := !(r.mbOk && r.imOk && r.faultRingOk && r.fifoOk)
  (if bad then s.upCtl (fun c => { c with mbistBad := true }) else s).tryValid

-- Tier training (08 R305 to R308)

/-- Channels that a mask of 32 bits names, as a number. -/
def maskOf (p : Nat → Bool) : Nat := sumOf ((upTo 32).map (fun i => if p i then 2 ^ i else 0))

/-- Tier S: its built-in test, row remaps and the dies that pass (R306, R307, R323). -/
def State.trainS (s : State) (r : TrainResult) : State :=
  let s := s.bump MS_REMAP (sumOf (r.sRemaps.map (fun x => x.2)))
  let used := r.sRemaps.foldl (fun l x => insertBy x.1 (min 16 (x.2 + (lookupBy x.1 l).getD 0)) l) s.spine.spares
  let s := (s.upSpine (fun x => { x with spares := used })).setFld MS_STATUS 5 1 (b2n (used.any (fun x => decide (x.2 ≥ 14))))
  let s := s.setFld MS_STATUS 0 4 r.sDies
  if r.sDies % 16 = 15 then s else s.upCtl (fun c => { c with trainBad := true })

/-- Tier F: training with lane repair. -/
def State.trainF (s : State) (r : TrainResult) : State :=
  let result := if r.fCause ≠ 0 then 3 else if r.fLanes.isEmpty then 1 else 2
  let s := ((s.setFld MF_STATUS 0 2 result).setFld MF_STATUS 2 4 r.fCause).setFld MF_STATUS 6 4 r.fAttempts
  let s := r.fLanes.foldl (fun s x =>
    let s := s.setFld (MF_LANE_REPAIR (x.1 % 64)) 0 15 x.2
    ([bits x.2 0 6, bits x.2 6 6].filter (fun l => l != 63)).foldl (fun s l => s.fault 1 4 0x02 (x.1 % 64 + l * 64)) s) s
  if r.fCause ≠ 0 then s.upCtl (fun c => { c with trainBad := true }) else s

/-- Tier C: channels that are mapped out by MC_MAPOUT, or by the flash log with RETRY_MAPPED clear, are not trained. -/
def State.trainC (s : State) (r : TrainResult) : State :=
  let tried := fun i => !bit (s.fld MC_MAPOUT 0 32) i && (s.flag MC_CFG 6 || !bit s.flash.failed i)
  let up := maskOf (fun i => bit r.cPass i && tried i)
  let m := ((upTo 32).filter (fun i => bit up i)).length
  let lost := maskOf (fun i => !bit up i && (bit s.flash.failed i || (tried i && r.cFail.any (fun x => x.1 == i))))
  let s := r.cFail.foldl (fun s x => if x.1 < 32 && tried x.1 then s.setReg (MC_FAIL_CAUSE x.1) (x.2.1 % 16 + 16 * (x.2.2 % 16)) else s) s
  let s := ((s.setFld MC_CHAN_MAP 0 32 up).setFld MC_CHAN_MAP 32 6 m).setReg (MT_RATED 2) (404 * m / 32)
  let s := s.upFlash (fun f => { f with failed := lost })
  let s := s.setFld MC_STATUS 0 2 (if m < s.fld MC_CFG 0 6 then 3 else if m = 32 then 1 else 2)
  if m < s.fld MC_CFG 0 6 then s.upCtl (fun c => { c with trainBad := true }) else s

/-- Training ends: logged rows whose hard repair was applied leave the log, the tiers hold zeros (R305, R312). -/
def State.trainTiers (s : State) (r : TrainResult) : State :=
  if s.ctl.trained then s
  else
    let s := ((s.trainS r).trainF r).trainC r
    let s := s.upFlash (fun f => { f with repairs := f.repairs.filter (fun x => !r.hppr.contains x) })
    let s := s.setFld MT_HPPR_PENDING 0 16 (min s.flash.repairs.length 0xFFFF)
    (s.upCtl (fun c => { c with trained := true })).tryValid

-- The configuration record (13 R492, R497, R512; 12 R446; 16 R573)

/-- The lifecycle record measured into MR6 (R492): the boot STATE and ROLLED_BACK of this boot. -/
def State.lifecycle (s : State) : List Byte :=
  leBytes 1 s.fuses.svn ++ leBytes 1 (b2n s.approved) ++ leBytes 1 (b2n s.trial) ++ leBytes 1 (b2n (s.flag SE_STATUS 5)) ++ zeros 60

/-- Firmware applies the record: measured first, then routes and registers, the lock, and FW_READY. -/
def State.configure (s : State) (c : BootConfig) : State :=
  if s.fwReady || !s.secRuns then s
  else
    let s := if c.approved then s.setFld SE_STATUS 0 1 1 else s
    let s := (s.measure 6 (sha384 s.lifecycle)).measure 5 (sha384 c.record)
    let s := (s.measure 3 ((s.sec.digests[2]?).getD [])).measure 4 ((s.sec.digests[3]?).getD [])
    let s := s.upFab (fun f => { f with routes := c.routes.foldl (fun l x => insertBy (x.1 % 32768) (fitTo 32 x.2) l) f.routes })
    let s := (s.setFld CC_BLOCK_ID 0 15 c.blockId).setFld MT_CFG 12 10 c.phyupdMax
    let own := fun (off : Nat) => off != CC_BLOCK_ID && off != CC_SETUP_LOCK && off != CC_STOP
    let s := (c.writes.filter (fun x => own x.1 && x.1 % 8 == 0)).foldl (fun s x => if s.writable .fw x.1 x.2 then s.writeReg x.1 x.2 else s) s
    let named := !s.registryList.isEmpty
    let s := if named then s else s.setFld TK_STATUS 3 1 1
    let s := s.upCtl (fun x => { x with wantValid := c.valid && named })
    let s := if c.lock then s.setLock else s
    (s.setFld CC_ID 20 1 1).syncTk.tryValid

-- Meanings

def execResetAssert (t : Nat) (s : State) : Out := .next (s.inReset t)

/-- rst_n rises; in a block that is not held in reset nothing happens. -/
def execResetRelease (headless : Bool) (t : Nat) (s : State) : Out :=
  .next (if s.ctl.life == .inReset then (s.leaveReset headless t).rom else s)

/-- Self-test runs once after reset, and again under the wrapper's MBIST instruction (14 R539). -/
def execMbistDone (r : MbistResult) (s : State) : Out :=
  .next (whenAlive s (fun s => if s.flag TT_MBIST_STATUS 10 && s.ctl.wrap != .mbist then s else s.selfTested r))

def execTierTrainingDone (r : TrainResult) (t : Nat) (s : State) : Out :=
  .next (whenAlive s (fun s => (s.advance t).trainTiers r))

def execFirmwareReady (c : BootConfig) (s : State) : Out := .next (whenAlive s (fun s => s.configure c))

end Sys2Proof.Machine
end

