-- ==== Sys2Proof/Machine/Dispatch.lean ====
section
/-! DEFINITION. The dispatch: one arm per constructor of Instr. -/

namespace Sys2Proof.Machine

def exec (i : Instr) (s : State) : Host.Outcome State Fault Refusal :=
  match i with
  | .doorbellTailWrite ring value t => Sys2Proof.Machine.execDoorbellTailWrite ring value t s
  | .cqHeadWrite ring value => Sys2Proof.Machine.execCqHeadWrite ring value s
  | .descriptorAcceptance ring t => Sys2Proof.Machine.execDescriptorAcceptance ring t s
  | .completionRecord h t => Sys2Proof.Machine.execCompletionRecord h t s
  | .notifyHoldoffExpiry ring t => Sys2Proof.Machine.execNotifyHoldoffExpiry ring t s
  | .nop h => Sys2Proof.Machine.execNop h s
  | .lookup h t => Sys2Proof.Machine.execLookup h t s
  | .lookupPool h t => Sys2Proof.Machine.execLookupPool h t s
  | .scatterAdd h t => Sys2Proof.Machine.execScatterAdd h t s
  | .poolBackward h t => Sys2Proof.Machine.execPoolBackward h t s
  | .tableCreate h t => Sys2Proof.Machine.execTableCreate h t s
  | .tableDestroy h t => Sys2Proof.Machine.execTableDestroy h t s
  | .versionPublish h t => Sys2Proof.Machine.execVersionPublish h t s
  | .versionSwitch h t => Sys2Proof.Machine.execVersionSwitch h t s
  | .rowsWrite h t => Sys2Proof.Machine.execRowsWrite h t s
  | .rowsRead h t => Sys2Proof.Machine.execRowsRead h t s
  | .migrate h t => Sys2Proof.Machine.execMigrate h t s
  | .checkpoint h t => Sys2Proof.Machine.execCheckpoint h t s
  | .restore h t => Sys2Proof.Machine.execRestore h t s
  | .fence h => Sys2Proof.Machine.execFence h s
  | .flushCache h => Sys2Proof.Machine.execFlushCache h s
  | .stats h t => Sys2Proof.Machine.execStats h t s
  | .commitStep h t => Sys2Proof.Machine.execCommitStep h t s
  | .attest h t => Sys2Proof.Machine.execAttest h t s
  | .loopbackTest h t => Sys2Proof.Machine.execLoopbackTest h t s
  | .diagnostics h => Sys2Proof.Machine.execDiagnostics h s
  | .attach src ring value => Sys2Proof.Machine.execAttach src ring value s
  | .detach src ring value => Sys2Proof.Machine.execDetach src ring value s
  | .ringFault ring => Sys2Proof.Machine.execRingFault ring s
  | .dbErrRead src ring => Sys2Proof.Machine.execDbErrRead src ring s
  | .setupLock src value => Sys2Proof.Machine.execSetupLock src value s
  | .stop src value t => Sys2Proof.Machine.execStop src value t s
  | .restart src core value t => Sys2Proof.Machine.execRestart src core value t s
  | .coreRestartDone core digestOk t => Sys2Proof.Machine.execCoreRestartDone core digestOk t s
  | .watchdogExpiry core t => Sys2Proof.Machine.execWatchdogExpiry core t s
  | .coreFault core t => Sys2Proof.Machine.execCoreFault core t s
  | .ctxLoad src value => Sys2Proof.Machine.execCtxLoad src value s
  | .ctxStore src value => Sys2Proof.Machine.execCtxStore src value s
  | .winLoad src value => Sys2Proof.Machine.execWinLoad src value s
  | .winStore src value => Sys2Proof.Machine.execWinStore src value s
  | .pull src value => Sys2Proof.Machine.execPull src value s
  | .release src value => Sys2Proof.Machine.execRelease src value s
  | .pageMigration ctx vpn => Sys2Proof.Machine.execPageMigration ctx vpn s
  | .shootDownGo src value => Sys2Proof.Machine.execShootDownGo src value s
  | .inv htag ctx addr => Sys2Proof.Machine.execInv htag ctx addr s
  | .shootDownDrained => Sys2Proof.Machine.execShootDownDrained s
  | .shootDownWaitExpiry h t => Sys2Proof.Machine.execShootDownWaitExpiry h t s
  | .snpInv htag addr => Sys2Proof.Machine.execSnpInv htag addr s
  | .hostResponse htag err => Sys2Proof.Machine.execHostResponse htag err s
  | .hostRequestTimeout htag => Sys2Proof.Machine.execHostRequestTimeout htag s
  | .apertureAccess write htag off len data => Sys2Proof.Machine.execApertureAccess write htag off len data s
  | .routeLoad src value => Sys2Proof.Machine.execRouteLoad src value s
  | .routeStore src value => Sys2Proof.Machine.execRouteStore src value s
  | .declare src value t => Sys2Proof.Machine.execDeclare src value t s
  | .query src value t => Sys2Proof.Machine.execQuery src value t s
  | .failCtrlNoAnswer t => Sys2Proof.Machine.execFailCtrlNoAnswer t s
  | .faultLoad src value => Sys2Proof.Machine.execFaultLoad src value s
  | .holmOfflineWrite src value => Sys2Proof.Machine.execHolmOfflineWrite src value s
  | .holmDrained holm => Sys2Proof.Machine.execHolmDrained holm s
  | .holmTest src value => Sys2Proof.Machine.execHolmTest src value s
  | .holmTestDone holm pass t => Sys2Proof.Machine.execHolmTestDone holm pass t s
  | .sliceReturnWalkDone holm => Sys2Proof.Machine.execSliceReturnWalkDone holm s
  | .holmFailure holm t => Sys2Proof.Machine.execHolmFailure holm t s
  | .arm src value => Sys2Proof.Machine.execArm src value s
  | .h1TurnaroundDone => Sys2Proof.Machine.execH1TurnaroundDone s
  | .dlBegin src len => Sys2Proof.Machine.execDlBegin src len s
  | .dlChunk src len => Sys2Proof.Machine.execDlChunk src len s
  | .verify src len => Sys2Proof.Machine.execVerify src len s
  | .activate src len => Sys2Proof.Machine.execActivate src len s
  | .confirm src len => Sys2Proof.Machine.execConfirm src len s
  | .certRead src len => Sys2Proof.Machine.execCertRead src len s
  | .kekSet src len => Sys2Proof.Machine.execKekSet src len s
  | .sakInstall src len => Sys2Proof.Machine.execSakInstall src len s
  | .sakInstallPlain src len => Sys2Proof.Machine.execSakInstallPlain src len s
  | .sakRetire src len => Sys2Proof.Machine.execSakRetire src len s
  | .zeroize src len => Sys2Proof.Machine.execZeroize src len s
  | .debugUnlock src len => Sys2Proof.Machine.execDebugUnlock src len s
  | .mailboxGoIgnored src value => Sys2Proof.Machine.execMailboxGoIgnored src value s
  | .trialConfirmation m1f1 fuseRail => Sys2Proof.Machine.execTrialConfirmation m1f1 fuseRail s
  | .confirmWaitExpiry t => Sys2Proof.Machine.execConfirmWaitExpiry t s
  | .selfTestFailure test t => Sys2Proof.Machine.execSelfTestFailure test t s
  | .mtRegWrite src tier part value => Sys2Proof.Machine.execMtRegWrite src tier part value s
  | .rcWayDisableWrite src holm value => Sys2Proof.Machine.execRcWayDisableWrite src holm value s
  | .mdWayDisableWrite src value => Sys2Proof.Machine.execMdWayDisableWrite src value s
  | .errSchemeChange src value => Sys2Proof.Machine.execErrSchemeChange src value s
  | .mcMapoutWrite src value => Sys2Proof.Machine.execMcMapoutWrite src value s
  | .registerWrite src offset value => Sys2Proof.Machine.execRegisterWrite src offset value s
  | .data port f t => Sys2Proof.Machine.execData port f t s
  | .ack port f t => Sys2Proof.Machine.execAck port f t s
  | .nak port f t => Sys2Proof.Machine.execNak port f t s
  | .openFrame port f t => Sys2Proof.Machine.execOpenFrame port f t s
  | .openAck port f t => Sys2Proof.Machine.execOpenAck port f t s
  | .close port f t => Sys2Proof.Machine.execClose port f t s
  | .closeAck port f t => Sys2Proof.Machine.execCloseAck port f t s
  | .rtoExpiry partner lane t => Sys2Proof.Machine.execRtoExpiry partner lane t s
  | .retryMaxReached partner lane t => Sys2Proof.Machine.execRetryMaxReached partner lane t s
  | .ackDelayExpiry partner lane t => Sys2Proof.Machine.execAckDelayExpiry partner lane t s
  | .idleCloseExpiry partner lane t => Sys2Proof.Machine.execIdleCloseExpiry partner lane t s
  | .reprobeExpiry partner t => Sys2Proof.Machine.execReprobeExpiry partner t s
  | .coalesceExpiry partner lane t => Sys2Proof.Machine.execCoalesceExpiry partner lane t s
  | .pfcFrame port prios quanta t => Sys2Proof.Machine.execPfcFrame port prios quanta t s
  | .pfcWatchdogExpiry port prio t => Sys2Proof.Machine.execPfcWatchdogExpiry port prio t s
  | .packetNumberExhausted port t => Sys2Proof.Machine.execPacketNumberExhausted port t s
  | .portLinkUp port => Sys2Proof.Machine.execPortLinkUp port s
  | .portAlignTimeout port t => Sys2Proof.Machine.execPortAlignTimeout port t s
  | .portLinkDown port cause t => Sys2Proof.Machine.execPortLinkDown port cause t s
  | .fecThresholdReached port t => Sys2Proof.Machine.execFecThresholdReached port t s
  | .loopbackAckTimeout port => Sys2Proof.Machine.execLoopbackAckTimeout port s
  | .readReq src msg t => Sys2Proof.Machine.execReadReq src msg t s
  | .poolReq src msg t => Sys2Proof.Machine.execPoolReq src msg t s
  | .readReply src msg t => Sys2Proof.Machine.execReadReply src msg t s
  | .poolReply src msg t => Sys2Proof.Machine.execPoolReply src msg t s
  | .remoteCutoff h t => Sys2Proof.Machine.execRemoteCutoff h t s
  | .add src msg t => Sys2Proof.Machine.execAdd src msg t s
  | .addAck src msg t => Sys2Proof.Machine.execAddAck src msg t s
  | .recentAddLogExpiry t => Sys2Proof.Machine.execRecentAddLogExpiry t s
  | .remoteDoorbell src msg t => Sys2Proof.Machine.execRemoteDoorbell src msg t s
  | .reg src msg t => Sys2Proof.Machine.execReg src msg t s
  | .regReply src msg => Sys2Proof.Machine.execRegReply src msg s
  | .memRead src msg => Sys2Proof.Machine.execMemRead src msg s
  | .memReadReply src msg t => Sys2Proof.Machine.execMemReadReply src msg t s
  | .memWrite src msg => Sys2Proof.Machine.execMemWrite src msg s
  | .memWriteAck src msg => Sys2Proof.Machine.execMemWriteAck src msg s
  | .echo src msg => Sys2Proof.Machine.execEcho src msg s
  | .echoReply src msg t => Sys2Proof.Machine.execEchoReply src msg t s
  | .claim hdr body => Sys2Proof.Machine.execClaim hdr body s
  | .recordFetch hdr tbl => Sys2Proof.Machine.execRecordFetch hdr tbl s
  | .update hdr u => Sys2Proof.Machine.execUpdate hdr u s
  | .released hdr tbl ver group => Sys2Proof.Machine.execReleased hdr tbl ver group s
  | .versionPhase hdr p tbl ver => Sys2Proof.Machine.execVersionPhase hdr p tbl ver s
  | .reserve hdr body => Sys2Proof.Machine.execReserve hdr body s
  | .commit hdr tbl step kcmd leader t => Sys2Proof.Machine.execCommit hdr tbl step kcmd leader t s
  | .replicaWrite hdr d t => Sys2Proof.Machine.execReplicaWrite hdr d t s
  | .groupCopy hdr d t => Sys2Proof.Machine.execGroupCopy hdr d t s
  | .loadReport hdr r => Sys2Proof.Machine.execLoadReport hdr r s
  | .failNotice hdr body t => Sys2Proof.Machine.execFailNotice hdr body t s
  | .redeliverDone hdr tbl failedBlock => Sys2Proof.Machine.execRedeliverDone hdr tbl failedBlock s
  | .imagePart hdr body => Sys2Proof.Machine.execImagePart hdr body s
  | .tkReply hdr a t => Sys2Proof.Machine.execTkReply hdr a t s
  | .groupMove tbl ver group dblk dtier t => Sys2Proof.Machine.execGroupMove tbl ver group dblk dtier t s
  | .secondaryRebuild tbl ver group t => Sys2Proof.Machine.execSecondaryRebuild tbl ver group t s
  | .loadPeriodEnd t => Sys2Proof.Machine.execLoadPeriodEnd t s
  | .tierFailure tier channel t => Sys2Proof.Machine.execTierFailure tier channel t s
  | .tierSFailure die channel t => Sys2Proof.Machine.execTierSFailure die channel t s
  | .phyUpdateRequest tier channel held t => Sys2Proof.Machine.execPhyUpdateRequest tier channel held t s
  | .phyUpdateOverrun tier channel t => Sys2Proof.Machine.execPhyUpdateOverrun tier channel t s
  | .writeBatchTurn tier channel => Sys2Proof.Machine.execWriteBatchTurn tier channel s
  | .tierReadError tier offset e t => Sys2Proof.Machine.execTierReadError tier offset e t s
  | .rowRepair tier offset possible t => Sys2Proof.Machine.execRowRepair tier offset possible t s
  | .refresh tier => Sys2Proof.Machine.execRefresh tier s
  | .regulatorRefill t => Sys2Proof.Machine.execRegulatorRefill t s
  | .tierSTempRead temps powerLimit t => Sys2Proof.Machine.execTierSTempRead temps powerLimit t s
  | .floorTakesEffect t => Sys2Proof.Machine.execFloorTakesEffect t s
  | .logicTempRead temps t => Sys2Proof.Machine.execLogicTempRead temps t s
  | .canaryWindow counts rates t => Sys2Proof.Machine.execCanaryWindow counts rates t s
  | .vddOk t => Sys2Proof.Machine.execVddOk t s
  | .delayLineCalibration line measured => Sys2Proof.Machine.execDelayLineCalibration line measured s
  | .marginRecentre line point t => Sys2Proof.Machine.execMarginRecentre line point t s
  | .heatDecaySweep => Sys2Proof.Machine.execHeatDecaySweep s
  | .fillArrival slice lineNo sector => Sys2Proof.Machine.execFillArrival slice lineNo sector s
  | .wayRetire slice way t => Sys2Proof.Machine.execWayRetire slice way t s
  | .spareRotation slice testPass t => Sys2Proof.Machine.execSpareRotation slice testPass t s
  | .mdWaySelfDisable way t => Sys2Proof.Machine.execMdWaySelfDisable way t s
  | .mdFill lineAddr => Sys2Proof.Machine.execMdFill lineAddr s
  | .mbHoldExpiry t => Sys2Proof.Machine.execMbHoldExpiry t s
  | .patrolScrub tier found t => Sys2Proof.Machine.execPatrolScrub tier found t s
  | .sramScrub array index e t => Sys2Proof.Machine.execSramScrub array index e t s
  | .backgroundTaskBehind task t => Sys2Proof.Machine.execBackgroundTaskBehind task t s
  | .telemetrySample power t => Sys2Proof.Machine.execTelemetrySample power t s
  | .fatalStop cause detail t => Sys2Proof.Machine.execFatalStop cause detail t s
  | .refClkLost gap t => Sys2Proof.Machine.execRefClkLost gap t s
  | .packetStallRewind edge => Sys2Proof.Machine.execPacketStallRewind edge s
  | .badPacketRewind edge port => Sys2Proof.Machine.execBadPacketRewind edge port s
  | .resetAssert t => Sys2Proof.Machine.execResetAssert t s
  | .resetRelease headless t => Sys2Proof.Machine.execResetRelease headless t s
  | .mbistDone r => Sys2Proof.Machine.execMbistDone r s
  | .tierTrainingDone r t => Sys2Proof.Machine.execTierTrainingDone r t s
  | .firmwareReady c => Sys2Proof.Machine.execFirmwareReady c s
  | .mailboxCommandDone => Sys2Proof.Machine.execMailboxCommandDone s
  | .wrapperInstructionUpdate code => Sys2Proof.Machine.execWrapperInstructionUpdate code s
  | .emptyFifoRead edge => Sys2Proof.Machine.execEmptyFifoRead edge s
  | .errorCountWindowClear => Sys2Proof.Machine.execErrorCountWindowClear s
  | .fecRetryHoldoffExpiry port => Sys2Proof.Machine.execFecRetryHoldoffExpiry port s
  | .regReplyRetentionExpiry t => Sys2Proof.Machine.execRegReplyRetentionExpiry t s
  | .hpLinkUpChange up => Sys2Proof.Machine.execHpLinkUpChange up s
  | .deviceTemperatureReport tier device temp multiplier2x outOfRange t => Sys2Proof.Machine.execDeviceTemperatureReport tier device temp multiplier2x outOfRange t s
  | .controllerUpdate tier channel zq held => Sys2Proof.Machine.execControllerUpdate tier channel zq held s
  | .h1TurnaroundPacket words => Sys2Proof.Machine.execH1TurnaroundPacket words s

end Sys2Proof.Machine
end

