-- ==== Sys2Proof/Safety.lean ====
section
/-! DEFINITION. What the statements call a sound state, a run and an unchanged part. -/

namespace Sys2Proof

open Sys2Proof.Machine

/-- Registers in their one form: offsets strictly rising from `lo`, none listed at its reset value. -/
def regsWfFrom : Nat → List (Nat × Word64) → Bool
  | _, [] => true
  | lo, (a, v) :: rest => decide (lo ≤ a) && decide (v ≠ resetAt a) && regsWfFrom (a + 1) rest

/-- The registers of a state are in their one form. -/
def regsWf (l : List (Nat × Word64)) : Bool := regsWfFrom 0 l

/-- A sound state: memory and registers are in their one form, so that equal contents are equal data. -/
def Sound (s : State) : Prop := Memory.wf s.mem = true ∧ regsWf s.regs = true

/-- A run: the commands at the front of the queue taken one by one; none when one of them stops. -/
def runQueue : Nat → State → Option State
  | 0, s => some s
  | n + 1, s =>
    match step s with
    | .next t => runQueue n t
    | _ => none

/-- Fuses are only blown, never mended: the secret, the key hashes and the mode stay, the counter does not fall, a revoked key stays
revoked. -/
structure FusesGrow (f g : Fuses) : Prop where
  uds : g.uds = f.uds
  keys : g.keyHash = f.keyHash
  approved : g.approvedOnly = f.approvedOnly
  svn : f.svn ≤ g.svn
  revoked : ∀ i, i < 4 → (f.revoked[i]?).getD false = true → (g.revoked[i]?).getD false = true

/-- The register write that a software trigger makes: source, offset and value, with the bit that its row names set. -/
def softWrite : Instr → Option (Src × Nat × Nat)
  | .attach src n v => some (src, RF_CTRL n.val, setBits v.toNat 0 2 1)
  | .detach src n v => some (src, RF_CTRL n.val, v.toNat ||| 2)
  | .setupLock src v => some (src, CC_SETUP_LOCK, v.toNat)
  | .stop src v _ => some (src, CC_STOP, v.toNat)
  | .restart src c v _ => some (src, CC_CORE c.val, v.toNat ||| 1)
  | .ctxLoad src v => some (src, TU_CTX_CTRL, v.toNat ||| 2 ^ 16)
  | .ctxStore src v => some (src, TU_CTX_CTRL, v.toNat ||| 2 ^ 17)
  | .winLoad src v => some (src, TU_WIN_CTRL, v.toNat ||| 2 ^ 16)
  | .winStore src v => some (src, TU_WIN_CTRL, v.toNat ||| 2 ^ 17)
  | .pull src v => some (src, TU_MIG_CTRL, v.toNat ||| 2 ^ 52)
  | .release src v => some (src, TU_MIG_CTRL, setBits v.toNat 52 2 2)
  | .shootDownGo src v => some (src, TU_INV_CTRL, v.toNat ||| 2 ^ 18)
  | .routeLoad src v => some (src, FP_ROUTE_CTRL, v.toNat ||| 2 ^ 16)
  | .routeStore src v => some (src, FP_ROUTE_CTRL, v.toNat ||| 2 ^ 17)
  | .declare src v _ => some (src, TK_FAIL_CTRL, v.toNat ||| 2 ^ 16)
  | .query src v _ => some (src, TK_FAIL_CTRL, v.toNat ||| 2 ^ 17)
  | .faultLoad src v => some (src, TT_FAULT_CTRL, v.toNat ||| 2 ^ 8)
  | .holmOfflineWrite src v => some (src, TT_HOLM_CTRL, v.toNat)
  | .holmTest src v => some (src, TT_HOLM_CTRL, v.toNat)
  | .arm src v => some (src, TT_LB_CTRL, v.toNat ||| 1)
  | .dlBegin src n => some (src, SE_MBOX_CTRL, 0x01 + 2 ^ 8 + n.toNat * 2 ^ 24)
  | .dlChunk src n => some (src, SE_MBOX_CTRL, 0x02 + 2 ^ 8 + n.toNat * 2 ^ 24)
  | .verify src n => some (src, SE_MBOX_CTRL, 0x03 + 2 ^ 8 + n.toNat * 2 ^ 24)
  | .activate src n => some (src, SE_MBOX_CTRL, 0x04 + 2 ^ 8 + n.toNat * 2 ^ 24)
  | .confirm src n => some (src, SE_MBOX_CTRL, 0x05 + 2 ^ 8 + n.toNat * 2 ^ 24)
  | .certRead src n => some (src, SE_MBOX_CTRL, 0x08 + 2 ^ 8 + n.toNat * 2 ^ 24)
  | .kekSet src n => some (src, SE_MBOX_CTRL, 0x10 + 2 ^ 8 + n.toNat * 2 ^ 24)
  | .sakInstall src n => some (src, SE_MBOX_CTRL, 0x11 + 2 ^ 8 + n.toNat * 2 ^ 24)
  | .sakInstallPlain src n => some (src, SE_MBOX_CTRL, 0x12 + 2 ^ 8 + n.toNat * 2 ^ 24)
  | .sakRetire src n => some (src, SE_MBOX_CTRL, 0x13 + 2 ^ 8 + n.toNat * 2 ^ 24)
  | .zeroize src n => some (src, SE_MBOX_CTRL, 0x1F + 2 ^ 8 + n.toNat * 2 ^ 24)
  | .debugUnlock src n => some (src, SE_MBOX_CTRL, 0x20 + 2 ^ 8 + n.toNat * 2 ^ 24)
  | .mailboxGoIgnored src v => some (src, SE_MBOX_CTRL, v.toNat ||| 2 ^ 8)
  | .mtRegWrite src t p v => some (src, MT_REG t.val p.val, v.toNat)
  | .rcWayDisableWrite src h v => some (src, RC_WAY_DISABLE h.val, v.toNat)
  | .mdWayDisableWrite src v => some (src, MD_WAY_DISABLE, v.toNat)
  | .errSchemeChange src v => some (src, MD_CFG, v.toNat)
  | .mcMapoutWrite src v => some (src, MC_MAPOUT, v.toNat)
  | .registerWrite src off v => some (src, off.toNat, v.toNat)
  | _ => none

/-- Commands that act on a block that is in reset, in recovery mode or stopped: rst_n, the pins, the boundary FIFOs, the network's
instruction, a fatal cause or a last acknowledgement after a stop, and the accesses that the register window takes. -/
def actsAsleep (s : State) (c : Instr) : Bool :=
  match c with
  | .resetAssert _ | .resetRelease .. | .hpLinkUpChange _ | .wrapperInstructionUpdate _ => true
  | .packetStallRewind _ | .badPacketRewind .. | .emptyFifoRead _ => s.ctl.life != .inReset
  | .fatalStop .. | .refClkLost .. | .openAck .. => s.ctl.life == .stopped
  | .dbErrRead src _ => s.readable src
  | c => (softWrite c).any (fun w => s.writable w.1 w.2.1 w.2.2)

/-- The parts of a state. -/
inductive StatePart where
  | ctl | regs | mem | poison | rings | lastRef | cmds | tab | cache | fab | tu | fuses | flash | sec | spine
  deriving DecidableEq, Repr

/-- Nothing but the parts named differs; the commands that wait never do. -/
structure OnlyParts (ps : List StatePart) (s t : State) : Prop where
  pending : t.pending = s.pending
  ctl : StatePart.ctl ∈ ps ∨ t.ctl = s.ctl
  regs : StatePart.regs ∈ ps ∨ t.regs = s.regs
  mem : StatePart.mem ∈ ps ∨ t.mem = s.mem
  poison : StatePart.poison ∈ ps ∨ t.poison = s.poison
  rings : StatePart.rings ∈ ps ∨ t.rings = s.rings
  lastRef : StatePart.lastRef ∈ ps ∨ t.lastRef = s.lastRef
  cmds : StatePart.cmds ∈ ps ∨ t.cmds = s.cmds
  tab : StatePart.tab ∈ ps ∨ t.tab = s.tab
  cache : StatePart.cache ∈ ps ∨ t.cache = s.cache
  fab : StatePart.fab ∈ ps ∨ t.fab = s.fab
  tu : StatePart.tu ∈ ps ∨ t.tu = s.tu
  fuses : StatePart.fuses ∈ ps ∨ t.fuses = s.fuses
  flash : StatePart.flash ∈ ps ∨ t.flash = s.flash
  sec : StatePart.sec ∈ ps ∨ t.sec = s.sec
  spine : StatePart.spine ∈ ps ∨ t.spine = s.spine

/-- The parts of the state that a command may change; everything else is its frame. -/
def mayTouch : Instr → List StatePart
  | .refresh .. | .controllerUpdate .. => []
  | .heatDecaySweep | .errorCountWindowClear => [.cache]
  | .wrapperInstructionUpdate .. => [.ctl]
  | .fecRetryHoldoffExpiry .. => [.fab]
  | .setupLock .. | .mtRegWrite .. | .packetStallRewind .. | .badPacketRewind .. | .emptyFifoRead .. => [.regs]
  | .writeBatchTurn .. | .delayLineCalibration .. => [.spine]
  | .snpInv .. => [.cache, .tu]
  | .mbHoldExpiry .. => [.ctl, .cache]
  | .regReplyRetentionExpiry .. => [.ctl, .fab]
  | .dbErrRead .. | .faultLoad .. | .tierSTempRead .. | .floorTakesEffect .. | .logicTempRead .. | .vddOk .. => [.ctl, .regs]
  | .regulatorRefill .. => [.ctl, .spine]
  | .holmDrained .. | .sliceReturnWalkDone .. | .rcWayDisableWrite .. | .mdWayDisableWrite .. | .errSchemeChange .. | .fillArrival .. =>
    [.regs, .cache]
  | .mcMapoutWrite .. => [.regs, .flash]
  | .cqHeadWrite .. => [.regs, .rings]
  | .mailboxCommandDone => [.regs, .sec]
  | .holmOfflineWrite .. | .holmTest .. | .arm .. => [.regs, .spine]
  | .ctxLoad .. | .ctxStore .. | .winLoad .. | .winStore .. | .shootDownGo .. | .inv .. => [.regs, .tu]
  | .h1TurnaroundPacket .. => [.tu, .spine]
  | .doorbellTailWrite .. => [.ctl, .regs, .rings]
  | .phyUpdateRequest .. => [.ctl, .regs, .spine]
  | .portLinkUp .. | .regReply .. | .echo .. => [.regs, .fab, .sec]
  | .trialConfirmation .. => [.regs, .fuses, .flash]
  | .closeAck .. | .ackDelayExpiry .. | .idleCloseExpiry .. | .reprobeExpiry .. | .coalesceExpiry .. | .pfcFrame .. |
    .pfcWatchdogExpiry .. => [.ctl, .regs, .fab, .sec]
  | .failCtrlNoAnswer .. => [.ctl, .regs, .tab, .fab]
  | .recordFetch .. | .loadReport .. => [.regs, .tab, .fab, .sec]
  | .remoteDoorbell .. => [.ctl, .regs, .rings, .fab, .sec]
  | .apertureAccess .. => [.mem, .poison, .cache, .tu, .spine]
  | .nop .. | .fence .. => [.regs, .cmds, .tab, .fab, .tu, .sec]
  | .pull .. | .release .. | .pageMigration .. => [.regs, .mem, .poison, .cache, .tu, .spine]
  | .memRead .. => [.regs, .tab, .cache, .fab, .tu, .sec]
  | .diagnostics .. => [.ctl, .regs, .cmds, .tab, .fab, .tu, .sec]
  | .flushCache .. => [.regs, .cmds, .tab, .cache, .fab, .tu, .sec]
  | .readReq .. | .poolReq .. => [.ctl, .regs, .tab, .cache, .fab, .tu, .sec, .spine]
  | .reserve .. => [.regs, .mem, .poison, .tab, .cache, .fab, .sec, .spine]
  | .telemetrySample .. => [.ctl, .regs, .mem, .poison, .cache, .fab, .tu, .sec, .spine]
  | .replicaWrite .. | .groupCopy .. => [.ctl, .regs, .mem, .poison, .tab, .cache, .fab, .sec, .spine]
  | .dlBegin .. | .dlChunk .. | .verify .. | .activate .. | .confirm .. | .certRead .. | .kekSet .. | .sakInstall .. |
    .sakInstallPlain .. | .sakRetire .. | .zeroize .. | .debugUnlock .. | .mailboxGoIgnored .. | .mdFill .. =>
    [.regs, .mem, .poison, .cache, .fab, .tu, .flash, .sec, .spine]
  | .memWrite .. => [.regs, .mem, .poison, .tab, .cache, .fab, .tu, .sec, .spine]
  | .stop .. | .restart .. | .watchdogExpiry .. | .coreFault .. | .holmTestDone .. | .confirmWaitExpiry .. | .selfTestFailure .. |
    .packetNumberExhausted .. | .portAlignTimeout .. | .portLinkDown .. | .fecThresholdReached .. | .tierSFailure .. | .rowRepair .. |
    .canaryWindow .. | .marginRecentre .. | .wayRetire .. | .spareRotation .. | .mdWaySelfDisable .. | .sramScrub .. |
    .backgroundTaskBehind .. | .fatalStop .. | .refClkLost .. | .mbistDone .. | .tierTrainingDone .. =>
    [.ctl, .regs, .mem, .poison, .cache, .fab, .tu, .flash, .sec, .spine]
  | .rtoExpiry .. | .add .. | .recentAddLogExpiry .. | .commit .. => [.ctl, .regs, .mem, .poison, .cmds, .tab, .cache, .fab, .sec, .spine]
  | .redeliverDone .. => [.regs, .mem, .poison, .cmds, .tab, .cache, .fab, .tu, .sec, .spine]
  | .resetRelease .. => [.ctl, .regs, .mem, .poison, .cache, .fab, .tu, .fuses, .flash, .sec, .spine]
  | .lookup .. | .lookupPool .. | .scatterAdd .. | .poolBackward .. | .tableCreate .. | .tableDestroy .. | .versionPublish .. |
    .versionSwitch .. | .rowsWrite .. | .rowsRead .. | .migrate .. | .checkpoint .. | .restore .. | .stats .. | .commitStep .. |
    .attest .. | .loopbackAckTimeout .. | .echoReply .. | .loadPeriodEnd .. =>
    [.ctl, .regs, .mem, .poison, .cmds, .tab, .cache, .fab, .tu, .sec, .spine]
  | .notifyHoldoffExpiry .. => [.ctl, .regs, .mem, .poison, .rings, .cmds, .cache, .fab, .tu, .sec, .spine]
  | .loopbackTest .. | .coreRestartDone .. | .shootDownDrained | .shootDownWaitExpiry .. | .holmFailure .. | .h1TurnaroundDone |
    .data .. | .ack .. | .nak .. | .openFrame .. | .openAck .. | .close .. | .readReply .. | .poolReply .. | .remoteCutoff .. |
    .addAck .. | .claim .. | .update .. | .released .. | .versionPhase .. | .imagePart .. | .tkReply .. | .groupMove .. |
    .secondaryRebuild .. | .tierFailure .. | .phyUpdateOverrun .. | .tierReadError .. | .patrolScrub .. | .hpLinkUpChange .. |
    .deviceTemperatureReport .. => [.ctl, .regs, .mem, .poison, .cmds, .tab, .cache, .fab, .tu, .flash, .sec, .spine]
  | .descriptorAcceptance .. => [.ctl, .regs, .mem, .poison, .rings, .lastRef, .cmds, .cache, .fab, .tu, .sec, .spine]
  | .completionRecord .. | .attach .. | .detach .. | .ringFault .. | .hostResponse .. | .hostRequestTimeout .. | .routeLoad .. |
    .routeStore .. | .declare .. | .query .. | .registerWrite .. | .retryMaxReached .. | .reg .. | .memReadReply .. | .memWriteAck .. |
    .failNotice .. | .firmwareReady .. => [.ctl, .regs, .mem, .poison, .rings, .cmds, .tab, .cache, .fab, .tu, .flash, .sec, .spine]
  | .resetAssert .. => [.ctl, .regs, .mem, .poison, .rings, .lastRef, .cmds, .tab, .cache, .fab, .tu, .sec, .spine]

/-- Every register but those named reads as before. -/
def OnlyRegs (l : List Nat) (s t : State) : Prop := ∀ off, off ∉ l → t.reg off = s.reg off

/-- Of a register only the field of `w` bits from `lo` may differ. -/
def OnlyField (off lo w : Nat) (s t : State) : Prop :=
  ∀ i, ¬ (lo ≤ i ∧ i < lo + w) → (t.reg off).testBit i = (s.reg off).testBit i

/-- Of the time and control part only the clock may differ, and it stands at the later of its value and `t`. -/
def ClockAt (t : Nat) (s u : State) : Prop := u.ctl = { s.ctl with now := max s.ctl.now t }

/-- Only the bytes of memory from key `k` on, `n` of them, may differ. -/
def OnlyBytes (k n : Nat) (s t : State) : Prop := ∀ x, ¬ (k ≤ x ∧ x < k + n) → t.byteAt x = s.byteAt x

/-- The Row Cache lines that a FLUSH_CACHE of a ring's partition names by its SCOPE (07 R290): those in the ways that no other partition has,
those of the table's groups and auxiliary regions here, or those of an address range. -/
def Machine.State.flushNames (s : State) (part : Nat) (d : Desc) (l : RcLine) : Bool :=
  let covers := fun (tier off n : Nat) => n != 0 && decide (lineNo tier off ≤ l.tag ∧ l.tag ≤ lineNo tier (off + n - 1))
  if d.scope = 0 then bit (s.ownWays part) l.way
  else if d.scope = 1 then
    s.tab.groups.any (fun g => g.tbl == d.tbl &&
      covers g.tier g.base (groupBytes (s.verFmt d.tbl g.ver) (((s.rec? d.tbl).map (fun r => r.recipe)).getD 0))) ||
    s.tab.vers.any (fun v => v.tbl == d.tbl && (s.fmtAt v.fmt).aux != 0 && covers 0 (s.fmtAt v.fmt).aux (s.fmtAt v.fmt).auxSize)
  else covers (gTier d.rbase) (gOff d.rbase) d.rlen

/-- Of the fabric only the outstanding reads of a ring's slots have gone. -/
def SlotReadsGone (n : Nat) (s t : State) : Prop :=
  t.fab = { s.fab with xchg := s.fab.xchg.filter (fun x => match x.kind with
    | .slotRead m _ => m != n
    | _ => true) }

/-- The rings other than `n` are as before. -/
def OnlyRing (n : Nat) (s t : State) : Prop := ∀ k, k ≠ n → t.ring k = s.ring k

/-- The line lies in the slice that its address names, or the walk of a returning Holm still holds it (01 R21). -/
def Machine.State.inPlace (s : State) (l : RcLine) : Bool := s.slice l.tag == l.slice || s.noAllocate l.tag

/-- Every line that has a tag is in place. -/
def LinesInPlace (s : State) : Prop := ∀ l ∈ s.cache.lines, l.tag ≠ noLine → s.inPlace l = true

/-- A 48-bit counter has risen by one, up to its largest value (16 R588). -/
def Counted (off : Nat) (s t : State) : Prop := t.reg off = min (s.reg off + 1) (2 ^ 48 - 1)

/-- What a field holds after a write of `v` to its register, by its access code (00 R13). -/
def fieldAfter (locked : Bool) (v old : Nat) (x : Fld) : Nat :=
  match x.acc with
  | .rw => bits v x.lo x.w
  | .rwl => if locked then bits old x.lo x.w else bits v x.lo x.w
  | .w1c => bits old x.lo x.w &&& (2 ^ x.w - 1 - bits v x.lo x.w)
  | .w1s => bits old x.lo x.w ||| bits v x.lo x.w
  | .ro | .rc | .wo => bits old x.lo x.w

/-- A register has taken a write by its fields' access codes, and its reserved bits are as before; no other register differs. -/
structure FieldsTaken (off v : Nat) (s t : State) : Prop where
  fields : ∀ d, regAt off = some d → ∀ x ∈ d.fields, t.fld off x.lo x.w = fieldAfter s.locked v (s.reg off) x
  reserved : ∀ i, (∀ d, regAt off = some d → ∀ x ∈ d.fields, ¬ (x.lo ≤ i ∧ i < x.lo + x.w)) →
    (t.reg off).testBit i = (s.reg off).testBit i
  others : OnlyRegs [off] s t

/-- Registers outside the rings whose writes obey more than their fields' access codes, or start something. -/
def ruledRegs : List Nat :=
  [CC_BLOCK_ID, CC_SETUP_LOCK, CC_STOP, NW_CFG, MD_CFG, MD_WAY_DISABLE, MD_LFSR, MT_ORD_POOL_SIZE, MT_JOURNAL_SIZE, MC_MAPOUT, FP_BUF_CFG,
   FP_ROUTE_CTRL, TU_CTX_CTRL, TU_WIN_CTRL, TU_MIG_CTRL, TU_INV_CTRL, TK_FAIL_CTRL, PW_CAP, SE_MBOX_CTRL, TT_FAULT_CTRL, TT_HOLM_CTRL,
   TT_LB_CTRL] ++ (upTo 7).map CC_CORE ++ (upTo 4).map RC_WAY_DISABLE ++ (upTo 8).map FP_PORT_CFG ++ (upTo 8).map TK_REGISTRY ++
  ((upTo 3).map (fun t => (upTo 16).map (MT_REG t))).flatten

/-- A write of the register at an offset is taken by the fields' access codes alone: a register outside the rings that no other rule names,
or one of a ring but RF_RING_CTRL, the ring's structures and RF_RING_CFG only while the ring is DETACHED (03 R143). -/
def byFieldsAlone (s : State) (off : Nat) : Bool :=
  match ringOfOff off with
  | some n => off != RF_CTRL n && (!ringGuarded n off || s.ringState n == 0)
  | none => !ruledRegs.contains off

/-- The newest fault record has a source, a cause and a detail (14 R515). -/
def FaultNewest (source cause detail : Nat) (s : State) : Prop :=
  ∃ r rest, s.spine.faults = r :: rest ∧ r.source = source ∧ r.cause = cause ∧ r.detail = detail

/-- No notification of a fault leaves for another block (14 R518). -/
def NotifiesHere (s : State) : Prop := s.flag TT_CFG 3 = false ∨ gBlock (s.reg TT_NOTIFY_ADDR) = s.id

/-- The registers that a fault's record changes when its notification does not leave for another block (14 R517, R518): those of the log,
and the counter of a full merging buffer, through which the notification passes (07 R283). -/
def faultRegs : List Nat := [TT_FAULT_SEQ, TT_FAULT_STATUS, TT_FAULT_DROP, TT_FLASH_SKIP, MD_MB_FULL]

/-- The parts that a fault's record may change. -/
def faultParts : List StatePart := [.regs, .mem, .poison, .cache, .fab, .tu, .flash, .sec, .spine]

/-- Nothing waits that an event could let go on: no command has begun and is unfinished, and no table operation, held acknowledgement,
carried add, loop-back or notification is pending. -/
structure Quiet (s : State) : Prop where
  cmds : ∀ c ∈ s.cmds, c.phase = .accepted ∨ c.phase = .done
  ops : s.tab.ops = []
  owed : s.tab.owed = []
  carries : s.tab.carries = []
  lb : s.fab.lb = []
  notify : s.spine.notifyOwed = false

/-- A command of the opcodes wanted stands at a handle, is not finished, need not wait for a FENCE (03 R129), and its checks are made. -/
structure Ready (opcode : Nat → Bool) (h : Handle) (c : Cmd) (s : State) : Prop where
  found : s.cmd? h.toNat = some c
  opcode : opcode (leAt c.desc 0 1) = true
  unfinished : c.phase ≠ .done
  turn : c.phase = .accepted → s.mayBegin c = true
  checked : c.checked = true

/-- The commands at other handles are as before. -/
def OnlyCmd (h : Handle) (s t : State) : Prop := ∀ k, k ≠ h.toNat → t.cmd? k = s.cmd? k

/-- The twelve commands of the security mailbox: source, OP and LEN (13 R499). -/
def mailboxCommand : Instr → Option (Src × Nat × BitVec 13)
  | .dlBegin src n => some (src, 0x01, n)
  | .dlChunk src n => some (src, 0x02, n)
  | .verify src n => some (src, 0x03, n)
  | .activate src n => some (src, 0x04, n)
  | .confirm src n => some (src, 0x05, n)
  | .certRead src n => some (src, 0x08, n)
  | .kekSet src n => some (src, 0x10, n)
  | .sakInstall src n => some (src, 0x11, n)
  | .sakInstallPlain src n => some (src, 0x12, n)
  | .sakRetire src n => some (src, 0x13, n)
  | .zeroize src n => some (src, 0x1F, n)
  | .debugUnlock src n => some (src, 0x20, n)
  | _ => none

/-- A GO of the mailbox with an OP and a length is taken by the window and served: not BUSY, not halted, not in the error state. -/
def MailboxServes (src : Src) (op : Nat) (len : BitVec 13) (s : State) : Prop :=
  s.writable src SE_MBOX_CTRL (op + 2 ^ 8 + len.toNat * 2 ^ 24) = true ∧ s.mboxBusy = false ∧ s.flag SE_STATUS 3 = false ∧
  s.flag SE_STATUS 2 = false ∧ s.sec.busyOp = none

/-- RESULT of the mailbox. -/
def Machine.State.mboxResult (s : State) : Nat := s.fld SE_MBOX_CTRL 16 8

/-- A byte of the flash. -/
def Machine.State.flashAt (s : State) (a : Nat) : Byte := flashGet s.flash.cells a

/-- A boot record has been written over the copy that was not current, with the next SEQ; no other byte of the flash differs (13 R489). -/
structure BootWritten (r : BootRec) (s t : State) : Prop where
  record : ∃ copy seq, (copy = 0 ∨ copy = 1) ∧ (∀ c old, s.bootCurrent = some (c, old) → copy ≠ c ∧ seq = old.seq + 1) ∧
    t.flashBytes (copy * 0x10000) 32 = bootRecBytes { r with seq := seq } ∧
    ∀ a, ¬ (copy * 0x10000 ≤ a ∧ a < copy * 0x10000 + 0x10000) → t.flashAt a = s.flashAt a

/-- No flow stands on a port with MACSEC_EN. -/
def KeyedPortsIdle (s : State) : Prop := ∀ f ∈ s.fab.flows, ∀ k, f.port = some k → s.flag (FP_PORT_CFG k) 2 = false

/-- The key of an association. -/
def sameSa (arg : Nat) (a : Sa) : Bool := a.port == bits arg 0 3 && a.rx == bit arg 3 && a.an == bits arg 4 1

/-- The association that the mailbox's argument, a key and 24 further bytes spell (13 R499). -/
def saOf (arg : Nat) (key rest : List Byte) : Sa :=
  { port := bits arg 0 3, rx := bit arg 3, an := bits arg 4 1, key := fitTo 32 key, ssci := leAt rest 0 4
    salt := Machine.bytesAt rest 4 12, pn := leAt rest 16 8 }

/-- Port, frame, instant and type of a received frame (09 R341). -/
def frameOf : Instr → Option (Fin 8 × Frame × Nat × Nat)
  | .data k f t => some (k, f, t, 1)
  | .ack k f t => some (k, f, t, 2)
  | .nak k f t => some (k, f, t, 3)
  | .openFrame k f t => some (k, f, t, 4)
  | .openAck k f t => some (k, f, t, 5)
  | .close k f t => some (k, f, t, 6)
  | .closeAck k f t => some (k, f, t, 7)
  | _ => none

/-- A frame passes the checks on its port, addresses, tags and key (09 R328 to R333, R366), and is not from this block's own ID. -/
structure FrameArrives (k : Nat) (f : Frame) (s : State) : Prop where
  up : s.linkUp k = true
  mac : s.flag FP_CFG 0 = false → f.dmac = s.baseMac + k
  key : s.flag (FP_PORT_CFG k) 2 = true → s.macsecOk k f = true
  clear : s.flag (FP_PORT_CFG k) 2 = false → f.sealed = false
  vlan : s.vlanOk f = true
  ip : s.flag FP_CFG 0 = true → f.etype = 0x86DD ∧ f.ipOk = true ∧ f.udpPort = s.fld FP_ETYPE 16 16 ∧ f.dip6 = s.ip6
  ether : s.flag FP_CFG 0 = false → f.etype = s.fld FP_ETYPE 0 16
  other : frameSrc f ≠ s.id

/-- A frame of a type passes every check, those of its Strait header and its epoch too (09 R340, R343, R345). -/
structure FrameTaken (k : Nat) (f : Frame) (typ : Nat) (s : State) : Prop extends FrameArrives k f s where
  header : s.headerOk f typ = true
  epoch : typ ≠ 4 → (s.flow? (frameSrc f) (frameLane f)).any (fun x => x.epoch == frameEpoch f) = true

/-- The state with a frame counted at its arrival, and its packet number taken (09 R330). -/
def Machine.State.arrived (s : State) (k : Nat) (f : Frame) (t : Nat) : State :=
  let a := s.advance t
  ((a.upFab (fun x => { x with rxBytes := x.rxBytes + a.wireBytes k f.bytes.length })).bump (FP_PORT_CTR k 1) 1).tookPn k f

/-- Nothing waits to be sent, in a flow or for one, and no loop-back waits for a port to drain. -/
def NothingQueued (s : State) : Prop := (∀ g ∈ s.fab.flows, g.queue = []) ∧ s.fab.lb = [] ∧ s.fab.stalled = []

/-- The frames that left since a state, in order. -/
def Left (es : List Egress) (s t : State) : Prop := t.fab.egress = s.fab.egress ++ es

/-- The type of a frame that left. -/
def Machine.Egress.typ (e : Egress) : Nat := bits (leAt e.hdr 0 1) 0 4

/-- `n` frames of a lane can leave a port now: its priority is not paused, and a port that protects its frames has an association with
enough packet numbers (09 R329, R330). -/
def MaySend (s : State) (k l n : Nat) : Prop :=
  s.paused k l = false ∧ (s.flag (FP_PORT_CFG k) 2 = true → ∃ a, s.txSa k = some a ∧ a.pn + n ≤ s.pnLimit k)

/-- A message to a partner can leave this block: it is valid, the partner has a route, and a flow to it exists or fits (09 R335, R344). -/
def CanPost (p l : Nat) (s : State) : Prop :=
  s.valid = true ∧ s.noRoute p = false ∧ p ≠ s.id ∧ ((s.flow? p l).isSome = true ∨ s.fab.flows.length < 8192)

/-- A message is among those of the flow to a partner that are not yet acknowledged whole. -/
def Posted (p l : Nat) (bytes : List Byte) (t : State) : Prop :=
  ∃ x id last, t.flow? p l = some x ∧ (id, bytes, last) ∈ x.live

/-- The flow to a partner waits to open: what is sent to it only joins its queue (09 R346). -/
def StillOpening (p l : Nat) (s : State) : Prop := ∃ w, s.flow? p l = some w ∧ w.st = .opening

/-- A delivered message has left the inbox. -/
def Consumed (src : Nat) (msg : List Byte) (s t : State) : Prop :=
  t.fab.inbox = s.fab.inbox.eraseP (fun m => m.src == src && m.bytes == msg)

/-- A request of a type is at hand and in turn, from a block that is not held FAILED, to which an answer can leave (09 R350, R353; 12
R473). -/
def Requested (src mtype : Nat) (msg : List Byte) (lane : Nat) (s : State) : Prop :=
  mType msg = mtype ∧ s.inTurn src msg = true ∧ s.isFailed src = false ∧ s.laneOf src msg 0 = lane ∧ CanPost src lane s

/-- Request messages that another block sends: source and bytes (09 R351). -/
def requestOf : Instr → Option (BitVec 15 × List Byte × Nat)
  | .readReq src msg _ => some (src, msg, 0x01)
  | .poolReq src msg _ => some (src, msg, 0x02)
  | .add src msg _ => some (src, msg, 0x03)
  | .remoteDoorbell src msg _ => some (src, msg, 0x06)
  | .reg src msg _ => some (src, msg, 0x07)
  | .memRead src msg => some (src, msg, 0x09)
  | .memWrite src msg => some (src, msg, 0x0A)
  | .echo src msg => some (src, msg, 0x0B)
  | _ => none

/-- Table Keeper requests as commands: header and body (12 R481). -/
def tkRequestOf : Instr → Option (TkHdr × TkBody)
  | .claim h b => some (h, b)
  | .recordFetch h tbl => some (h, .recordFetch tbl)
  | .update h u => some (h, .update u)
  | .released h tbl ver g => some (h, .released tbl ver g)
  | .versionPhase h p tbl ver => some (h, .versionPhase p tbl ver)
  | .reserve h b => some (h, b)
  | .commit h tbl step kcmd leader _ => some (h, .commit tbl step kcmd leader)
  | .replicaWrite h d _ => some (h, .replicaWrite d)
  | .groupCopy h d _ => some (h, .groupCopy d)
  | .loadReport h r => some (h, .loadReport r)
  | .failNotice h b _ => some (h, b)
  | .redeliverDone h tbl x => some (h, .redeliverDone tbl x)
  | .imagePart h b => some (h, b)
  | _ => none

/-- A Table Keeper request is next of those of its flow (09 R353). -/
def Machine.State.tkInTurn (s : State) (h : TkHdr) (b : TkBody) : Bool :=
  s.inTurn h.src (mkMsg (tkCode b).1 0 h.handle h.xid (Config.tkEncode h.list b))

/-- A Table Keeper request is at hand and in turn that this block acts on: the sender is not held FAILED, and its registry list is this
block's where the message carries records of the registry (09 R353; 12 R446, R473). -/
structure TkAtHand (h : TkHdr) (b : TkBody) (s : State) : Prop where
  alive : s.ctl.life = .alive
  turn : s.tkInTurn h b = true
  held : s.isFailed h.src = false
  list : registryCode (tkCode b).1 = true → h.list = s.registryList

/-- Such a request, to which an answer can leave. -/
structure TkRequested (h : TkHdr) (b : TkBody) (s : State) : Prop extends TkAtHand h b s where
  post : CanPost h.src h.lane s

/-- The request has left the inbox. -/
def TkTaken (h : TkHdr) (b : TkBody) (s t : State) : Prop :=
  Consumed h.src (mkMsg (tkCode b).1 0 h.handle h.xid (Config.tkEncode h.list b)) s t

/-- The request has been answered on the reverse direction of its flow (09 R350, 12 R481). -/
def TkAnswered (h : TkHdr) (b : TkBody) (status : Nat) (a : TkAnswer) (s t : State) : Prop :=
  Posted h.src h.lane (mkMsg ((tkCode b).1 + 0x80) status h.handle h.xid (Config.tkEncodeAnswer s.registryList a)) t

/-- A Table Keeper message from this block with its next exchange number is on its way to a block (12 R481). -/
def TkSent (dst handle : Nat) (b : TkBody) (s t : State) : Prop :=
  Posted dst (tkCode b).2 (mkMsg (tkCode b).1 0 handle (s.fab.xid % 2 ^ 32) (Config.tkEncode s.registryList b)) t

/-- The fields of a placement entry fit their widths (02 R64). -/
def PEntry.fits (e : PEntry) : Prop := e.owner < 2 ^ 15 ∧ e.tier < 8 ∧ e.state < 8 ∧ e.epoch < 2 ^ 10

/-- No other block follows a table's changes at this coordinator (12 R447, R449). -/
def NoFollowers (tbl : Nat) (s : State) : Prop := s.others tbl = [] ∧ s.tab.journal = []

end Sys2Proof
end

