-- ==== Sys2Proof/Certificates/Slice0/Obligations.lean ====
section
/-! DEFINITION. The statements for the provers: what the block keeps whatever is commanded, and what each family of commands does. -/

open Sys2Proof Sys2Proof.Machine

-- The whole block

/-- The command at the front of the queue runs on the state with the queue's rest; with no command waiting nothing happens (the
model's choice, log 2). -/
def Obligations.StepRunsFrontCommand : Prop :=
  (∀ (c : Instr) (rest : List Instr) (s : State), step { s with pending := c :: rest } = exec c { s with pending := rest }) ∧
  (∀ s : State, s.pending = [] → step s = .next s)

/-- Memory and registers keep their one form, from every state and whatever the command. -/
def Obligations.EveryStepKeepsSoundness : Prop :=
  ∀ s t : State, Sound s → step s = .next t → Sound t

/-- The state after reset is sound, nothing waits, memory lists nothing, and every register reads its reset value of 16. -/
def Obligations.ResetIsSound : Prop :=
  Sound State.reset ∧ State.reset.pending = [] ∧ State.reset.mem = [] ∧ ∀ off, State.reset.reg off = (resetAt off).toNat

/-- No command touches the commands that wait, and none turns the clock back (the clock is the model's, log 3). -/
def Obligations.CommandsLeaveQueueAndPast : Prop :=
  ∀ (c : Instr) (s t : State), exec c s = .next t → t.pending = s.pending ∧ s.ctl.now ≤ t.ctl.now

/-- Every command ends in a next state, from every state, and its frame: nothing outside the parts listed for it in `mayTouch` changes. -/
def Obligations.EveryCommandStaysInItsParts : Prop :=
  ∀ (c : Instr) (s : State), ∃ t, exec c s = .next t ∧ OnlyParts (mayTouch c) s t

/-- Fuses are only blown: no command changes the device secret or a key hash, lowers FUSE_SVN or mends a revoked key. -/
def Obligations.FusesOnlyBlow : Prop :=
  ∀ (c : Instr) (s t : State), exec c s = .next t → FusesGrow s.fuses t.fuses

/-- Whatever the command, a block other than one whose rst_n changes stays as it was or stops; a stopped block leaves its stop by
rst_n alone. -/
def Obligations.OnlyResetEndsStop : Prop :=
  ∀ (c : Instr) (s t : State), exec c s = .next t →
    (∀ x, c ≠ .resetAssert x) → (∀ h x, c = .resetRelease h x → s.ctl.life ≠ .inReset) →
    t.ctl.life = s.ctl.life ∨ t.ctl.life = .stopped

/-- A block in reset, in recovery mode or stopped: every command that does not reach it leaves the whole state as it was.

A software trigger that the register window does not take changes nothing. -/
def Obligations.UntakenCommandsChangeNothing : Prop :=
  (∀ (c : Instr) (s : State), s.ctl.life ≠ .alive → actsAsleep s c = false → exec c s = .next s) ∧
  (∀ (c : Instr) (w : Src × Nat × Nat) (s : State), softWrite c = some w → s.writable w.1 w.2.1 w.2.2 = false → exec c s = .next s)

/-- When the window takes a write: a stopped block takes only TT_ registers, from the host port or the network; before FW_READY only
firmware writes outside TT_; the network writes only TT_, while WS_IJTAG opens it; in recovery mode only the network is served; in reset
nothing is; the host port writes in local-host mode and while H1 is not active; a block writes where FP_RA_ALLOW gives it a level. -/
def Obligations.WindowTakesOnlyItsSources : Prop :=
  ∀ (s : State) (src : Src) (off v : Nat), s.writable src off v = true →
    (s.ctl.life = .stopped → isTT off = true ∧ (src = .host ∨ src = .jtag)) ∧
    (s.fwReady = false → src ≠ .fw → isTT off = true) ∧
    (src = .jtag → isTT off = true ∧ s.ctl.wrap = .ijtag) ∧
    (s.ctl.life = .recovery → src = .jtag) ∧
    s.ctl.life ≠ .inReset ∧
    (src = .host → s.headless = false ∧ s.flag TT_LB_CTRL 1 = false) ∧
    (∀ b, src = .reg b → 1 ≤ s.raLevel b)

-- Rings (03)

/-- A TAIL write to a local ring that is ATTACHED moves the tail when the new value lies at or after the present tail and at most one ring
length ahead of the head, and the slots up to it wait for acceptance from that instant; any other write is ignored, keeps the tail and adds 1
to DB_ERR, up to 65535. -/
def Obligations.DoorbellTailTakenOrCounted : Prop :=
  ∀ (n : Fin 64) (v : Word64) (t : Nat) (s : State), s.ctl.life = .alive →
    ∃ u, exec (.doorbellTailWrite n v t) s = .next u ∧ ClockAt t s u ∧
      (let m := 2 ^ (s.sqLog n + 1)
       let r := s.ring n
       let ahead := (v.toNat + m - r.head) % m
       let good := s.ringState n = 1 ∧ s.remoteRing n = false ∧ v.toNat < m ∧ ahead ≤ 2 ^ s.sqLog n ∧ (r.tail + m - r.head) % m ≤ ahead
       (good → u.ring n = (if r.tail = v.toNat then r else { r with tail := v.toNat, bells := r.bells ++ [(v.toNat, max s.ctl.now t)] }) ∧
         OnlyRing n s u ∧ OnlyParts [.ctl, .rings] s u) ∧
       (¬ good → u.fld (RF_STATUS n) 10 16 = min (s.fld (RF_STATUS n) 10 16 + 1) 0xFFFF ∧ OnlyField (RF_STATUS n) 10 16 s u ∧
         OnlyRegs [RF_STATUS n] s u ∧ OnlyParts [.ctl, .regs] s u))

/-- A CQ_HEAD write to a ring that is ATTACHED or DETACHING moves CQ_HEAD when the value lies between it and CQ_TAIL; any other adds 1
to DB_ERR, up to 65535. -/
def Obligations.CqHeadTakenOrCounted : Prop :=
  ∀ (n : Fin 64) (v : Word64) (s : State), s.ctl.life = .alive →
    ∃ u, exec (.cqHeadWrite n v) s = .next u ∧
      (let m := 2 ^ (s.cqLog n + 1)
       let r := s.ring n
       let good := (s.ringState n = 1 ∨ s.ringState n = 2) ∧ v.toNat < m ∧ (v.toNat + m - r.cqHead) % m ≤ (r.cqTail + m - r.cqHead) % m
       (good → u.ring n = { r with cqHead := v.toNat } ∧ OnlyRing n s u ∧ OnlyParts [.rings] s u) ∧
       (¬ good → u.fld (RF_STATUS n) 10 16 = min (s.fld (RF_STATUS n) 10 16 + 1) 0xFFFF ∧ OnlyField (RF_STATUS n) 10 16 s u ∧
         OnlyRegs [RF_STATUS n] s u ∧ OnlyParts [.regs] s u))

/-- ATTACH of a DETACHED ring whose checks pass gives STATE ATTACHED, ATTACH_RESULT OK, all pointers 0 and the lower of the two minor
versions; a failed check only gives ATTACH_RESULT; a ring that is not DETACHED ignores ATTACH.

DETACH in a block in which nothing else waits: pending doorbells, held slots and the reads of its slots go; with FORCE the ring's commands that have not begun
are due as ABORTED; the ring is DETACHED when no command of it is left, else DETACHING. A DETACHED ring ignores it, and a DETACHING one without
FORCE.

A failed access to a structure of an ATTACHED or DETACHING ring makes it FAULTED: its commands that have not begun go without a record;
another ring, and a ring in another state, is as before. -/
def Obligations.RingsAttachDetachAndFault : Prop :=
  (∀ (src : Src) (n : Fin 64) (value : Word64) (s : State),
    let v := setBits value.toNat 0 2 1
    s.writable src (RF_CTRL n) v = true →
    ∃ u, exec (.attach src n value) s = .next u ∧
      (s.ringState n ≠ 0 → u = s) ∧
      (let st := s.attachChecks n (bits v 8 8)
       (s.ringState n = 0 → st ≠ sOk → u.fld (RF_STATUS n) 2 8 = st % 256 ∧ OnlyField (RF_STATUS n) 2 8 s u ∧
         OnlyRegs [RF_STATUS n] s u ∧ OnlyParts [.regs] s u) ∧
       (s.ringState n = 0 → st = sOk → ∀ (s1 : State) (map : List (Nat × Nat × Bool)),
         (if s.ptrGlobal n then (s, some []) else s.buildMap n) = (s1, some map) →
         u.ringState n = 1 ∧ u.fld (RF_STATUS n) 2 8 = 0 ∧ OnlyField (RF_STATUS n) 0 10 s1 u ∧ OnlyRegs [RF_STATUS n] s1 u ∧
         u.ring n = { Ring.zero with map := map, minor := min (bits v 16 8) (s1.fld RF_IFACE_VERSION 0 8) } ∧
         OnlyRing n s1 u ∧ OnlyParts [.regs, .rings] s1 u))) ∧
  (∀ (src : Src) (n : Fin 64) (value : Word64) (s : State),
    let v := value.toNat ||| 2
    s.writable src (RF_CTRL n) v = true → Quiet s →
    ∃ u, exec (.detach src n value) s = .next u ∧
      (s.ringState n = 0 ∨ (s.ringState n = 2 ∧ bit v 2 = false) → u = s) ∧
      (¬ (s.ringState n = 0 ∨ (s.ringState n = 2 ∧ bit v 2 = false)) →
        u.ringState n = (if s.cmds.any (fun c => c.ring == n) then 2 else 0) ∧
        u.ring n = { s.ring n with bells := [], slots := [] } ∧ OnlyRing n s u ∧
        u.cmds = (if bit v 2 then s.cmds.map (fun c => if c.ring == n.val && c.phase == .accepted then
          { c with phase := .done, status := sAborted } else c) else s.cmds) ∧ SlotReadsGone n s u ∧
        OnlyField (RF_STATUS n) 0 2 s u ∧ OnlyRegs [RF_STATUS n] s u ∧ OnlyParts [.regs, .rings, .cmds, .fab] s u)) ∧
  (∀ (n : Fin 64) (s : State), s.ctl.life = .alive → Quiet s →
    ∃ u, exec (.ringFault n) s = .next u ∧
      (s.ringState n = 0 ∨ s.ringState n = 3 → u = s) ∧
      (s.ringState n = 1 ∨ s.ringState n = 2 → u.ringState n = 3 ∧ u.ring n = { s.ring n with broken := true, bells := [], slots := [] } ∧
        OnlyRing n s u ∧ u.cmds = s.cmds.filter (fun c => !(c.ring == n.val && c.phase == .accepted)) ∧ SlotReadsGone n s u ∧
        OnlyField (RF_STATUS n) 0 2 s u ∧ OnlyRegs [RF_STATUS n] s u ∧ OnlyParts [.regs, .rings, .cmds, .fab] s u))

-- Control Complex (13, 16)

/-- A write of 1 to LOCK sets it, and a running security core measures the event into MR7 first; a second write changes nothing.

A write of CC_STOP while LOCK is set, or without bit 0, changes nothing but the clock. -/
def Obligations.LockIsMeasuredAndHoldsOffStop : Prop :=
  (∀ (src : Src) (value : Word64) (s : State), s.writable src CC_SETUP_LOCK value.toNat = true → bit value.toNat 0 = true →
    ∃ u, exec (.setupLock src value) s = .next u ∧ u.locked = true ∧ (s.locked = true → u = s) ∧
      (s.locked = false → s.secRuns = true → ∀ w, w < 6 →
        u.reg (SE_MR 7 w) = leAt (sha384 (s.mr 7 ++ sha384 (eventRecord 2 0 (zeros 48)))) (8 * w) 8) ∧
      OnlyRegs (CC_SETUP_LOCK :: (upTo 6).map (SE_MR 7)) s u ∧ OnlyParts [.regs] s u) ∧
  (∀ (src : Src) (value : Word64) (t : Nat) (s : State), s.writable src CC_STOP value.toNat = true →
    (s.locked = true ∨ bit value.toNat 0 = false) →
    ∃ u, exec (.stop src value t) s = .next u ∧ ClockAt t s u ∧ OnlyParts [.ctl] s u)

/-- A core other than the security core that is told to restart, hangs with a watchdog period set, or faults: with the security core running
and fewer than two earlier restarts within one second it restarts, and its count goes up.

The reload of a restarting core ends with the right digest: the core runs again, and MR7 is extended with the event.

The security core that hangs or faults is halted: STATE HALTED, SEC_HALTED set and a fault recorded. -/
def Obligations.CoresRestartOrHalt : Prop :=
  (∀ (i : Instr) (c : Fin 7) (t : Nat) (s : State), s.ctl.life = .alive → c ≠ 0 → s.coreState c = 0 → s.coreState 0 ≠ 3 →
    ((s.sec.restarts.filter (fun r => decide (t < r.2 + Sys2Proof.sec))).filter (fun r => r.1 == c.val)).length < 2 →
    (i = .coreFault c t ∨ (i = .watchdogExpiry c t ∧ s.fld (CC_CORE c) 32 16 ≠ 0) ∨
      ∃ src value, i = .restart src c value t ∧ s.writable src (CC_CORE c) (value.toNat ||| 1) = true) →
    ∃ u, exec i s = .next u ∧ ClockAt t s u ∧ u.coreState c = 1 ∧
      u.fld (CC_CORE c) 16 16 = min (s.fld (CC_CORE c) 16 16 + 1) 0xFFFF ∧ u.sec.restartSum = s.sec.restartSum + 1 ∧
      (∀ src value, i = .restart src c value t →
        u.fld (CC_CORE c) 32 16 = if s.locked then s.fld (CC_CORE c) 32 16 else bits value.toNat 32 16) ∧
      ((∀ src value, i ≠ .restart src c value t) → u.fld (CC_CORE c) 32 16 = s.fld (CC_CORE c) 32 16) ∧
      OnlyRegs [CC_CORE c] s u ∧ OnlyParts [.ctl, .regs, .sec] s u) ∧
  (∀ (c : Fin 7) (t : Nat) (s : State), s.ctl.life = .alive → Quiet s → c ≠ 0 → s.coreState c = 1 → s.secRuns = true →
    ∃ u, exec (.coreRestartDone c true t) s = .next u ∧ ClockAt t s u ∧ u.coreState c = 0 ∧ OnlyField (CC_CORE c) 2 2 s u ∧
      (∀ w, w < 6 → u.reg (SE_MR 7 w) =
        leAt (sha384 (s.mr 7 ++ sha384 (eventRecord 1 c ((s.sec.digests[min c.val 3]?).getD [])))) (8 * w) 8) ∧
      OnlyRegs (CC_CORE c :: (upTo 6).map (SE_MR 7)) s u ∧ OnlyParts [.ctl, .regs] s u) ∧
  (∀ (i : Instr) (t : Nat) (s : State), s.ctl.life = .alive → NotifiesHere s → (i = .coreFault 0 t ∨ i = .watchdogExpiry 0 t) →
    ∃ u, exec i s = .next u ∧ ClockAt t s u ∧ u.coreState 0 = 3 ∧
      (s.coreState 0 ≠ 3 → u.flag SE_STATUS 3 = true ∧ FaultNewest 20 0x23 0 u ∧ OnlyField (CC_CORE 0) 2 2 s u ∧
        OnlyField SE_STATUS 3 1 s u) ∧
      OnlyRegs (CC_CORE 0 :: SE_STATUS :: faultRegs) s u ∧ OnlyParts (.ctl :: faultParts) s u)

/-- The fatal causes: a write of CC_STOP while LOCK is clear, a cause of the table, the reference clock without an edge for more than 2 µs,
and a trial boot that is not confirmed in time. The block stops until reset: pm_fatal is set, VALID is clear, and the cause is recorded. -/
def Obligations.FatalCauseStopsTheBlock : Prop :=
  ∀ (i : Instr) (t source cause detail : Nat) (s : State), s.ctl.life = .alive →
    ((∃ src value, i = .stop src value t ∧ s.writable src CC_STOP value.toNat = true ∧ bit value.toNat 0 = true ∧ s.locked = false ∧
        source = 20 ∧ cause = 0x48 ∧ detail = 0) ∨
     (∃ (k : BitVec 16) (d : Word64), i = .fatalStop k d t ∧ 0x40 ≤ k.toNat ∧ k.toNat ≤ 0x49 ∧ source = fatalSource cause ∧ cause = k.toNat ∧
        detail = d.toNat) ∨
     (∃ gap, i = .refClkLost gap t ∧ 2000 < gap ∧ source = 20 ∧ cause = 0x49 ∧ detail = min gap (2 ^ 64 - 1)) ∨
     (i = .confirmWaitExpiry t ∧ s.trial = true ∧ s.secRuns = true ∧ s.ctl.released + max 1 (s.fld SE_CFG 1 8) * Sys2Proof.sec ≤ t ∧
        source = 20 ∧ cause = 0x44 ∧ detail = s.sec.slot)) →
    ∃ u, exec i s = .next u ∧ u.ctl.life = .stopped ∧ u.ctl.pmFatal = true ∧ u.ctl.now = max s.ctl.now t ∧ u.ctl.stopAt = u.ctl.now ∧
      u.valid = false ∧ FaultNewest source cause detail u ∧ u.cmds = s.cmds ∧ u.rings = s.rings ∧ u.tab = s.tab ∧ u.fuses = s.fuses

-- Opcodes (03 R127 to R131)

/-- NOP ends with OK. FENCE ends with OK when no command accepted earlier on its ring is left, and waits otherwise. No other command,
register or byte of memory changes.

STATS returns the table record, the ring's counters or the last telemetry snapshot: inline, or at DSTP once the write is made
(state `s1`).

FLUSH_CACHE empties the merging buffer and invalidates in the Row Cache what its SCOPE names: the ways that only its ring's partition
uses, the groups and auxiliary regions of its table, or the lines of an address range (a line that waits for sectors keeps its place without
any). ROWS counts the lines that held a sector. The Metadata Cache gives up the lines of the range, and none for SCOPE 0. Memory is as before. -/
def Obligations.SmallOpcodesEnd : Prop :=
  ((∀ (h : Handle) (c : Cmd) (s : State), s.ctl.life = .alive → Ready (· == oNop) h c s →
    ∃ u, exec (.nop h) s = .next u ∧ u.cmd? h.toNat = some { c with status := sOk, phase := .done } ∧ OnlyCmd h s u ∧
      OnlyParts [.cmds, .tab, .fab, .tu] s u) ∧
  (∀ (h : Handle) (c : Cmd) (s : State), s.ctl.life = .alive → Ready (· == oFence) h c s →
    ∃ u, exec (.fence h) s = .next u ∧
      u.cmd? h.toNat = some (if (s.ahead c).isEmpty then { c with status := sOk, phase := .done } else { c with phase := .waiting }) ∧
      OnlyCmd h s u ∧ OnlyParts [.cmds, .tab, .fab, .tu] s u)) ∧
  (∀ (h : Handle) (t : Nat) (c : Cmd) (s : State), s.ctl.life = .alive → Ready (· == oStats) h c s →
    let d := Desc.of c.desc
    let bs := if d.sel = 0 then ((s.rec? d.tbl).map s.recordBytes).getD (zeros 64)
      else if d.sel = 1 then (s.ring c.ring).stats else fitTo 128 s.spine.snap
    (c.inl = true → ∃ u, exec (.stats h t) s = .next u ∧ ClockAt t s u ∧
      u.cmd? h.toNat = some { c with result := bs, status := sOk, phase := .done } ∧ OnlyCmd h s u ∧
      OnlyParts [.ctl, .cmds, .tab, .fab, .tu] s u) ∧
    (∀ s1, c.inl = false → (s.advance t).writeUnits c 0 [[(d.dstp, bs)]] (.ringWrite c.ring) 1 = (s1, .done) →
      ∃ u, exec (.stats h t) s = .next u ∧ u.cmd? h.toNat = (s1.cmd? h.toNat).map (fun x => { x with status := sOk, phase := .done }) ∧
        OnlyCmd h s1 u ∧ OnlyParts [.cmds, .tab, .fab, .tu] s1 u)) ∧
  (∀ (h : Handle) (c : Cmd) (s : State), s.ctl.life = .alive → Ready (· == oFlush) h c s →
    let d := Desc.of c.desc
    let named := s.flushNames (s.ringPart c.ring) d
    ∃ u, exec (.flushCache h) s = .next u ∧ u.cmd? h.toNat = some { c with
        rows := min (s.cache.lines.filter (fun l => named l && l.sectors != 0)).length 0xFFFFFFFF, status := sOk, phase := .done } ∧
      u.cache.mb = [] ∧ u.cache.lines = s.cache.lines.filterMap (fun l => if named l then l.emptied else some l) ∧
      (∀ l ∈ u.cache.lines, named l = true → l.sectors = 0) ∧ (d.scope = 0 → u.cache.md = s.cache.md) ∧
      (d.scope = 2 → u.cache.md = s.cache.md.filter (fun l => !decide (l.tag * 64 < d.rbase + d.rlen ∧ d.rbase < l.tag * 64 + 64))) ∧
      OnlyCmd h s u ∧ OnlyParts [.cmds, .tab, .cache, .fab, .tu] s u)

/-- A diagnostic ends with one of the completion codes, which is a free value (log 30). ATTEST that finds the security core
stopped serving ends with ABORTED; otherwise its report is written at DSTP and it ends with OK. -/
def Obligations.DiagnosticAndAttestEnd : Prop :=
  (∀ (h : Handle) (c : Cmd) (s : State), s.ctl.life = .alive → Ready isDiag h c s →
    ∃ u x, exec (.diagnostics h) s = .next u ∧ u.cmd? h.toNat = some x ∧ x.phase = .done ∧ x.status ∈ statusCodes ∧ OnlyCmd h s u ∧
      OnlyParts [.ctl, .cmds, .tab, .fab, .tu] s u) ∧
  (∀ (h : Handle) (t : Nat) (c : Cmd) (s : State), s.ctl.life = .alive → Ready (· == oAttest) h c s →
    let d := Desc.of c.desc
    let body := s.reportBody (Machine.bytesAt d.raw 64 32)
    let sig := fitTo 96 (Config.ecdsaSign s.fuses.uds (sha384 body) s.sec.drbg)
    let a := (s.advance t).upSec (fun x => { x with drbg := (x.drbg + 1) % 2 ^ 20 })
    (s.flag SE_STATUS 2 = true ∨ s.flag SE_STATUS 3 = true → ∃ u, exec (.attest h t) s = .next u ∧ ClockAt t s u ∧
      u.cmd? h.toNat = some { c with status := sAborted, phase := .done } ∧ OnlyCmd h s u ∧ OnlyParts [.ctl, .cmds, .tab, .fab, .tu] s u) ∧
    (∀ s1, s.flag SE_STATUS 2 = false → s.flag SE_STATUS 3 = false →
      a.writeUnits c 0 [[(d.dstp, body ++ sig)]] (.ringWrite c.ring) 1 = (s1, .done) →
      ∃ u, exec (.attest h t) s = .next u ∧ u.cmd? h.toNat = (s1.cmd? h.toNat).map (fun x => { x with status := sOk, phase := .done }) ∧
        OnlyCmd h s1 u ∧ OnlyParts [.cmds, .tab, .fab, .tu] s1 u))

/-- A look-up whose replies are in: an event that does not substitute ends it with that event's status and block, without a result;
otherwise, with no unit left open by an event, it ends with OK, or with DEGRADED when a unit is degraded under DEGRADE_OK, and its units
stand in the inline result, or at DSTP once the write is made (state `s1`). -/
def Obligations.LookupEndsWithItsUnits : Prop :=
  ∀ (i : Instr) (h : Handle) (t : Nat) (c : Cmd) (r : TableRec) (v : Version) (s : State), s.ctl.life = .alive →
    ((i = .lookup h t ∧ Ready (· == oLookup) h c s) ∨ (i = .lookupPool h t ∧ Ready (· == oPool) h c s)) →
    c.phase = .waiting → c.stage = 1 → s.gatherWaits c = false →
    let d := Desc.of c.desc
    s.rec? d.tbl = some r → s.ver? d.tbl c.ver = some v → c.endStatus = sOk →
    let f := s.fmtAt v.fmt
    let n := if d.opc = oPool ∧ d.project then (s.tblFmt d.ptbl).dim else f.dim
    let us := s.unitsOf c d r f n
    let degraded := d.degr && us.any (fun x => decide (x.degr > 0))
    let whole := ∀ k, c.unitOpen d k = false
    let evs := c.allEvents d s.id
    (∀ st blk, decideEvents d.degr evs.1 evs.2 = some (st, blk) →
      ∃ u x, exec i s = .next u ∧ u.cmd? h.toNat = some x ∧ x.status = st ∧ x.failblk = blk ∧ x.phase = .done ∧ x.rows = c.rows ∧
        x.result = c.result ∧ OnlyCmd h s u ∧ u.rings = s.rings ∧ u.fuses = s.fuses ∧ u.flash = s.flash ∧ u.sec = s.sec) ∧
    (decideEvents d.degr evs.1 evs.2 = none → whole → c.inl = true → d.resume = 0 →
      ∃ u x, exec i s = .next u ∧ ClockAt t s u ∧ u.cmd? h.toNat = some x ∧ x.status = (if degraded then sDegraded else sOk) ∧
        x.phase = .done ∧ x.rows = sumOf (us.map (fun y => y.count)) ∧ x.result = inlineResult d [] (layout c d n f.dim us) ∧
        OnlyCmd h s u ∧ OnlyParts [.ctl, .regs, .cmds, .tab, .fab, .tu] s u) ∧
    (∀ s1, decideEvents d.degr evs.1 evs.2 = none → whole → c.inl = false →
      (s.advance t).writeUnits c d.resume (layout c d n f.dim us) (.ringWrite c.ring) 1 = (s1, .done) →
      ∃ u x, exec i s = .next u ∧ u.cmd? h.toNat = x ∧
        x = (s1.cmd? h.toNat).map (fun y => { reportUnits (if degraded then sDegraded else sOk) us y with
          status := if degraded then sDegraded else sOk, phase := .done }) ∧
        OnlyCmd h s1 u ∧ OnlyParts [.regs, .cmds, .tab, .fab, .tu] s1 u)

/-- A backward command whose adds have been handed off and acknowledged, every one: the events after hand-off decide its status, in their
order. COMMIT_STEP on a table without ordered adds ends with OK, and so does one that every owner has confirmed. -/
def Obligations.BackwardAndCommitEnd : Prop :=
  (∀ (i : Instr) (h : Handle) (t : Nat) (c : Cmd) (s : State), s.ctl.life = .alive →
    ((i = .scatterAdd h t ∧ Ready (· == oScatter) h c s) ∨ (i = .poolBackward h t ∧ Ready (· == oBackward) h c s)) →
    let d := Desc.of c.desc
    c.stage = 4 → (s.rec? d.tbl).isSome = true → s.unacked h.toNat = [] → s.ownWaits h.toNat = false →
    let denied := c.events.any (fun e => e.1 == 10)
    let lost := c.events.any (fun e => e.1 == 11)
    ∃ u x, exec i s = .next u ∧ ClockAt t s u ∧ u.cmd? h.toNat = some x ∧ x.phase = .done ∧ x.failblk = 0xFFFF ∧ x.rows = c.rows ∧
      x.status = (if denied then sDenied else if lost then (if d.degr then sDegraded else sUncorr)
        else if bit c.flags 4 then sDegraded else sOk) ∧
      OnlyCmd h s u ∧ OnlyParts [.ctl, .cmds, .tab, .fab, .tu] s u) ∧
  (∀ (h : Handle) (t : Nat) (c : Cmd) (r : TableRec) (s : State), s.ctl.life = .alive → Ready (· == oCommit) h c s →
    s.rec? (Desc.of c.desc).tbl = some r →
    (c.stage = 0 ∧ r.ordered = false) ∨ (c.stage = 1 ∧ c.owners = []) →
    ∃ u, exec (.commitStep h t) s = .next u ∧ ClockAt t s u ∧ u.cmd? h.toNat = some { c with status := sOk, phase := .done } ∧
      OnlyCmd h s u ∧ OnlyParts [.ctl, .cmds, .tab, .fab, .tu] s u)

/-- The home block's part of the five table commands (TABLE_CREATE without recipe parameters): with another block as coordinator and a
route to it, the command waits, and the request that its opcode names is sent there and awaited, that of TABLE_CREATE with what the home
block finds: whether it holds 16,384 records, and a format that its ring or its format slots cannot take. -/
def Obligations.TableCommandAsksCoordinator : Prop :=
  ∀ (i : Instr) (h : Handle) (t : Nat) (c : Cmd) (b : Nat) (s : State), s.ctl.life = .alive →
    ((i = .tableCreate h t ∧ Ready (· == oCreate) h c s ∧ (Desc.of c.desc).recipe = 0) ∨ (i = .tableDestroy h t ∧ Ready (· == oDestroy) h c s) ∨
     (i = .versionPublish h t ∧ Ready (· == oPublish) h c s) ∨ (i = .versionSwitch h t ∧ Ready (· == oSwitch) h c s) ∨
     (i = .migrate h t ∧ Ready (· == oMigrate) h c s)) →
    let d := Desc.of c.desc
    c.stage = 0 → s.coordinator d.tbl = some b → b ≠ s.id → s.noRoute b = false →
    let home := if bits d.fmt 0 4 = 8 ∧ (s.ring c.ring).minor < 2 then sBadFormat else if s.noSlot d.fmt then sBadTable else sOk
    let body := tableAsk d c.ver (createArgs d c.ctx [] (decide (s.tab.recs.length ≥ 16384)) home)
    ∃ u, exec i s = .next u ∧ ClockAt t s u ∧
      u.cmd? h.toNat = some { c with stage := 1, phase := .waiting, limit := if d.opc = oMigrate then s.groupsAt c d else c.limit } ∧
      u.fab.xchg = s.fab.xchg ++ [{ xid := s.fab.xid % 2 ^ 32, dst := b, kind := .ask, handle := h.toNat, lane := (tkCode body).2
                                    msg := mkMsg (tkCode body).1 0 h.toNat (s.fab.xid % 2 ^ 32) (Config.tkEncode s.registryList body) }] ∧
      OnlyCmd h s u ∧ OnlyParts [.ctl, .regs, .cmds, .fab, .sec] s u

/-- Commands that run from their acceptance to their end at once, since nothing of them lies in another block or must be awaited: NOP; a look-up
without projection whose indices and result are inline and whose rows all lie here, read as the default row, or are padding (`g`: the state
once it has gathered); and the table commands in a registry of this block alone. TABLE_CREATE, when the coordinator's checks pass and the map
has room (format codes 0 to 7, no default row, no recipe), leaves the record with version 1 published. TABLE_DESTROY, when no command names
the table and no add of it is under way, leaves no record and no version, and the identifier taken. VERSION_PUBLISH and VERSION_SWITCH move the
version words, and a switched-out version that no command is bound to is gone. MIGRATE of groups that need no move ends with ROWS 0. -/
def Obligations.RingCommandsRunToTheirEnd : Prop :=
  (∀ (h : Handle) (c : Cmd) (s : State), s.ctl.life = .alive → Ready (· == oNop) h c s → c.phase = .accepted →
    ∃ u, exec (.nop h) s = .next u ∧ u.cmd? h.toNat = some { c with status := sOk, phase := .done } ∧ OnlyCmd h s u ∧ u.regs = s.regs ∧
      u.mem = s.mem ∧ u.rings = s.rings) ∧
  (∀ (i : Instr) (h : Handle) (t : Nat) (c c1 : Cmd) (r : TableRec) (v : Version) (s : State), s.ctl.life = .alive →
    ((i = .lookup h t ∧ Ready (· == oLookup) h c s) ∨ (i = .lookupPool h t ∧ Ready (· == oPool) h c s ∧ (Desc.of c.desc).project = false)) →
    let d := Desc.of c.desc
    c.phase = .accepted → c.stage = 0 → d.inl = true → c.inl = true → d.resume = 0 → s.rec? d.tbl = some r → s.ver? d.tbl c.ver = some v →
    let g := (s.advance t).gatherStart c d d.inlineLists 0
    g.cmd? h.toNat = some c1 → g.gatherWaits c1 = false → c1.endStatus = sOk → g.rec? d.tbl = some r → g.ver? d.tbl c.ver = some v →
    (∀ p ∈ c1.pos, p.kind = .loc ∨ p.kind = .dflt ∨ p.kind = .pad) →
    let f := g.fmtAt v.fmt
    let us := g.unitsOf c1 d r f f.dim
    ∃ u x, exec i s = .next u ∧ u.ctl.now = max s.ctl.now t ∧ u.cmd? h.toNat = some x ∧ x.phase = .done ∧
      x.status = (if d.degr && us.any (fun y => decide (y.degr > 0)) then sDegraded else sOk) ∧ x.rows = sumOf (us.map (fun y => y.count)) ∧
      x.result = inlineResult d [] (layout c1 d f.dim f.dim us) ∧ OnlyCmd h s u ∧ u.rings = s.rings ∧ u.fuses = s.fuses) ∧
  (∀ (h : Handle) (t : Nat) (c : Cmd) (s : State), s.ctl.life = .alive → h ≠ noHandle → s.registryList = [s.id] → s.tab.ops = [] →
    let d := Desc.of c.desc
    let ended := fun (u : State) => u.ctl.now = max s.ctl.now t ∧ (∃ x, u.cmd? h.toNat = some x ∧ x.phase = .done ∧ x.status = sOk) ∧
      u.tab.ops = [] ∧ OnlyCmd h s u ∧ u.rings = s.rings ∧ u.fuses = s.fuses ∧ u.flash = s.flash
    c.stage = 0 → c.endStatus = sOk →
    (∀ a space, Ready (· == oCreate) h c s → d.recipe = 0 → bits d.fmt 0 4 < 8 → s.tab.recs.length < 16384 → s.noSlot d.fmt = false →
      s.createCheck d.tbl (createArgs d c.ctx [] false sOk) s.id = (sOk, a) → a.owners = [s.id] → bit a.tflags 3 = false →
      space = (((s.alloc 0 64 64).map (fun x => x.2)).getD s).allocMeta (4 * ((d.rows + 4095) / 4096))
        (if 4 * ((d.rows + 4095) / 4096) ≤ 262144 then [0] else [1]) → space.isSome = true →
      ∃ u r v, exec (.tableCreate h t) s = .next u ∧ ended u ∧ u.rec? d.tbl = some r ∧ r.curVer = 0 ∧ r.pubVer = 1 ∧ r.rows = d.rows ∧
        r.ctx = c.ctx ∧ r.owners = [s.id] ∧ u.ver? d.tbl 1 = some v ∧ v.st = .published) ∧
    (∀ r, Ready (· == oDestroy) h c s → s.rec? d.tbl = some r → (s.reg? d.tbl).any (fun e => e.destroying) = false → s.others d.tbl = [] →
      s.canAck (.destroy d.tbl) = true →
      ∃ u, exec (.tableDestroy h t) s = .next u ∧ ended u ∧ u.rec? d.tbl = none ∧ (∀ k, u.ver? d.tbl k = none) ∧
        u.reg? d.tbl = some { tbl := d.tbl, holders := [s.id], replicas := [], destroying := true, redeliver := [] }) ∧
    (∀ r, Ready (· == oPublish) h c s → s.rec? d.tbl = some r → s.others d.tbl = [] → r.pubVer = 0 → r.curVer ≠ 0 →
      s.publishFmt d.tbl d.fmt = true → (s.publishReserve d.tbl (nextVer r.curVer)).isSome = true →
      ∃ u v, exec (.versionPublish h t) s = .next u ∧ ended u ∧ (u.rec? d.tbl) = some { r with pubVer := nextVer r.curVer } ∧
        u.ver? d.tbl (nextVer r.curVer) = some v ∧ v.st = .published) ∧
    (∀ r v, Ready (· == oSwitch) h c s → s.rec? d.tbl = some r → s.others d.tbl = [] → r.pubVer ≠ 0 → r.pubVer ≠ r.curVer →
      (d.ver = 0 ∨ d.ver = r.pubVer) → s.ver? d.tbl r.pubVer = some v → s.canAck (.prepare d.tbl) = true → s.boundTo d.tbl r.curVer = false →
      ∃ u, exec (.versionSwitch h t) s = .next u ∧ ended u ∧ u.rec? d.tbl = some { r with curVer := r.pubVer, pubVer := 0 } ∧
        u.ver? d.tbl r.pubVer = some { v with st := .current } ∧ (r.curVer ≠ 0 → u.ver? d.tbl r.curVer = none)) ∧
    (∀ r v, Ready (· == oMigrate) h c s → s.rec? d.tbl = some r → s.ver? d.tbl c.ver = some v → d.dblk = s.id →
      (∀ k, d.group + d.resume ≤ k → k < d.group + d.ngroup →
        let e := s.pentry v.pmap k
        s.corrupt e = false ∧ (e.state = pUnmapped ∨ e.state = pLost ∨ (e.owner = s.id ∧ e.tier = d.dtier))) →
      ∃ u, exec (.migrate h t) s = .next u ∧ ended u ∧ (∃ x, u.cmd? h.toNat = some x ∧ x.rows = 0) ∧ u.rec? d.tbl = some r))

/-- ROWS_WRITE of rows that are all written, with nothing left to wait for, ends with OK and counts its rows without padding; of the default
row or an auxiliary region, whose change every holder has confirmed, it ends with OK. ROWS_READ returns the default row as FP32, and
rows that are all at hand as their stored bytes: inline, or at DSTP once the write is made (state `s1`). -/
def Obligations.RowCommandsEnd : Prop :=
  (∀ (h : Handle) (t : Nat) (c : Cmd) (r : TableRec) (v : Version) (s : State), s.ctl.life = .alive → Ready (· == oRowsWrite) h c s →
    let d := Desc.of c.desc
    s.rec? d.tbl = some r → s.ver? d.tbl c.ver = some v → c.stage = 4 → d.target = 0 → s.asking h.toNat = false →
    s.ownWaits h.toNat = false → c.endStatus = sOk → c.events = [] → (∀ g ∈ c.got, g.2.2.2 = true) →
    ∃ u, exec (.rowsWrite h t) s = .next u ∧ ClockAt t s u ∧
      u.cmd? h.toNat = some { c with rows := (c.got.filter (fun g => g.2.1 != padIndex)).length, status := sOk, phase := .done } ∧
      OnlyCmd h s u ∧ OnlyParts [.ctl, .cmds, .tab, .fab, .tu] s u) ∧
  (∀ (h : Handle) (t : Nat) (c : Cmd) (r : TableRec) (v : Version) (s : State), s.ctl.life = .alive → Ready (· == oRowsWrite) h c s →
    let d := Desc.of c.desc
    s.rec? d.tbl = some r → s.ver? d.tbl c.ver = some v → c.stage = 4 → d.target ≠ 0 → s.asking h.toNat = false → s.ownWaits h.toNat = false →
    ∃ u, exec (.rowsWrite h t) s = .next u ∧ ClockAt t s u ∧ u.cmd? h.toNat = some { c with status := sOk, phase := .done } ∧
      OnlyCmd h s u ∧ OnlyParts [.ctl, .cmds, .tab, .fab, .tu] s u) ∧
  (∀ (h : Handle) (t : Nat) (c : Cmd) (r : TableRec) (v : Version) (s : State), s.ctl.life = .alive → Ready (· == oRowsRead) h c s →
    let d := Desc.of c.desc
    let f := s.fmtAt v.fmt
    let dflt := ((s.defaultRow r f).map (fun x => leBytes 4 x.toNat)).flatten
    let row := fun (p : Pos) => fitTo f.size (((c.got.find? (fun g => g.2.1 == p.idx)).map (fun g => g.2.2.1)).getD [])
    let atHand := d.target ≠ 1 ∧ c.stage = 1 ∧ s.asking h.toNat = false ∧ c.endStatus = sOk ∧
      ∀ p ∈ c.pos, p.idx ≠ padIndex ∧ ∃ g, c.got.find? (fun g => g.2.1 == p.idx) = some g ∧ g.2.2.2 = false
    s.rec? d.tbl = some r → s.ver? d.tbl c.ver = some v →
    (d.target = 1 → c.inl = true → ∃ u, exec (.rowsRead h t) s = .next u ∧ ClockAt t s u ∧
      u.cmd? h.toNat = some { c with result := dflt, rows := 1, status := sOk, phase := .done } ∧
      OnlyCmd h s u ∧ OnlyParts [.ctl, .cmds, .tab, .fab, .tu] s u) ∧
    (∀ s1, d.target = 1 → c.inl = false → (s.advance t).writeUnits c 0 [[(d.dstp, dflt)]] (.ringWrite c.ring) 1 = (s1, .done) →
      ∃ u, exec (.rowsRead h t) s = .next u ∧
        u.cmd? h.toNat = (s1.cmd? h.toNat).map (fun x => { x with rows := 1, status := sOk, phase := .done }) ∧
        OnlyCmd h s1 u ∧ OnlyParts [.cmds, .tab, .fab, .tu] s1 u) ∧
    (atHand → c.inl = true → d.resume = 0 →
      ∃ u x, exec (.rowsRead h t) s = .next u ∧ ClockAt t s u ∧ u.cmd? h.toNat = some x ∧ x.status = sOk ∧ x.phase = .done ∧
        x.rows = c.pos.length ∧ x.result = (c.pos.map row).flatten ∧ OnlyCmd h s u ∧ OnlyParts [.ctl, .cmds, .tab, .fab, .tu] s u) ∧
    (∀ s1, atHand → c.inl = false →
      (s.advance t).writeUnits c d.resume (c.pos.zipIdx.map (fun p => [(d.dstp + (d.resume + p.2) * f.size, row p.1)])) (.ringWrite c.ring) 1 = (s1, .done) →
      ∃ u x y, exec (.rowsRead h t) s = .next u ∧ u.cmd? h.toNat = some x ∧ s1.cmd? h.toNat = some y ∧ x.status = sOk ∧ x.phase = .done ∧
        x.rows = c.pos.length ∧ OnlyCmd h s1 u ∧ OnlyParts [.cmds, .tab, .fab, .tu] s1 u))

/-- CHECKPOINT whose header is acknowledged: a LOST group decides its status. RESTORE whose sections are all dealt with: a block that could
not be reached decides, then a section that was denied, then one that could not be read, then OK. -/
def Obligations.ImageCommandsEnd : Prop :=
  (∀ (h : Handle) (t : Nat) (c : Cmd) (r : TableRec) (v : Version) (s : State), s.ctl.life = .alive → Ready (· == oCheckpoint) h c s →
    let d := Desc.of c.desc
    s.rec? d.tbl = some r → s.ver? d.tbl c.ver = some v → c.stage = 4 → s.imageWrites h.toNat = false →
    let lost := c.events.any (fun e => e.1 == 4)
    ∃ u x, exec (.checkpoint h t) s = .next u ∧ ClockAt t s u ∧ u.cmd? h.toNat = some x ∧ x.phase = .done ∧ x.rows = c.rows ∧
      x.status = (if lost then (if d.degr then sDegraded else sUncorr) else sOk) ∧ OnlyCmd h s u ∧
      OnlyParts [.ctl, .cmds, .tab, .fab, .tu] s u) ∧
  (∀ (h : Handle) (t : Nat) (c : Cmd) (r : TableRec) (v : Version) (s : State), s.ctl.life = .alive → Ready (· == oRestore) h c s →
    let d := Desc.of c.desc
    s.rec? d.tbl = some r → s.ver? d.tbl c.ver = some v → c.stage = 2 → d.ngroup ≤ c.next → s.asking h.toNat = false →
    s.ownWaits h.toNat = false →
    let far := (c.events.filter (fun e => e.1 == 2)).map (fun e => e.2)
    ∃ u x, exec (.restore h t) s = .next u ∧ ClockAt t s u ∧ u.cmd? h.toNat = some x ∧ x.phase = .done ∧ x.rows = c.rows ∧
      (far = [] → x.status = (if c.events.any (fun e => e.1 == 10) then sDenied else if c.events.any (fun e => e.1 == 5) then sUncorr else sOk)) ∧
      (∀ b, b ∈ far → x.status = sUnreach ∧ x.failblk ≤ b ∧ x.failblk ∈ far) ∧
      OnlyCmd h s u ∧ OnlyParts [.ctl, .cmds, .tab, .fab, .tu] s u)

/-- LOOPBACK_TEST of a port whose frames are not all acknowledged begins to drain it: the test is registered at its stage 0, and the
command waits. A test within the block (depth 0 to 2), and one of a memory channel in service (depth 7), passes: the run is counted,
and the command ends with OK once its result, and for a depth of 0 to 2 the pattern, is written. A memory channel out of service is not
tested: the result says so and no run is counted. -/
def Obligations.LoopbackDrainsOrPasses : Prop :=
  ∀ (h : Handle) (t : Nat) (c : Cmd) (s : State), s.ctl.life = .alive → Ready (· == oLoopback) h c s →
    let d := Desc.of c.desc
    (3 ≤ d.depth → d.depth ≤ 5 → s.fab.lb = [] → (s.linkUp d.port = true → s.valid = true → s.otherPort d.port = true) →
      (∃ f ∈ s.fab.flows, f.port = some d.port ∧ f.unacked ≠ []) →
      ∃ u b, exec (.loopbackTest h t) s = .next u ∧ ClockAt t s u ∧ u.cmd? h.toNat = some { c with phase := .waiting } ∧
        u.fab.lb = [b] ∧ b.handle = h.toNat ∧ b.depth = d.depth ∧ b.port = d.port ∧ b.stage = 0 ∧ b.since = max s.ctl.now t ∧
        OnlyCmd h s u ∧ OnlyParts [.ctl, .cmds, .fab] s u) ∧
    (∀ s1, d.depth ≤ 2 ∨ (d.depth = 7 ∧ s.channelUp (d.port / 64) (d.port % 64) = true) → s.fab.lb = [] →
      let a := (((s.advance t).syncRepairs).bump TT_LB_RUN 1).draw
      let out := (d.dstp, lbResult d 0 0 0xFFFFFFFFFFFFFFFF d.len a.1 0) :: (if d.depth ≤ 2 then [(d.dstp + 64, prbs d.len)] else [])
      a.2.writeUnits c 0 [out] (.ringWrite c.ring) 1 = (s1, .done) →
      ∃ u, exec (.loopbackTest h t) s = .next u ∧ u.cmd? h.toNat = (s1.cmd? h.toNat).map (fun x => { x with status := sOk, phase := .done }) ∧
        Counted TT_LB_RUN s u ∧
        OnlyCmd h s1 u ∧ OnlyParts [.cmds, .tab, .cache, .fab, .tu] s1 u) ∧
    (∀ s1, d.depth = 7 → s.channelUp (d.port / 64) (d.port % 64) = false → s.fab.lb = [] →
      ((s.advance t).syncRepairs).writeUnits c 0 [[(d.dstp, lbResult d 2 0 0xFFFFFFFFFFFFFFFF 0 0 0)]] (.ringWrite c.ring) 1 = (s1, .done) →
      ∃ u, exec (.loopbackTest h t) s = .next u ∧ u.cmd? h.toNat = (s1.cmd? h.toNat).map (fun x => { x with status := sOk, phase := .done }) ∧
        OnlyCmd h s1 u ∧ OnlyParts [.cmds, .tab, .fab, .tu] s1 u)

-- Acceptance, completion and notification (03)

/-- Acceptance takes the descriptor at the head, of one slot or, when EXPERT is set, of two (`s2`: the state once its slots are read). The
head passes the slots, the sequence number of the handles advances with its wrap, the reference instant is that of the doorbell or 2.5 ns
after the last one, and the descriptor is either accepted or refused. The other rings are as before. Its slots are at hand, the place of
its acceptance record is not behind a host port that waits, and no descriptor of another ring was rung earlier. -/
def Obligations.AcceptancePassesOneDescriptor : Prop :=
  ∀ (n : Fin 64) (t k : Nat) (s s1 s2 : State) (b1 : List Byte) (g1 : Bool), s.ctl.life = .alive →
    let r := s.ring n
    let m := 2 ^ (s.sqLog n + 1)
    let ahead := (r.tail + m - r.head) % m
    let bell := bellOf r.bells r.head ((r.head + k - 1) % m) m
    s.ringState n = 1 → ahead ≠ 0 → s.ringHeld n (s.reg (RF_AQ_BASE n) + 16 * (r.head % 2 ^ s.sqLog n)) = false →
    (∀ q, q ∈ s.rings.map (fun x => x.1) → q ≠ n.val → (s.advance t).rungBefore q bell = false) →
    (s.advance t).slotBytes n r.head = (s1, .got b1 g1) →
    ((bit (leAt b1 2 2) 0 = false ∧ s2 = s1 ∧ k = 1) ∨ (bit (leAt b1 2 2) 0 = true ∧ 2 ≤ ahead ∧ k = 2 ∧
      ∃ b2 g2, s1.slotBytes n ((r.head + 1) % m) = (s2, .got b2 g2))) →
    ∃ u, exec (.descriptorAcceptance n t) s = .next u ∧
      (u.ring n).head = ((s2.ring n).head + k) % 2 ^ (s2.sqLog n + 1) ∧
      (u.ring n).seq = (if (s2.ring n).seq ≥ 0x3FFFFFE then 0 else (s2.ring n).seq + 1) ∧
      (u.ring n).tail = (s2.ring n).tail ∧
      u.lastRef = (if s.lastRef = 0 then bell else max bell (s.lastRef + 2500)) ∧
      ((u.ring n).accepted = (s2.ring n).accepted + 1 ∧ (u.ring n).refused = (s2.ring n).refused ∨
       (u.ring n).refused = (s2.ring n).refused + 1 ∧ (u.ring n).accepted = (s2.ring n).accepted) ∧
      OnlyRing n s2 u

/-- The completion record of a command that is done, in a block in which nothing else waits: its header holds the command's status
(DEADLINE_MISSED for one that is OK but late, which is counted and recorded as a fault), tag, counts and elapsed time and the phase of its
slot, RESIDX only with PARTIAL_RESUME and FAILBLK only with a status that names a block; it is written last (`s1`: the state after the
writes), and the command is gone; the ring's counters follow. Without a hold-off to wait for, that is: the record asks for no notification.

On a FAULTED ring the command goes without a record, and the ring's counters stay. -/
def Obligations.CompletionRecordEndsTheCommand : Prop :=
  ∀ (h : Handle) (t : Nat) (c : Cmd) (s s1 : State), s.ctl.life = .alive → Quiet s → s.cmd? h.toNat = some c → c.phase = .done →
    let n := c.ring
    let d := Desc.of c.desc
    let now := max s.ctl.now t
    let late := decide (now > c.ref + c.bound * ns)
    let status := if late ∧ c.status = sOk then sMissed else c.status
    let gone := (s.advance t).upCmds (·.filter (fun z => z.handle != c.handle))
    let s0 := if late then (gone.bump NW_MISSED 1).fault 5 1 0x0030 (c.handle + min ((now - c.ref) / ns - c.bound) 0xFFFFFFFF * 2 ^ 32) else gone
    s.ringHeld n (s.reg (RF_CQ_BASE n) + 32 * (c.cqStart % 2 ^ s.cqLog n)) = false →
    ((s.ring n).broken = true → ∃ u, exec (.completionRecord h t) s = .next u ∧
      u.cmds = s.cmds.filter (fun z => z.handle != c.handle) ∧ u.mem = s0.mem ∧ u.rings = s.rings) ∧
    ((s.ring n).broken = false → (d.notify = false ∨ s.flag (RF_CFG n) 35 = false) → c.cqCount = (if c.cqFive then 5 else 1) →
    let cq := 2 ^ s.cqLog n
    let start := c.cqStart % (2 * cq)
    let res := if c.inl then c.result else []
    let elapsed := min (ceilDiv (now - c.ref) ns) 0xFFFFFFFF
    let hdr := completionHeader c.handle status (c.flags % 32 + (if c.cqFive then fInline else 0) +
      (if bit start (s.cqLog n) then 0 else fPhase)) d.tag (if status = sPartial then c.residx else 0) res.length
      (if namesBlock status then c.failblk else 0xFFFF) (min c.rows 0xFFFFFFFF) elapsed
      (if status = sTransFault then c.faultaddr / 4096 * 4096 else 0)
    let base := s.reg (RF_CQ_BASE n)
    let w := if c.cqFive then s0.ringPut n (base + 32 * ((start + 1) % cq)) (fitTo 128 res) else (s0, true)
    let ok := status == sOk || status == sDegraded
    w.2 = true → w.1.ringPut n (base + 32 * (start % cq)) hdr = (s1, true) →
    ∃ u, exec (.completionRecord h t) s = .next u ∧ u.cmds = s.cmds.filter (fun z => z.handle != c.handle) ∧ u.mem = s1.mem ∧
      (u.ring n).doneOk = (s.ring n).doneOk + b2n ok ∧ (u.ring n).doneErr = (s.ring n).doneErr + b2n (!ok) ∧
      (u.ring n).rows = (s.ring n).rows + c.rows ∧ (u.ring n).elapsed = (s.ring n).elapsed + elapsed ∧
      (u.ring n).late = (s.ring n).late + b2n late ∧ OnlyRing n s u)

/-- The hold-off since the first gathered record has passed: NOTIFY_VALUE is written to NOTIFY_ADDR and the count starts again. Before
that, with nothing gathered, or while the place lies behind a host port that waits, only the clock changes. The hold-off and the value are
those that the registers held when the first record was gathered. -/
def Obligations.NotificationAfterHoldOff : Prop :=
  ∀ (n : Fin 64) (t : Nat) (s : State), s.ctl.life = .alive →
    let r := s.ring n
    let due := r.notifyCount ≠ 0 ∧ s.flag (RF_CFG n) 35 = true ∧
      r.notifyFirst + bits r.notifyCfg 40 16 * 100 * ns ≤ max s.ctl.now t ∧ s.ringHeld n (s.reg (RF_NOTIFY_ADDR n)) = false
    (due → ∃ u, exec (.notifyHoldoffExpiry n t) s = .next u ∧ (u.ring n).notifyCount = 0 ∧ OnlyRing n s u ∧
      ∀ s1 b, ((s.advance t).upRing n (fun x => { x with notifyCount := 0 })).ringPut n (s.reg (RF_NOTIFY_ADDR n))
        (leBytes 4 (bits r.notifyCfg 0 32)) = (s1, b) → u = s1) ∧
    (¬ due → ∃ u, exec (.notifyHoldoffExpiry n t) s = .next u ∧ ClockAt t s u ∧ OnlyParts [.ctl] s u)

-- The register window (16)

/-- A write that the window takes to a register that no rule beyond its fields governs: each field follows its access code (RW and, while
LOCK is clear, RWL take the value; W1C clears and W1S sets the bits written as 1; RO, RC and WO keep what they hold), reserved bits stay,
and nothing else changes. A read of RF_RING_STATUS that is served returns the register as it was and clears DB_ERR. -/
def Obligations.RegisterWriteObeysAccessCodes : Prop :=
  (∀ (src : Src) (off : BitVec 20) (v : Word64) (s : State), s.writable src off.toNat v.toNat = true → off.toNat % 8 = 0 →
    byFieldsAlone s off.toNat = true →
    ∃ u, exec (.registerWrite src off v) s = .next u ∧ FieldsTaken off.toNat v.toNat s u ∧ OnlyParts [.regs] s u) ∧
  (∀ (src : Src) (n : Fin 64) (s : State), s.readable src = true →
    ∃ u, exec (.dbErrRead src n) s = .next u ∧ u.fld (RF_STATUS n) 10 16 = 0 ∧ OnlyField (RF_STATUS n) 10 16 s u ∧
      u.ctl = { s.ctl with readOut := s.reg (RF_STATUS n) } ∧ OnlyRegs [RF_STATUS n] s u ∧ OnlyParts [.ctl, .regs] s u)

/-- A misaligned write, and a write of a ring's structures or of RF_RING_CFG while the ring is not DETACHED, change nothing.

MT_REG: floors of a tier that would exceed 970 per mille only set the error bit, else the register takes the write. MC_MAPOUT
takes the write and the flash log its copy. -/
def Obligations.GuardedFloorAndMapoutWrites : Prop :=
  ((∀ (src : Src) (off : BitVec 20) (v : Word64) (s : State), off.toNat % 8 ≠ 0 → exec (.registerWrite src off v) s = .next s) ∧
  (∀ (src : Src) (n : Fin 64) (off : BitVec 20) (v : Word64) (s : State), ringGuarded n off.toNat = true → s.ringState n ≠ 0 →
    exec (.registerWrite src off v) s = .next s)) ∧
  ((∀ (src : Src) (tier : Fin 3) (part : Fin 16) (value : Word64) (s : State), s.writable src (MT_REG tier part) value.toNat = true →
    let sum := sumOf (((upTo 16).filter (fun q => q != part.val)).map (fun q => s.fld (MT_REG tier q) 0 10)) + bits value.toNat 0 10
    ∃ u, exec (.mtRegWrite src tier part value) s = .next u ∧ OnlyParts [.regs] s u ∧
      (970 < sum → u.flag MT_STATUS 0 = true ∧ OnlyField MT_STATUS 0 1 s u ∧ OnlyRegs [MT_STATUS] s u) ∧
      (sum ≤ 970 → u.fld (MT_REG tier part) 0 10 = bits value.toNat 0 10 ∧ u.fld (MT_REG tier part) 10 10 = bits value.toNat 10 10 ∧
        u.fld (MT_REG tier part) 20 12 = bits value.toNat 20 12 ∧ OnlyRegs [MT_REG tier part] s u)) ∧
  (∀ (src : Src) (value : Word64) (s : State), s.writable src MC_MAPOUT value.toNat = true →
    ∃ u, exec (.mcMapoutWrite src value) s = .next u ∧
      u.fld MC_MAPOUT 0 32 = (if s.locked then s.fld MC_MAPOUT 0 32 else bits value.toNat 0 32) ∧ u.flash.mapout = u.fld MC_MAPOUT 0 32 ∧
      u.flash.faults = s.flash.faults ∧ u.flash.cells = s.flash.cells ∧ OnlyRegs [MC_MAPOUT] s u ∧ OnlyParts [.regs, .flash] s u))

/-- The cache registers: a way that a write newly disables holds no line afterwards, and a change of ERR_SCHEME while LOCK is clear
empties the Metadata Cache and the merging buffer. -/
def Obligations.DisabledWaysAreEmpty : Prop :=
  (∀ (src : Src) (h : Fin 4) (value : Word64) (s : State), s.writable src (RC_WAY_DISABLE h) value.toNat = true →
    ∃ u, exec (.rcWayDisableWrite src h value) s = .next u ∧ u.fld (RC_WAY_DISABLE h) 0 16 = bits value.toNat 0 16 ∧
      (∀ l, l ∈ u.cache.lines ↔ l ∈ s.cache.lines ∧ ¬ (l.slice = h ∧ l.way < 16 ∧ bit value.toNat l.way = true ∧
        bit (s.reg (RC_WAY_DISABLE h)) l.way = false)) ∧
      OnlyField (RC_WAY_DISABLE h) 0 16 s u ∧ OnlyRegs [RC_WAY_DISABLE h] s u ∧ OnlyParts [.regs, .cache] s u) ∧
  (∀ (src : Src) (value : Word64) (s : State), s.writable src MD_WAY_DISABLE value.toNat = true →
    ∃ u, exec (.mdWayDisableWrite src value) s = .next u ∧ FieldsTaken MD_WAY_DISABLE value.toNat s u ∧
      (∀ l, l ∈ u.cache.md ↔ l ∈ s.cache.md ∧ ¬ (l.way < 8 ∧ bit value.toNat l.way = true ∧ bit (s.reg MD_WAY_DISABLE) l.way = false)) ∧
      OnlyParts [.regs, .cache] s u) ∧
  (∀ (src : Src) (value : Word64) (s : State), s.writable src MD_CFG value.toNat = true →
    ∃ u, exec (.errSchemeChange src value) s = .next u ∧ FieldsTaken MD_CFG value.toNat s u ∧
      (if s.locked = false ∧ bit value.toNat 0 ≠ s.flag MD_CFG 0 then u.cache.md = [] ∧ u.cache.mb = [] else u.cache = s.cache) ∧
      OnlyParts [.regs, .cache] s u)

-- Translation (11)

/-- A write of TU_CTX_CTRL with LOAD or STORE: STORE puts the data registers into the context's entry, but for context 0, and for one in
use by a ring, where the error bit is set instead; a changed ROOT asks for a shoot-down of the context. LOAD then reads the entry into the
data registers. A write of TU_WIN_CTRL does the same with a window, without conditions.

LOAD of FP_ROUTE_CTRL alone reads the partner's entry. STORE, with no exchange open to the partner, takes the data registers but keeps
DOWN and FAILED; with VALID cleared the partner's flows are closed. -/
def Obligations.TablesAndRoutesAreLoadedAndStored : Prop :=
  ((∀ (i : Instr) (src : Src) (value : Word64) (v : Nat) (s : State),
    ((i = .ctxLoad src value ∧ v = value.toNat ||| 2 ^ 16) ∨ (i = .ctxStore src value ∧ v = value.toNat ||| 2 ^ 17)) →
    s.writable src TU_CTX_CTRL v = true →
    let c := bits v 0 16
    let e := s.storeWords TU_CTX_DATA 4
    let refused := bit v 17 = true ∧ c ≠ 0 ∧ s.ctxInUse c (leAt e 8 1) = true
    let taken := bit v 17 = true ∧ c ≠ 0 ∧ s.ctxInUse c (leAt e 8 1) = false
    ∃ u, exec i s = .next u ∧ u.fld TU_CTX_CTRL 0 16 = c ∧ (refused → u.flag TU_STATUS 0 = true) ∧
      (taken → u.tu.ctxs = insertBy c e s.tu.ctxs) ∧ (¬ taken → u.tu = s.tu) ∧
      (taken → leAt (s.ctxEntry c) 0 8 ≠ leAt e 0 8 → u.tu.shoots = s.tu.shoots ++ [{ scope := .context c, htag := none, silent := true }]) ∧
      (taken → leAt (s.ctxEntry c) 0 8 = leAt e 0 8 → u.tu.shoots = s.tu.shoots) ∧
      (bit v 16 = true → ∀ q, q < 4 → u.reg (TU_CTX_DATA q) = leAt (u.ctxEntry c) (8 * q) 8) ∧
      (bit v 16 = false → ∀ q, q < 4 → u.reg (TU_CTX_DATA q) = s.reg (TU_CTX_DATA q)) ∧
      u.tu.wins = s.tu.wins ∧ u.tu.tlb = s.tu.tlb ∧ OnlyRegs ([TU_CTX_CTRL, TU_STATUS] ++ (upTo 4).map TU_CTX_DATA) s u ∧
      OnlyParts [.regs, .tu] s u) ∧
  (∀ (i : Instr) (src : Src) (value : Word64) (v : Nat) (s : State),
    ((i = .winLoad src value ∧ v = value.toNat ||| 2 ^ 16) ∨ (i = .winStore src value ∧ v = value.toNat ||| 2 ^ 17)) →
    s.writable src TU_WIN_CTRL v = true →
    let w := bits v 0 8
    ∃ u, exec i s = .next u ∧ u.fld TU_WIN_CTRL 0 8 = w ∧
      u.tu = (if bit v 17 then { s.tu with wins := insertBy w (s.storeWords TU_WIN_DATA 2) s.tu.wins } else s.tu) ∧
      (bit v 16 = true → ∀ q, q < 2 → u.reg (TU_WIN_DATA q) = leAt ((lookupBy w u.tu.wins).getD (zeros 16)) (8 * q) 8) ∧
      (bit v 16 = false → ∀ q, q < 2 → u.reg (TU_WIN_DATA q) = s.reg (TU_WIN_DATA q)) ∧
      OnlyRegs (TU_WIN_CTRL :: (upTo 2).map TU_WIN_DATA) s u ∧ OnlyParts [.regs, .tu] s u)) ∧
  ((∀ (src : Src) (value : Word64) (s : State),
    let v := value.toNat ||| 2 ^ 16
    s.writable src FP_ROUTE_CTRL v = true → bit v 17 = false →
    ∃ u, exec (.routeLoad src value) s = .next u ∧ u.fld FP_ROUTE_CTRL 0 15 = bits v 0 15 ∧
      (∀ q, q < 4 → u.reg (FP_ROUTE_DATA q) = leAt (s.route (bits v 0 15)) (8 * q) 8) ∧
      OnlyRegs (FP_ROUTE_CTRL :: (upTo 4).map FP_ROUTE_DATA) s u ∧ OnlyParts [.regs] s u) ∧
  (∀ (src : Src) (value : Word64) (s : State),
    let v := value.toNat ||| 2 ^ 17
    let b := bits v 0 15
    let e := s.storeWords FP_ROUTE_DATA 4
    s.writable src FP_ROUTE_CTRL v = true → bit v 16 = false → Quiet s → s.fab.stalled = [] → (∀ x ∈ s.fab.xchg, x.dst ≠ b) →
    ((s.routeBit b 0 = true ∧ bit (leAt e 7 1) 0 = false) ∨ ∀ f ∈ s.fab.flows, f.partner ≠ b) →
    ∃ u, exec (.routeStore src value) s = .next u ∧ (u.route b).take 7 = e.take 7 ∧ (u.route b).drop 8 = e.drop 8 ∧
      (∀ k, k < 8 → k ≠ 2 → k ≠ 3 → u.routeBit b k = bit (leAt e 7 1) k) ∧ (∀ k, k = 2 ∨ k = 3 → u.routeBit b k = s.routeBit b k) ∧
      (∀ p, p ≠ b → u.route p = s.route p) ∧ u.fab.flows = s.fab.flows.filter (fun f => f.partner != b) ∧ u.fab.inbox = s.fab.inbox ∧
      OnlyRegs [FP_ROUTE_CTRL, FP_FLOWS_OPEN] s u ∧ OnlyParts [.regs, .fab] s u))

/-- Page migration. PULL of a page that its entry offers makes it wait and sets BUSY; of another it sets the error bit; while BUSY is set
it only moves the fields. A migration of a page that is no longer offered is abandoned; without a free frame it is counted and the page is
no longer offered; with one and the scheduler core running it copies the page there and points its entry at the aperture. RELEASE copies it back and points the entry at host memory. -/
def Obligations.PagesMigrateAndReturn : Prop :=
  (∀ (src : Src) (value : Word64) (s : State),
    let v := value.toNat ||| 2 ^ 52
    let ctx := bits v 36 16
    let vpn := bits v 0 36
    let offered := s.hostPort = true ∧ ∃ a e, s.pteOf ctx vpn = some (a, e) ∧ bit e 0 = false ∧ bit e 5 = true
    s.writable src TU_MIG_CTRL v = true →
    ∃ u, exec (.pull src value) s = .next u ∧ OnlyRegs [TU_MIG_CTRL, TU_STATUS] s u ∧ OnlyParts [.regs, .tu] s u ∧
      (s.flag TU_MIG_CTRL 54 = true → u.tu = s.tu ∧ u.flag TU_MIG_CTRL 54 = true ∧ OnlyRegs [TU_MIG_CTRL] s u) ∧
      (s.flag TU_MIG_CTRL 54 = false → offered → u.flag TU_MIG_CTRL 54 = true ∧ OnlyRegs [TU_MIG_CTRL] s u ∧
        u.tu = { s.tu with migs := s.tu.migs.filter (fun m => !(m.1 == ctx && m.2.1 == vpn)) ++ [(ctx, vpn, true)] }) ∧
      (s.flag TU_MIG_CTRL 54 = false → ¬ offered → u.flag TU_STATUS 1 = true ∧ u.tu = s.tu)) ∧
  (∀ (ctx : BitVec 16) (vpn : BitVec 36) (pull : Bool) (a e i : Nat) (s : State), s.ctl.life = .alive → Sound s → s.hostPort = true →
    s.tu.migs.find? (fun m => m.1 == ctx.toNat && m.2.1 == vpn.toNat) = some (ctx.toNat, vpn.toNat, pull) →
    s.fld (CC_CORE 2) 2 2 = 0 → s.pteOf ctx.toNat vpn.toNat = some (a, e) → bit e 0 = false → bit e 5 = true → s.freeFrame = some i →
    let host := memKey 3 (bits e 12 34 * 4096)
    let frame := memKey (s.frameAt i).1 (s.frameAt i).2
    let new := setBits (setBits (setBits e 0 1 1) 5 1 0) 12 34 (bits (s.frameAperture i) 12 34)
    ∃ u, exec (.pageMigration ctx vpn) s = .next u ∧ Counted TU_MIG s u ∧ (pull = true → u.flag TU_MIG_CTRL 54 = false) ∧
      u.tu.frames = s.tu.frames ++ [(i, ctx.toNat, vpn.toNat, bits e 12 34 * 4096)] ∧
      u.tu.migs = s.tu.migs.filter (fun m => !(m.1 == ctx.toNat && m.2.1 == vpn.toNat)) ∧
      u.bytesAt (memKey 3 a) 8 = leBytes 8 new ∧
      (∀ x, x < 4096 → ¬ (memKey 3 a ≤ frame + x ∧ frame + x < memKey 3 a + 8) → u.byteAt (frame + x) = s.byteAt (host + x)) ∧
      (∀ k, ¬ (frame ≤ k ∧ k < frame + 4096) → ¬ (memKey 3 a ≤ k ∧ k < memKey 3 a + 8) → u.byteAt k = s.byteAt k) ∧
      OnlyRegs [TU_MIG, TU_MIG_CTRL, MD_MB_FULL] s u ∧ OnlyParts [.regs, .mem, .poison, .cache, .tu, .spine] s u) ∧
  (∀ (ctx : BitVec 16) (vpn : BitVec 36) (pull : Bool) (s : State), s.ctl.life = .alive → s.hostPort = true →
    s.tu.migs.find? (fun m => m.1 == ctx.toNat && m.2.1 == vpn.toNat) = some (ctx.toNat, vpn.toNat, pull) →
    s.fld (CC_CORE 2) 2 2 = 0 → (∀ a e, s.pteOf ctx.toNat vpn.toNat = some (a, e) → bit e 0 = true ∨ bit e 5 = false) →
    ∃ u, exec (.pageMigration ctx vpn) s = .next u ∧ Counted TU_MIG_ABANDON s u ∧ (pull = true → u.flag TU_MIG_CTRL 54 = false) ∧
      u.tu = { s.tu with migs := s.tu.migs.filter (fun m => !(m.1 == ctx.toNat && m.2.1 == vpn.toNat)) } ∧
      OnlyRegs [TU_MIG_ABANDON, TU_MIG_CTRL] s u ∧ OnlyParts [.regs, .tu] s u) ∧
  (∀ (ctx : BitVec 16) (vpn : BitVec 36) (pull : Bool) (a e : Nat) (s : State), s.ctl.life = .alive → Sound s → s.hostPort = true →
    s.tu.migs.find? (fun m => m.1 == ctx.toNat && m.2.1 == vpn.toNat) = some (ctx.toNat, vpn.toNat, pull) →
    s.fld (CC_CORE 2) 2 2 = 0 → s.pteOf ctx.toNat vpn.toNat = some (a, e) → bit e 0 = false → bit e 5 = true → s.freeFrame = none →
    ∃ u, exec (.pageMigration ctx vpn) s = .next u ∧ Counted TU_MIG_FULL s u ∧ (pull = true → u.flag TU_MIG_CTRL 54 = false) ∧
      u.bytesAt (memKey 3 a) 8 = leBytes 8 (setBits (setBits e 0 1 1) 5 1 0) ∧ OnlyBytes (memKey 3 a) 8 s u ∧ u.tu.frames = s.tu.frames ∧
      u.tu.migs = s.tu.migs.filter (fun m => !(m.1 == ctx.toNat && m.2.1 == vpn.toNat)) ∧
      OnlyRegs [TU_MIG_FULL, TU_MIG_CTRL, MD_MB_FULL] s u ∧ OnlyParts [.regs, .mem, .poison, .cache, .tu, .spine] s u) ∧
  (∀ (src : Src) (value : Word64) (s : State) (i orig a e : Nat),
    let v := setBits value.toNat 52 2 2
    let ctx := bits v 36 16
    let vpn := bits v 0 36
    Sound s → s.writable src TU_MIG_CTRL v = true → s.flag TU_MIG_CTRL 54 = false → s.hostPort = true →
    s.tu.frames.find? (fun f => f.2.1 == ctx && f.2.2.1 == vpn) = some (i, ctx, vpn, orig) → s.pteOf ctx vpn = some (a, e) →
    bit e 0 = false → bit e 5 = true → bits e 12 34 = bits (s.frameAperture i) 12 34 →
    let frame := memKey (s.frameAt i).1 (s.frameAt i).2
    let host := memKey 3 orig
    ∃ u, exec (.release src value) s = .next u ∧ u.tu.frames = s.tu.frames.filter (fun f => f.1 != i) ∧
      u.tu.tlb = s.tu.tlb.filter (fun x => !scopeCovers (.pages ctx vpn 1) x.ctx x.vpn x.size) ∧
      u.bytesAt (memKey 3 a) 8 = leBytes 8 (setBits (setBits (setBits e 0 1 1) 5 1 0) 12 34 (bits orig 12 34)) ∧
      (∀ x, x < 4096 → ¬ (memKey 3 a ≤ host + x ∧ host + x < memKey 3 a + 8) → u.byteAt (host + x) = s.byteAt (frame + x)) ∧
      (∀ k, ¬ (host ≤ k ∧ k < host + 4096) → ¬ (memKey 3 a ≤ k ∧ k < memKey 3 a + 8) → u.byteAt k = s.byteAt k) ∧
      OnlyRegs [TU_MIG_CTRL, MD_MB_FULL] s u ∧ OnlyParts [.regs, .mem, .poison, .cache, .tu, .spine] s u) ∧
  (∀ (src : Src) (value : Word64) (s : State),
    let v := setBits value.toNat 52 2 2
    let ctx := bits v 36 16
    let vpn := bits v 0 36
    s.writable src TU_MIG_CTRL v = true → s.flag TU_MIG_CTRL 54 = false →
    (s.hostPort = false ∨ s.tu.frames.find? (fun f => f.2.1 == ctx && f.2.2.1 == vpn) = none ∨ s.pteOf ctx vpn = none) →
    ∃ u, exec (.release src value) s = .next u ∧ u.flag TU_STATUS 1 = true ∧ OnlyRegs [TU_MIG_CTRL, TU_STATUS] s u ∧ OnlyParts [.regs] s u)

/-- Shoot-downs. GO while BUSY is clear, and an INV packet when fewer than eight wait, add their scope to those pending; a ninth INV packet
is held. When the transfers in scope have drained, no translation in scope is left, BUSY is clear, each is acknowledged and counted, and
the held packets are pending, the first eight.
SNP_INV takes the line out of the Metadata Cache and is acknowledged. A request that waits past its work deadline is counted and no
longer held. -/
def Obligations.ShootDownsEmptyTheirScope : Prop :=
  (∀ (src : Src) (value : Word64) (s : State),
    let v := value.toNat ||| 2 ^ 18
    let x : Shoot := { scope := scopeOf (bits v 0 2) (s.fld TU_INV_ADDR 36 16) (s.fld TU_INV_ADDR 0 36) (bits v 2 16 + 1), htag := none
                       silent := false }
    s.writable src TU_INV_CTRL v = true →
    ∃ u, exec (.shootDownGo src value) s = .next u ∧ u.flag TU_INV_CTRL 19 = true ∧ OnlyRegs [TU_INV_CTRL, TU_STATUS] s u ∧
      OnlyParts [.regs, .tu] s u ∧ (s.flag TU_INV_CTRL 19 = true → u.tu = s.tu) ∧
      (s.flag TU_INV_CTRL 19 = false → bits v 0 2 ≠ 3 → u.tu = { s.tu with shoots := s.tu.shoots ++ [x] } ∧
        u.fld TU_STATUS 2 4 = min (s.tu.shoots.length + 1) 8)) ∧
  (∀ (htag ctx : BitVec 16) (addr : Word64) (s : State), s.ctl.life = .alive → s.hostPort = true →
    let scope := bits addr.toNat 52 2
    ∃ u, exec (.inv htag ctx addr) s = .next u ∧
      (scope = 3 → Counted TT_BF_REWIND s u ∧ OnlyRegs [TT_BF_REWIND] s u ∧ OnlyParts [.regs] s u) ∧
      (let x : Shoot := { scope := scopeOf scope ctx.toNat (bits addr.toNat 0 36) (bits addr.toNat 36 16 + 1), htag := some htag.toNat
                          silent := false }
       (scope ≠ 3 → 8 ≤ (s.tu.shoots.filter (fun x => x.htag.isSome)).length →
        u.tu = { s.tu with heldInvs := s.tu.heldInvs ++ [x] } ∧ OnlyParts [.tu] s u) ∧
       (scope ≠ 3 → (s.tu.shoots.filter (fun x => x.htag.isSome)).length < 8 → u.tu = { s.tu with shoots := s.tu.shoots ++ [x] } ∧
        u.fld TU_STATUS 2 4 = min (s.tu.shoots.length + 1) 8 ∧ OnlyField TU_STATUS 2 4 s u ∧ OnlyRegs [TU_STATUS] s u ∧
        OnlyParts [.regs, .tu] s u))) ∧
  (∀ s : State, s.ctl.life = .alive → Quiet s → s.tu.shoots ≠ [] →
    ∃ u, exec .shootDownDrained s = .next u ∧ u.tu.shoots = s.tu.heldInvs.take 8 ∧ u.tu.heldInvs = s.tu.heldInvs.drop 8 ∧ u.tu.waits = [] ∧
      u.fld TU_STATUS 2 4 = min s.tu.heldInvs.length 8 ∧
      (∀ e, e ∈ u.tu.tlb ↔ e ∈ s.tu.tlb ∧ s.shot e.ctx e.vpn e.size = false) ∧
      u.tu.hout = s.tu.hout ++ (s.tu.shoots.filterMap (fun x => if x.silent then none else x.htag)).map
        (fun t => { hopc := 0xA1, tag := t, err := false, data := [] }) ∧
      ((∃ x ∈ s.tu.shoots, x.silent = false ∧ x.htag = none) → u.flag TU_INV_CTRL 19 = false ∧ u.flag TU_INV_CTRL 20 = true) ∧
      u.reg TU_SD = (if (s.tu.shoots.filter (fun x => !x.silent)).isEmpty then s.reg TU_SD
        else min (s.reg TU_SD + (s.tu.shoots.filter (fun x => !x.silent)).length) (2 ^ 48 - 1)) ∧
      OnlyRegs [TU_SD, TU_INV_CTRL, TU_STATUS] s u ∧ OnlyParts [.regs, .tu] s u) ∧
  (∀ (htag : BitVec 16) (addr : Word64) (s : State), s.ctl.life = .alive → s.hostPort = true →
    ∃ u, exec (.snpInv htag addr) s = .next u ∧
      (let line := gAddr s.id 3 (bits addr.toNat 0 46 / 64 * 64)
       (∀ l, l ∈ u.cache.md ↔ l ∈ s.cache.md ∧ l.tag ≠ line / 64) ∧
       u.tu = { s.tu with hout := s.tu.hout ++ [{ hopc := 0xA0, tag := htag.toNat, err := false, data := [] }] } ∧
       u.cache.lines = s.cache.lines ∧ u.cache.mb = s.cache.mb ∧ OnlyParts [.cache, .tu] s u)) ∧
  (∀ (h : Handle) (t : Nat) (c : Cmd) (s : State), s.ctl.life = .alive → s.cmd? h.toNat = some c → c.phase ≠ .done → c.deadline ≤ t →
    s.tu.waits.any (fun w => w.1 == c.handle) = true →
    let s1 := ((s.advance t).upCmd c.handle (fun x => { x with expired := true })).bump TU_SD_EXPIRE 1
    Counted TU_SD_EXPIRE s s1 ∧ OnlyRegs [TU_SD_EXPIRE] s s1 ∧ OnlyCmd h s s1 ∧ s1.cmd? h.toNat = some { c with expired := true } ∧
    exec (.shootDownWaitExpiry h t) s =
      .next ((s1.upTu (fun u => { u with waits := u.waits.filter (fun w => w.1 != c.handle) })).runCmd c.handle))

/-- The host port. A response without an error takes its request off the list, and so does one with an error, whose denial is counted: the
bytes that the write or atomic operation changed are as before it; a request unanswered for 10 µs counts as a time-out too. An access
of a host core in the aperture is answered: an illegal one with an error, a read with the tier's bytes, a write once they are stored. The link's
state follows its pin. -/
def Obligations.HostPortAnswers : Prop :=
  (∀ (htag : Nat) (x : HReq) (s : State), s.ctl.life = .alive → s.flag TT_LB_CTRL 1 = false →
    s.tu.hreqs.find? (fun y => y.tag == htag) = some x → x.handle < 2 ^ 32 →
    ∃ u, exec (.hostResponse htag false) s = .next u ∧ u.tu = { s.tu with hreqs := s.tu.hreqs.eraseP (fun y => y.tag == htag) } ∧
      OnlyParts [.tu] s u) ∧
  (∀ (i : Instr) (htag : Nat) (x : HReq) (s : State), ((i = .hostResponse htag true ∧ s.flag TT_LB_CTRL 1 = false) ∨
    i = .hostRequestTimeout htag) → s.ctl.life = .alive → Sound s → Quiet s → s.tu.hreqs.find? (fun y => y.tag == htag) = some x →
    x.ring = none → s.cmd? x.handle = none → x.handle < 2 ^ 32 →
    ∃ u, exec i s = .next u ∧ u.tu.hreqs = s.tu.hreqs.eraseP (fun y => y.tag == htag) ∧ Counted TU_DENY s u ∧
      (i = .hostRequestTimeout htag → Counted TT_HP_TIMEOUT s u) ∧ (i = .hostResponse htag true → u.reg TT_HP_TIMEOUT = s.reg TT_HP_TIMEOUT) ∧
      u.bytesAt (memKey 3 x.addr) x.old.length = x.old ∧
      OnlyBytes (memKey 3 x.addr) x.old.length s u ∧
      (∀ e, e ∈ u.tu.tlb ↔ e ∈ s.tu.tlb ∧ ¬ (e.ctx = x.ctx ∧ x.addr ≤ e.pte ∧ e.pte < x.addr + x.len)) ∧
      OnlyRegs [TU_DENY, TT_HP_TIMEOUT] s u ∧ OnlyParts [.regs, .mem, .poison, .cache, .tu, .spine] s u) ∧
  (∀ (write : Bool) (htag : BitVec 16) (off len : Nat) (data : List Byte) (s : State), s.ctl.life = .alive → Sound s →
    s.hostPort = true →
    let tier := off / 2 ^ 39
    let o := off % 2 ^ 39
    let legal := len ≠ 0 ∧ off / 64 = (off + len - 1) / 64 ∧ tier < 3 ∧ o + len ≤ s.capacity tier ∧ s.tierOut tier = false ∧
      s.flag TU_APERTURE 63 = true
    let answer := fun (err : Bool) (d : List Byte) =>
      { s.tu with hout := s.tu.hout ++ [{ hopc := 0x90, tag := htag.toNat, err := err, data := d }] }
    ∃ u, exec (.apertureAccess write htag off len data) s = .next u ∧
      (¬ legal → u.tu = answer true [] ∧ OnlyParts [.tu] s u) ∧
      (legal → write = false → s.poisoned (memKey tier o) len = true → u.tu = answer true [] ∧ OnlyParts [.tu] s u) ∧
      (legal → write = false → s.poisoned (memKey tier o) len = false → u.tu = answer false (s.bytesAt (memKey tier o) len) ∧ OnlyParts [.tu] s u) ∧
      (legal → write = true → u.tu = answer false [] ∧ u.bytesAt (memKey tier o) len = fitTo len data ∧ OnlyBytes (memKey tier o) len s u ∧
        OnlyParts [.mem, .poison, .cache, .tu, .spine] s u)) ∧
  (∀ (up : Bool) (s : State), s.ctl.life = .alive → Quiet s →
    ∃ u, exec (.hpLinkUpChange up) s = .next u ∧ u.ctl = { s.ctl with hpLinkUp := up } ∧
      u.tu = (if up then { s.tu with waits := [] } else s.tu) ∧ OnlyParts [.ctl, .tu] s u)

/-- TK_FAIL_CTRL. A write while BUSY is set only moves the block number. DECLARE at a lead that coordinates no table and has no other
route sets FAILED for the block and closes its flows; QUERY at the lead of a one-block registry answers from its own tables. A block that
is not the lead sets the question on its way. Without an answer in ACK_WAIT, BUSY is clear and NO_ANSWER set. -/
def Obligations.FailureControlActs : Prop :=
  (∀ (i : Instr) (src : Src) (value : Word64) (v t : Nat) (s : State),
    ((i = .declare src value t ∧ v = value.toNat ||| 2 ^ 16) ∨ (i = .query src value t ∧ v = value.toNat ||| 2 ^ 17)) →
    s.writable src TK_FAIL_CTRL v = true → s.flag TK_FAIL_CTRL 18 = true →
    ∃ u, exec i s = .next u ∧ ClockAt t s u ∧ u.fld TK_FAIL_CTRL 0 15 = bits v 0 15 ∧ u.flag TK_FAIL_CTRL 18 = true ∧
      OnlyRegs [TK_FAIL_CTRL] s u ∧ OnlyParts [.ctl, .regs] s u) ∧
  (∀ (src : Src) (value : Word64) (t : Nat) (s : State),
    let v := value.toNat ||| 2 ^ 16
    let x := bits v 0 15
    s.writable src TK_FAIL_CTRL v = true → bit v 17 = false → s.flag TK_FAIL_CTRL 18 = false → Quiet s → s.lead = some s.id →
    s.isFailed x = false → x ≠ s.id → s.tab.recs = [] → s.tab.groups = [] → (∀ r ∈ s.fab.routes, r.1 = s.id ∨ s.routeBit r.1 0 = false) →
    (∀ y ∈ s.fab.xchg, y.dst ≠ x) → s.fab.stalled = [] → (∀ e ∈ s.tab.registry, e.destroying = false) →
    ∃ u, exec (.declare src value t) s = .next u ∧ ClockAt t s u ∧ u.isFailed x = true ∧ (∀ b, b ≠ x → u.route b = s.route b) ∧
      u.fab.flows = s.fab.flows.filter (fun f => f.partner != x) ∧ u.flag TK_FAIL_CTRL 18 = false ∧ u.flag TK_FAIL_CTRL 20 = false ∧
      OnlyRegs [TK_FAIL_CTRL, TK_STATUS, FP_FLOWS_OPEN] s u ∧ OnlyParts [.ctl, .regs, .fab] s u) ∧
  (∀ (src : Src) (value : Word64) (t : Nat) (s : State),
    let v := value.toNat ||| 2 ^ 17
    s.writable src TK_FAIL_CTRL v = true → bit v 16 = false → s.flag TK_FAIL_CTRL 18 = false → Quiet s → s.lead = some s.id →
    (∀ b, b ∈ s.registryList → b = s.id) → (∀ x ∈ s.fab.xchg, x.kind ≠ .query) → (∀ x ∈ s.tab.served, x.id ≠ s.tab.nextOp) →
    ∃ u, exec (.query src value t) s = .next u ∧ ClockAt t s u ∧ u.flag TK_FAIL_CTRL 18 = false ∧ u.flag TK_FAIL_CTRL 20 = false ∧
      u.flag TK_FAIL_CTRL 19 = s.namedHere (bits v 0 15) ∧ u.tab = { s.tab with nextOp := s.tab.nextOp + 1 } ∧
      OnlyRegs [TK_FAIL_CTRL] s u ∧ OnlyParts [.ctl, .regs, .tab] s u) ∧
  (∀ (i : Instr) (src : Src) (value : Word64) (v t b : Nat) (kind : XKind) (body : TkBody) (s : State),
    let x := bits v 0 15
    ((i = .declare src value t ∧ v = value.toNat ||| 2 ^ 16 ∧ bit v 17 = false ∧ s.judges x = false ∧ s.leadOrDeputy x = some b ∧
        kind = .declare ∧ body = .declare x) ∨
     (i = .query src value t ∧ v = value.toNat ||| 2 ^ 17 ∧ bit v 16 = false ∧
        (s.registryList.filter s.regAlive).find? (fun b => b != s.id && !s.routeBit b 2) = some b ∧ kind = .query ∧ body = .query x)) →
    s.writable src TK_FAIL_CTRL v = true → s.flag TK_FAIL_CTRL 18 = false → Quiet s → s.lead ≠ some s.id →
    ∃ u, exec i s = .next u ∧ ClockAt t s u ∧
      u.fab.xchg = s.fab.xchg ++ [{ xid := s.fab.xid % 2 ^ 32, dst := b, kind := kind, handle := noHandle.toNat, lane := 0
                                    msg := mkMsg 0x1A 0 noHandle.toNat (s.fab.xid % 2 ^ 32) (Config.tkEncode s.registryList body) }] ∧
      OnlyParts [.ctl, .regs, .fab, .sec] s u) ∧
  (∀ (t : Nat) (s : State), s.ctl.life = .alive → s.flag TK_FAIL_CTRL 18 = true →
    ∃ u, exec (.failCtrlNoAnswer t) s = .next u ∧ ClockAt t s u ∧ u.flag TK_FAIL_CTRL 18 = false ∧ u.flag TK_FAIL_CTRL 20 = true ∧
      (∀ x ∈ u.fab.xchg, x.kind = .declare ∨ x.kind = .query → x.handle ≠ noHandle.toNat) ∧
      u.fab.flows = s.fab.flows ∧ u.tab.recs = s.tab.recs ∧ OnlyRegs [TK_FAIL_CTRL] s u ∧ OnlyParts [.ctl, .regs, .tab, .fab] s u)

-- Spine (01 R24, R25; 14)

/-- TT_HOLM_CTRL: a write that would leave no Holm online only sets ERR. Of another, OFFLINE of each Holm is set by a 1; written as 0 where
it was set, the Holm is to return; a Holm that is offline is tested on TEST, or to return; TEST of a Holm online sets ERR. No Holm goes
offline or comes back by the write itself.

A draining Holm without work goes offline and its slice is empty. A test that passes on a Holm to return starts the walk of the
other slices, and one that fails is a fault. When the walk is complete the Holm is online again. Each time, while no request waits for a
fill line, a line stays where it is if its slice is the one that its address now names, or the walk of another Holm still holds it, and
only then. A failed Holm is offline with an empty slice; a read in progress on it stops at RESUME with PARTIAL_RESUME, and any other command but a
backward one is ABORTED. -/
def Obligations.HolmsDrainLeaveAndReturn : Prop :=
  (∀ (i : Instr) (src : Src) (value : Word64) (s : State), (i = .holmOfflineWrite src value ∨ i = .holmTest src value) →
    let v := value.toNat
    s.writable src TT_HOLM_CTRL v = true →
    ∃ u, exec i s = .next u ∧ OnlyRegs [TT_HOLM_CTRL] s u ∧ OnlyParts [.regs, .spine] s u ∧ (∀ h, h < 4 → u.holmOnline h = s.holmOnline h) ∧
      (s.holmsOnline.filter (fun h => !bit v h) = [] → u.flag TT_HOLM_CTRL 8 = true ∧ OnlyField TT_HOLM_CTRL 8 1 s u ∧ u.spine = s.spine) ∧
      (s.holmsOnline.filter (fun h => !bit v h) ≠ [] →
        u.flag TT_HOLM_CTRL 8 = ((s.flag TT_HOLM_CTRL 8 && !bit v 8) || (upTo 4).any (fun h => bit v (12 + h) && s.holmOnline h)) ∧
        ∀ h, h < 4 → u.flag TT_HOLM_CTRL h = (bit v h || s.flag TT_HOLM_CTRL h) ∧
          (h ∈ u.spine.returning ↔ bit v h = false ∧ (s.flag TT_HOLM_CTRL h = true ∨ h ∈ s.spine.returning)) ∧
          u.flag TT_HOLM_CTRL (20 + h) = (s.flag TT_HOLM_CTRL (20 + h) ||
            (!s.holmOnline h && (bit v (12 + h) || (!bit v h && s.flag TT_HOLM_CTRL h)))) ∧
          u.flag TT_HOLM_CTRL (16 + h) = s.flag TT_HOLM_CTRL (16 + h))) ∧
  ((∀ (h : Fin 4) (s : State), s.ctl.life = .alive →
    let due := s.holmOnline h = true ∧ s.flag TT_HOLM_CTRL h = true ∧ ∀ c ∈ s.cmds, s.onHolm c h = false
    s.cache.rcWait = [] →
    ∃ u, exec (.holmDrained h) s = .next u ∧ (¬ due → u = s) ∧
      (due → u.holmOnline h = false ∧ u.flag (RC_STATUS h) 0 = false ∧ (∀ l ∈ u.cache.lines, l.slice ≠ h) ∧ LinesInPlace u ∧
        (∀ l ∈ s.cache.lines, l.slice ≠ h → u.inPlace l = true → l.st ≠ .evicting → l ∈ u.cache.lines) ∧
        u.flag TT_HOLM_CTRL (20 + h) = (s.flag TT_HOLM_CTRL (20 + h) || s.spine.returning.contains h.val) ∧
        OnlyRegs [TT_HOLM_CTRL, RC_STATUS h] s u ∧ OnlyParts [.regs, .cache] s u)) ∧
  (∀ (h : Fin 4) (pass : Bool) (t : Nat) (s : State), s.ctl.life = .alive → NotifiesHere s → s.flag TT_HOLM_CTRL (20 + h) = true →
    ∃ u, exec (.holmTestDone h pass t) s = .next u ∧ ClockAt t s u ∧ u.flag TT_HOLM_CTRL (20 + h) = false ∧
      u.flag TT_HOLM_CTRL (16 + h) = pass ∧ Counted TT_HOLM_TEST s u ∧ h.val ∉ u.spine.returning ∧
      (pass = false → FaultNewest (srcHolm h) 0x22 h u) ∧
      (pass = true → h.val ∈ s.spine.returning → u.flag TT_HOLM_CTRL h = false ∧ h.val ∈ u.cache.walking ∧ h.val ∉ u.spine.holmFailed) ∧
      (pass = true → h.val ∉ s.spine.returning → u.flag TT_HOLM_CTRL h = s.flag TT_HOLM_CTRL h ∧ u.cache = s.cache) ∧
      OnlyRegs (TT_HOLM_CTRL :: TT_HOLM_TEST :: faultRegs) s u ∧ OnlyParts (.ctl :: faultParts) s u) ∧
  (∀ (h : Fin 4) (s : State), s.ctl.life = .alive → h.val ∈ s.cache.walking → s.cache.rcWait = [] →
    ∃ u, exec (.sliceReturnWalkDone h) s = .next u ∧ u.holmOnline h = true ∧ u.flag (RC_STATUS h) 0 = true ∧ h.val ∉ u.cache.walking ∧
      LinesInPlace u ∧ (∀ l ∈ s.cache.lines, u.inPlace l = true → l.st ≠ .evicting → l ∈ u.cache.lines) ∧
      OnlyRegs [TT_HOLM_CTRL, RC_STATUS h] s u ∧ OnlyParts [.regs, .cache] s u) ∧
  (∀ (h : Fin 4) (t : Nat) (c : Cmd) (s : State), s.ctl.life = .alive → NotifiesHere s → s.holmOnline h = true →
    s.cmds.filter (fun x => s.onHolm x h) = [c] → s.cmd? c.handle = some c → s.cache.rcWait = [] → Quiet (s.finish c.handle sOk) →
    let d := Desc.of c.desc
    d.isBack = false →
    ∃ u x, exec (.holmFailure h t) s = .next u ∧ ClockAt t s u ∧ u.holmOnline h = false ∧ u.flag TT_HOLM_CTRL h = true ∧
      FaultNewest (srcHolm h) 0x22 h u ∧ (∀ l, l ∈ u.cache.lines → l.slice ≠ h) ∧ h.val ∈ u.spine.holmFailed ∧
      u.cmd? c.handle = some x ∧ x.phase = .done ∧ (d.isRead = true → x.status = sPartial ∧ x.residx = d.resume) ∧
      (d.isRead = false → x.status = sAborted) ∧ (∀ k, k ≠ c.handle → u.cmd? k = s.cmd? k) ∧
      OnlyRegs (TT_HOLM_CTRL :: RC_STATUS h :: faultRegs) s u ∧ OnlyParts ([.ctl, .cmds, .tab, .fab] ++ faultParts) s u))

/-- LOAD of TT_FAULT_CTRL puts the record that INDEX counts back from the newest into TT_FAULT_DATA. ARM sets ERR while a ring is not DETACHED
or in headless mode; otherwise, when H1 is not active, it makes it active for COUNT packets. A packet turns round while H1 is active and
packets are left; after the last one H1 is over and DONE holds their number. -/
def Obligations.FaultLogAndTurnaround : Prop :=
  (∀ (src : Src) (value : Word64) (r : FaultRec) (s : State),
    let v := value.toNat ||| 2 ^ 8
    s.writable src TT_FAULT_CTRL v = true → s.spine.faults[bits v 0 8]? = some r →
    ∃ u, exec (.faultLoad src value) s = .next u ∧ u.fld TT_FAULT_CTRL 0 8 = bits v 0 8 ∧
      (∀ q, q < 4 → u.reg (TT_FAULT_DATA q) = leAt r.bytes (8 * q) 8) ∧ OnlyRegs (TT_FAULT_CTRL :: (upTo 4).map TT_FAULT_DATA) s u ∧
      OnlyParts [.regs] s u) ∧
  (∀ (src : Src) (value : Word64) (s : State),
    let v := value.toNat ||| 1
    let barred := s.headless = true ∨ ∃ n : Fin 64, s.ringState n ≠ 0
    s.writable src TT_LB_CTRL v = true →
    ∃ u, exec (.arm src value) s = .next u ∧ OnlyRegs [TT_LB_CTRL] s u ∧ OnlyParts [.regs, .spine] s u ∧
      (barred → u.flag TT_LB_CTRL 2 = true ∧ OnlyField TT_LB_CTRL 2 1 s u ∧ u.spine = s.spine) ∧
      (¬ barred → s.flag TT_LB_CTRL 1 = true → u.flag TT_LB_CTRL 1 = true ∧ u.spine = s.spine) ∧
      (¬ barred → s.flag TT_LB_CTRL 1 = false → u.flag TT_LB_CTRL 1 = true ∧ u.fld TT_LB_CTRL 16 16 = bits v 16 16 ∧
        u.spine = { s.spine with h1Left := max 1 (bits v 16 16), h1Count := max 1 (bits v 16 16) })) ∧
  (∀ (words : List Byte) (s : State), s.ctl.life = .alive → s.flag TT_LB_CTRL 1 = true → s.spine.h1Left ≠ 0 →
    ∃ u p, exec (.h1TurnaroundPacket words) s = .next u ∧ u.tu = { s.tu with hout := s.tu.hout ++ [p] } ∧ p.data = words ∧
      u.spine = { s.spine with h1Left := s.spine.h1Left - 1 } ∧ OnlyParts [.tu, .spine] s u) ∧
  (∀ s : State, s.ctl.life = .alive → Quiet s → s.flag TT_LB_CTRL 1 = true → s.spine.h1Left = 0 →
    ∃ u, exec .h1TurnaroundDone s = .next u ∧ u.flag TT_LB_CTRL 1 = false ∧
      u.fld TT_LB_CTRL 32 16 = s.spine.h1Count % 2 ^ 16 ∧ u.tu = { s.tu with waits := [] } ∧ OnlyRegs [TT_LB_CTRL] s u ∧
      OnlyParts [.regs, .tu] s u)

-- Security mailbox (13 R499 to R502, R496)

/-- What the twelve commands of the mailbox do when it serves them, and the RESULT of each: 0, or BAD_ARG 1, STATE 2, AUTH 3 and the
codes of the verification, DENIED 7. -/
def Obligations.MailboxCommandsAct : Prop :=
  (∀ (src : Src) (len : BitVec 13) (s : State), MailboxServes src 0x01 len s →
    let ok := s.trial = false ∧ 256 ≤ s.mboxArg ∧ s.mboxArg ≤ imgSlotSize
    let base := slotBase s.otherSlot
    ∃ u, exec (.dlBegin src len) s = .next u ∧ OnlyRegs [SE_MBOX_CTRL, SE_STATUS] s u ∧ OnlyParts [.regs, .flash, .sec] s u ∧
      (ok → u.mboxBusy = true ∧ u.stage_ = 1 ∧ u.sec = { s.sec with dlLen := s.mboxArg, dlDone := 0, busyOp := some 1 } ∧
        ∀ a, u.flashAt a = if base ≤ a ∧ a < base + imgSlotSize then 0xFF#8 else s.flashAt a) ∧
      (¬ ok → u.mboxResult = (if s.trial then rState else rBadArg) ∧ OnlyParts [.regs] s u)) ∧
  (∀ (src : Src) (len : BitVec 13) (s : State), MailboxServes src 0x02 len s →
    let n := len.toNat
    let ok := s.stage_ = 2 ∧ s.mboxArg = s.sec.dlDone ∧ 1 ≤ n ∧ n ≤ 4096 ∧ s.sec.dlDone + n ≤ s.sec.dlLen
    let at_ := slotBase s.otherSlot + s.sec.dlDone
    ∃ u, exec (.dlChunk src len) s = .next u ∧ OnlyRegs [SE_MBOX_CTRL] s u ∧ OnlyParts [.regs, .flash, .sec] s u ∧
      (ok → u.mboxResult = rOk ∧ u.sec = { s.sec with dlDone := s.sec.dlDone + n } ∧ u.flashBytes at_ n = s.mboxBytes 0 n ∧
        ∀ a, ¬ (at_ ≤ a ∧ a < at_ + n) → u.flashAt a = s.flashAt a) ∧
      (¬ ok → u.mboxResult = (if s.stage_ = 2 then rBadArg else rState) ∧ OnlyParts [.regs] s u)) ∧
  (∀ (src : Src) (len : BitVec 13) (s : State), MailboxServes src 0x03 len s →
    let ready := 2 ≤ s.stage_ ∧ s.sec.dlDone = s.sec.dlLen
    let r := s.verifySlot s.otherSlot (some s.sec.dlLen) (if bit s.mboxArg 0 then none else some (leAt s.sec.header 6 1))
    ∃ u, exec (.verify src len) s = .next u ∧ (¬ ready → u.mboxResult = rState ∧ u.stage_ = s.stage_) ∧
      (ready → u.mboxResult = r ∧ u.stage_ = if r = 0 then 3 else s.stage_) ∧ OnlyField SE_STATUS 8 3 s u ∧
      OnlyRegs [SE_MBOX_CTRL, SE_STATUS] s u ∧ OnlyParts [.regs] s u) ∧
  (∀ (src : Src) (len : BitVec 13) (s : State), MailboxServes src 0x04 len s →
    let ok := s.trial = false ∧ s.stage_ = 3
    ∃ u, exec (.activate src len) s = .next u ∧ OnlyRegs [SE_MBOX_CTRL, SE_STATUS] s u ∧ OnlyParts [.regs, .flash] s u ∧
      (ok → u.mboxResult = rOk ∧ u.stage_ = 4 ∧
        BootWritten { seq := 0, active := s.otherSlot, trial := true, attempted := false, rolled := false, prev := s.sec.slot
                      svn := hdrSvn (s.slotHeader s.otherSlot) } s u) ∧
      (¬ ok → u.mboxResult = rState ∧ OnlyRegs [SE_MBOX_CTRL] s u ∧ OnlyParts [.regs] s u)) ∧
  (∀ (src : Src) (len : BitVec 13) (s : State), MailboxServes src 0x05 len s →
    ∃ u, exec (.confirm src len) s = .next u ∧ OnlyRegs [SE_MBOX_CTRL] s u ∧ OnlyParts [.regs, .sec] s u ∧
      (s.trial = true → u.mboxResult = rOk ∧ u.sec = { s.sec with confirmSeen := true }) ∧
      (s.trial = false → u.mboxResult = rState ∧ u.sec = s.sec)) ∧
  (∀ (src : Src) (len : BitVec 13) (s : State), MailboxServes src 0x08 len s →
    let chunk := ((Config.certChain s.fuses.uds).drop s.mboxArg).take 4096
    ∃ u, exec (.certRead src len) s = .next u ∧ u.mboxResult = rOk ∧ u.mboxBytes 0 chunk.length = chunk ∧
      u.mboxBytes chunk.length (4096 - chunk.length) = s.mboxBytes chunk.length (4096 - chunk.length) ∧
      OnlyRegs (SE_MBOX_CTRL :: (upTo 512).map SE_MBOX_BUF) s u ∧ OnlyParts [.regs] s u) ∧
  (∀ (src : Src) (len : BitVec 13) (s : State), MailboxServes src 0x10 len s →
    let k := if len.toNat = 96 then Config.deriveKek s.fuses.uds (s.mboxBytes 0 96) else none
    ∃ u, exec (.kekSet src len) s = .next u ∧ OnlyRegs ([SE_MBOX_CTRL, SE_STATUS] ++ (upTo 6).map (SE_MR 7)) s u ∧
      OnlyParts [.regs, .sec] s u ∧ (k = none → u.mboxResult = rBadArg ∧ OnlyRegs [SE_MBOX_CTRL] s u ∧ u.sec = s.sec) ∧
      (∀ key, k = some key → u.mboxResult = rOk ∧ u.flag SE_STATUS 7 = true ∧ u.sec = { s.sec with kek := some (fitTo 32 key) })) ∧
  (∀ (src : Src) (len : BitVec 13) (s : State), MailboxServes src 0x11 len s →
    let unwrapped := s.sec.kek.bind (fun k => Config.keyUnwrap k (s.mboxBytes 0 40))
    ∃ u, exec (.sakInstall src len) s = .next u ∧
      u.mboxResult = (if len.toNat ≠ 64 then rBadArg else if s.sec.kek = none then rState else if unwrapped = none then rAuth else rOk) ∧
      (len.toNat ≠ 64 ∨ unwrapped = none → OnlyRegs [SE_MBOX_CTRL] s u ∧ OnlyParts [.regs] s u) ∧
      (∀ key, len.toNat = 64 → unwrapped = some key → bit s.mboxArg 3 = true ∨ s.fld (FP_PORT_STATUS (bits s.mboxArg 0 3)) 1 4 ≠ 8 →
        u.sec = { s.sec with sas := s.sec.sas.filter (fun a => !sameSa s.mboxArg a) ++ [saOf s.mboxArg key (s.mboxBytes 40 24)] } ∧
        OnlyRegs [SE_MBOX_CTRL] s u ∧ OnlyParts [.regs, .sec] s u)) ∧
  (∀ (src : Src) (len : BitVec 13) (s : State), MailboxServes src 0x12 len s →
    ∃ u, exec (.sakInstallPlain src len) s = .next u ∧
      u.mboxResult = (if s.approved then rDenied else if len.toNat ≠ 56 then rBadArg else rOk) ∧
      (s.approved = true ∨ len.toNat ≠ 56 → OnlyRegs [SE_MBOX_CTRL] s u ∧ OnlyParts [.regs] s u) ∧
      (s.approved = false → len.toNat = 56 → bit s.mboxArg 3 = true ∨ s.fld (FP_PORT_STATUS (bits s.mboxArg 0 3)) 1 4 ≠ 8 →
        u.sec = { s.sec with sas := s.sec.sas.filter (fun a => !sameSa s.mboxArg a) ++
                                    [saOf s.mboxArg (s.mboxBytes 0 32) (s.mboxBytes 32 24)] } ∧
        OnlyRegs [SE_MBOX_CTRL] s u ∧ OnlyParts [.regs, .sec] s u)) ∧
  (∀ (src : Src) (len : BitVec 13) (s : State), MailboxServes src 0x13 len s →
    ∃ u, exec (.sakRetire src len) s = .next u ∧ u.mboxResult = rOk ∧
      u.sec = { s.sec with sas := s.sec.sas.filter (fun a => !sameSa s.mboxArg a) } ∧ OnlyRegs [SE_MBOX_CTRL] s u ∧
      OnlyParts [.regs, .sec] s u) ∧
  (∀ (src : Src) (len : BitVec 13) (s : State), MailboxServes src 0x1F len s → NotifiesHere s → KeyedPortsIdle s →
    ∃ u, exec (.zeroize src len) s = .next u ∧ u.mboxResult = rOk ∧ u.sec = { s.sec with kek := none, sas := [], drbg := 0 } ∧
      u.flag SE_STATUS 7 = false ∧
      (∀ k, k < 8 → s.flag (FP_PORT_CFG k) 2 = true → u.linkUp k = false ∧ u.fld (FP_PORT_STATUS k) 1 4 = 8) ∧
      (∀ k, k < 8 → s.flag (FP_PORT_CFG k) 2 = false → u.reg (FP_PORT_STATUS k) = s.reg (FP_PORT_STATUS k)) ∧
      OnlyRegs ([SE_MBOX_CTRL, SE_STATUS] ++ (upTo 6).map (SE_MR 7) ++ (upTo 8).map FP_PORT_STATUS ++ faultRegs) s u ∧
      OnlyParts (.fab :: faultParts) s u) ∧
  (∀ (src : Src) (len : BitVec 13) (s : State), MailboxServes src 0x20 len s →
    let right := Config.debugResponseOk s.fuses.uds (s.mboxBytes 0 (min len.toNat 4096))
    ∃ u, exec (.debugUnlock src len) s = .next u ∧
      u.mboxResult = (if s.approved then rDenied else if right then rOk else rAuth) ∧
      u.flag SE_STATUS 11 = (s.flag SE_STATUS 11 || (!s.approved && right)) ∧
      OnlyRegs ([SE_MBOX_CTRL, SE_STATUS] ++ (upTo 6).map (SE_MR 7)) s u ∧ OnlyParts [.regs] s u)

/-- A GO while BUSY is counted and ignored; a halted security core answers HALTED, and one in the error state CRYPTO. A long command that
ends clears BUSY. The confirmation of a trial boot writes the boot record, and blows the fuses when their rail is up. A failed
self-test sets the error state, clears POST_OK before the firmware is ready, and is recorded (with no port under MACSEC). -/
def Obligations.MailboxWaitsAndTrialEvents : Prop :=
  (∀ (i : Instr) (src : Src) (op : Nat) (len : BitVec 13) (s : State), mailboxCommand i = some (src, op, len) →
    s.writable src SE_MBOX_CTRL (op + 2 ^ 8 + len.toNat * 2 ^ 24) = true →
    ∃ u, exec i s = .next u ∧
      (s.mboxBusy = true → Counted SE_MBOX_IGNORED s u ∧ OnlyRegs [SE_MBOX_CTRL, SE_MBOX_IGNORED] s u ∧ OnlyParts [.regs] s u) ∧
      (s.mboxBusy = false → s.flag SE_STATUS 3 = true → u.mboxResult = rHalted ∧ OnlyRegs [SE_MBOX_CTRL] s u ∧ OnlyParts [.regs] s u) ∧
      (s.mboxBusy = false → s.flag SE_STATUS 3 = false → s.flag SE_STATUS 2 = true → u.mboxResult = rCrypto ∧
        OnlyRegs [SE_MBOX_CTRL] s u ∧ OnlyParts [.regs] s u)) ∧
  (∀ (src : Src) (value : Word64) (s : State), s.mboxBusy = true → s.writable src SE_MBOX_CTRL (value.toNat ||| 2 ^ 8) = true →
    ∃ u, exec (.mailboxGoIgnored src value) s = .next u ∧ Counted SE_MBOX_IGNORED s u ∧ u.mboxBusy = true ∧
      u.mboxResult = s.mboxResult ∧ OnlyRegs [SE_MBOX_CTRL, SE_MBOX_IGNORED] s u ∧ OnlyParts [.regs] s u) ∧
  (∀ s : State, s.ctl.life = .alive → s.sec.busyOp ≠ none →
    ∃ u, exec .mailboxCommandDone s = .next u ∧ u.mboxBusy = false ∧ u.sec = { s.sec with busyOp := none } ∧
      u.mboxResult = (if s.flag SE_STATUS 3 then rHalted else if s.flag SE_STATUS 2 then rCrypto else rOk) ∧
      u.stage_ = (if s.flag SE_STATUS 3 || s.flag SE_STATUS 2 then 0 else 2) ∧ OnlyField SE_STATUS 8 3 s u ∧
      OnlyRegs [SE_MBOX_CTRL, SE_STATUS] s u ∧ OnlyParts [.regs, .sec] s u) ∧
  (∀ (m1f1 fuseRail : Bool) (s : State), s.ctl.life = .alive →
    ∃ u, exec (.trialConfirmation m1f1 fuseRail) s = .next u ∧ (s.mayConfirm = false ∨ m1f1 = false → u = s) ∧
      (s.mayConfirm = true → m1f1 = true → u.trial = false ∧
        BootWritten { seq := 0, active := s.sec.slot, trial := false, attempted := false, rolled := false, prev := s.sec.slot
                      svn := hdrSvn s.sec.header } s u ∧
        (fuseRail = false → u.fuses = s.fuses) ∧
        (fuseRail = true → u.fuses.svn = max s.fuses.svn (hdrSvn s.sec.header) ∧
          ∀ k, k < 4 → (u.fuses.revoked[k]?).getD false = ((s.fuses.revoked[k]?).getD false || decide (k < hdrKey s.sec.header)))) ∧
      OnlyRegs [SE_STATUS] s u ∧ OnlyParts [.regs, .fuses, .flash] s u) ∧
  (∀ (test t : Nat) (s : State), s.ctl.life = .alive → NotifiesHere s → (∀ k, k < 8 → s.flag (FP_PORT_CFG k) 2 = false) →
    ∃ u, exec (.selfTestFailure test t) s = .next u ∧ u.flag SE_STATUS 2 = true ∧ FaultNewest (srcCore 0) 0x27 test u ∧
      u.ctl = { s.ctl with now := max s.ctl.now t, mbistBad := s.ctl.mbistBad || (decide (test < 2) && !s.valid) } ∧
      u.flag SE_STATUS 1 = (s.fwReady && s.flag SE_STATUS 1) ∧ OnlyField SE_STATUS 1 2 s u ∧ OnlyRegs (SE_STATUS :: faultRegs) s u ∧
      OnlyParts (.ctl :: faultParts) s u)

-- Fabric (09)

/-- A frame that fails a check is not taken: on a port out of service nothing but the clock changes; otherwise it is counted as received,
and as discarded, as failed by MACsec, or as carrying this block's own ID. -/
def Obligations.RejectedFramesAreCounted : Prop :=
  ∀ (i : Instr) (k : Fin 8) (f : Frame) (t typ : Nat) (s : State), frameOf i = some (k, f, t, typ) → s.ctl.life = .alive →
    ∃ u, exec i s = .next u ∧
      (s.linkUp k = false → ClockAt t s u ∧ OnlyParts [.ctl] s u) ∧
      (s.linkUp k = true → s.flag FP_CFG 0 = true ∨ f.dmac = s.baseMac + k → s.flag (FP_PORT_CFG k) 2 = true → s.macsecOk k f = false →
        Counted (FP_PORT_CTR k 6) s u ∧ Counted (FP_PORT_CTR k 1) s u ∧ OnlyRegs [FP_PORT_CTR k 1, FP_PORT_CTR k 6] s u ∧
        u.fab.flows = s.fab.flows ∧ u.fab.inbox = s.fab.inbox ∧ OnlyParts [.ctl, .regs, .fab] s u) ∧
      (s.linkUp k = true → s.flag FP_CFG 0 = true ∨ f.dmac = s.baseMac + k → s.flag (FP_PORT_CFG k) 2 = false → s.vlanOk f = false →
        Counted FP_DISCARD s u ∧ Counted (FP_PORT_CTR k 1) s u ∧ OnlyRegs [FP_PORT_CTR k 1, FP_DISCARD] s u ∧
        u.fab.flows = s.fab.flows ∧ u.fab.inbox = s.fab.inbox ∧ OnlyParts [.ctl, .regs, .fab] s u) ∧
      (s.linkUp k = true → s.flag FP_CFG 0 = false → f.dmac = s.baseMac + k → s.flag (FP_PORT_CFG k) 2 = false → s.vlanOk f = true →
        f.etype = s.fld FP_ETYPE 0 16 → frameSrc f = s.id →
        Counted FP_DUP_ID s u ∧ u.flag CC_BLOCK_ID 16 = true ∧ OnlyField CC_BLOCK_ID 16 1 s u ∧
        OnlyRegs [FP_PORT_CTR k 1, FP_DUP_ID, CC_BLOCK_ID] s u ∧ u.fab.flows = s.fab.flows ∧ u.fab.inbox = s.fab.inbox ∧
        OnlyParts [.ctl, .regs, .fab] s u) ∧
      (FrameArrives k f s → s.headerOk f typ = false →
        Counted FP_DISCARD s u ∧ Counted (FP_PORT_CTR k 1) s u ∧ OnlyRegs [FP_PORT_CTR k 1, FP_DISCARD] s u ∧
        u.fab.flows = s.fab.flows ∧ u.fab.inbox = s.fab.inbox ∧ OnlyParts [.ctl, .regs, .fab, .sec] s u)

/-- DATA, after its acknowledgement is taken (state `s1`): the next frame in order that carries a whole message delivers it, or
discards and counts a Table Keeper message of another firmware line, and moves the receive side on: its units are consumed at once, unless
a message that began earlier is unfinished, CLIMIT grants what the receive buffer leaves (log 116), and on lanes 0 and 1 an acknowledgement
leaves at once, if the port may send. A repeated one delivers nothing; the first one ahead of the order calls for a NAK. An ACK moves the acknowledged number and the credit limit and releases the frames below it. A NAK sends every unacknowledged
frame again, in order. -/
def Obligations.DataAndAcknowledgementsMoveFlows : Prop :=
  (∀ (k : Fin 8) (f : Frame) (t : Nat) (w : Flow) (s : State), s.ctl.life = .alive → FrameTaken k f 1 s →
    let p := frameSrc f
    let l := frameLane f
    let s1 := (s.arrived k f t).takeAck p l f.hdr
    let ahead := (framePsn f + 2 ^ 32 - w.rxPsn % 2 ^ 32) % 2 ^ 32
    s1.flow? p l = some w → w.st ≠ .opening →
    ∃ u x, exec (.data k f t) s = .next u ∧ u.flow? p l = some x ∧ x.unacked = w.unacked ∧ x.queue = w.queue ∧ x.st = .open_ ∧
      (∀ id m, ahead = 0 → f.payload = fragment id 0 m true true → id < 2 ^ 32 → 16 ≤ m.length → mLen m = m.length →
        knownType (mType m) = true → s1.otherLine m = false → lookupBy id w.partials = none →
        u.fab.inbox = s1.fab.inbox ++ [{ src := p, lane := l, bytes := m }] ∧ x.rxPsn = w.rxPsn + 1 ∧
        x.rxUnits = w.rxUnits + frameCost f.payload.length ∧ x.rxHeld = (if w.partials = [] then 0 else frameCost f.payload.length) ∧
        x.rxLimit = max w.rxLimit (x.rxUnits - x.rxHeld + s1.grantFor w) ∧
        (l ≤ 1 → s1.heldBack w = false → x.sinceAck = 0) ∧
        (∀ kk, l ≤ 1 → w.port = some kk → MaySend s1 kk l 1 → ∃ e, Left [e] s1 u ∧ e.port = kk ∧ e.dst = p ∧ e.typ = 2 ∧
          leAt e.hdr 16 4 = (w.rxPsn + 1) % 2 ^ 32)) ∧
      (∀ id m, ahead = 0 → f.payload = fragment id 0 m true true → id < 2 ^ 32 → 16 ≤ m.length → s1.otherLine m = true →
        lookupBy id w.partials = none → u.fab.inbox = s1.fab.inbox ∧ Counted FP_DISCARD s1 u ∧ x.rxPsn = w.rxPsn + 1) ∧
      (2 ^ 31 ≤ ahead → u.fab.inbox = s1.fab.inbox ∧ x.rxPsn = w.rxPsn ∧ x.rxUnits = w.rxUnits ∧
        (s1.heldBack w = false → x.sinceAck = 0)) ∧
      (0 < ahead → ahead < 2 ^ 31 → w.nakAt = none → s1.heldBack w = false → u.fab.inbox = s1.fab.inbox ∧ x.rxPsn = w.rxPsn ∧ x.rxUnits = w.rxUnits ∧
        x.nakAt = some s1.ctl.now ∧
        ∀ kk, w.port = some kk → MaySend s1 kk l 1 → ∃ e, Left [e] s1 u ∧ e.port = kk ∧ e.dst = p ∧ e.typ = 3) ∧
      OnlyParts [.regs, .fab, .sec] s1 u) ∧
  (∀ (k : Fin 8) (f : Frame) (t : Nat) (w : Flow) (s : State), s.ctl.life = .alive → FrameTaken k f 2 s →
    s.flow? (frameSrc f) (frameLane f) = some w → NothingQueued s →
    let delta := (leAt f.hdr 16 4 + 2 ^ 32 - w.acked % 2 ^ 32) % 2 ^ 32
    let credit := (leAt f.hdr 20 4 + 2 ^ 32 - w.climit % 2 ^ 32) % 2 ^ 32
    let moved := 0 < delta ∧ delta ≤ w.psn - w.acked
    ∃ u x, exec (.ack k f t) s = .next u ∧ u.flow? (frameSrc f) (frameLane f) = some x ∧
      (bit (leAt f.hdr 1 1) 0 = false → x = w) ∧
      (bit (leAt f.hdr 1 1) 0 = true →
        (moved → x.acked = w.acked + delta ∧ x.timeouts = 0) ∧ (¬ moved → x.acked = w.acked ∧ x.timeouts = w.timeouts) ∧
        x.unacked = w.unacked.filter (fun y => decide (x.acked ≤ y.psn)) ∧
        x.climit = (if credit < 2 ^ 31 then w.climit + credit else w.climit) ∧ x.psn = w.psn ∧ x.rxPsn = w.rxPsn) ∧
      ClockAt t s u ∧ u.fab.inbox = s.fab.inbox ∧ u.fab.egress = s.fab.egress ∧ Counted (FP_PORT_CTR k 1) s u ∧
      OnlyRegs [FP_PORT_CTR k 1] s u ∧ OnlyParts [.ctl, .regs, .fab, .sec] s u) ∧
  (∀ (k : Fin 8) (f : Frame) (t kk : Nat) (w : Flow) (s : State), s.ctl.life = .alive → FrameTaken k f 3 s →
    let p := frameSrc f
    let l := frameLane f
    let s1 := (s.arrived k f t).takeAck p l f.hdr
    s1.flow? p l = some w → w.st ≠ .opening → w.port = some kk → MaySend s1 kk l w.unacked.length →
    ∃ u x es, exec (.nak k f t) s = .next u ∧ Left es s1 u ∧ es.map (fun e => e.payload) = w.unacked.map (fun y => y.payload) ∧
      es.map (fun e => leAt e.hdr 12 4) = w.unacked.map (fun y => y.psn % 2 ^ 32) ∧
      (∀ e ∈ es, e.port = kk ∧ e.dst = p ∧ e.typ = 1 ∧ bit (leAt e.hdr 1 1) 2 = true) ∧ u.flow? p l = some x ∧
      x.unacked = w.unacked.map (fun y => { y with sent := s1.ctl.now }) ∧ x.queue = w.queue ∧ u.fab.inbox = s1.fab.inbox ∧
      OnlyParts [.regs, .fab, .sec] s1 u)

/-- OPEN from a partner without a flow opens one in its epoch and answers OPEN_ACK. OPEN_ACK opens the flow that waited for it. CLOSE of a
flow with nothing unacknowledged or queued (after its acknowledgement, state `s1`) is answered and releases the flow; otherwise, and while
its lane is paused, it is not. CLOSE_ACK releases a closing flow. -/
def Obligations.FlowsOpenAndClose : Prop :=
  (∀ (k : Fin 8) (f : Frame) (t : Nat) (s : State), s.ctl.life = .alive → FrameTaken k f 4 s → NothingQueued s → s.valid = true →
    let p := frameSrc f
    let l := frameLane f
    s.flow? p l = none → s.fab.flows.length < 8192 → (∀ x ∈ s.fab.xchg, x.dst = p → x.kind ≠ .update) →
    ∃ u x, exec (.openFrame k f t) s = .next u ∧ ClockAt t s u ∧ u.flow? p l = some x ∧ x.st = .open_ ∧ x.epoch = frameEpoch f ∧
      x.self = s.id ∧ x.psn = 0 ∧ x.rxPsn = 0 ∧ u.routeBit p 2 = false ∧ u.fab.inbox = s.fab.inbox ∧
      (∀ kk, x.port = some kk → MaySend (s.arrived k f t) kk l 1 →
        ∃ e, Left [e] s u ∧ e.port = kk ∧ e.dst = p ∧ e.typ = 5 ∧ leAt e.hdr 10 2 = frameEpoch f) ∧
      (∀ q m, ¬ (q = p ∧ m = l) → u.flow? q m = s.flow? q m) ∧ OnlyParts [.ctl, .regs, .fab, .sec] s u) ∧
  (∀ (k : Fin 8) (f : Frame) (t : Nat) (w : Flow) (s : State), s.ctl.life = .alive → FrameTaken k f 5 s → NothingQueued s →
    let p := frameSrc f
    let l := frameLane f
    s.flow? p l = some w → (∀ x ∈ s.fab.xchg, x.dst = p → x.kind ≠ .update) →
    ∃ u x, exec (.openAck k f t) s = .next u ∧ ClockAt t s u ∧ u.flow? p l = some x ∧ u.fab.inbox = s.fab.inbox ∧ u.fab.egress = s.fab.egress ∧
      (w.st = .opening → x.st = .open_ ∧ x.timeouts = 0 ∧ x.port = (if s.routeBit p 2 then some k.val else w.port) ∧ u.routeBit p 2 = false) ∧
      (w.st ≠ .opening → x = w) ∧ OnlyRegs [FP_PORT_CTR k 1] s u ∧ OnlyParts [.ctl, .regs, .fab, .sec] s u) ∧
  (∀ (k : Fin 8) (f : Frame) (t : Nat) (w : Flow) (s : State), s.ctl.life = .alive → FrameTaken k f 6 s →
    let p := frameSrc f
    let l := frameLane f
    let s1 := (s.arrived k f t).takeAck p l f.hdr
    s1.flow? p l = some w → s1.fab.stalled = [] →
    let done := w.st ≠ .opening ∧ w.unacked = [] ∧ w.queue = [] ∧ s1.heldBack w = false
    ∃ u, exec (.close k f t) s = .next u ∧ (¬ done → u = s1) ∧
      (done → u.fab.flows = s1.fab.flows.filter (fun x => !(x.partner == p && x.lane == l)) ∧
        (∀ kk, w.port = some kk → MaySend s1 kk l 1 → ∃ e, Left [e] s1 u ∧ e.port = kk ∧ e.dst = p ∧ e.typ = 7) ∧ u.fab.inbox = s1.fab.inbox ∧
        OnlyParts [.regs, .fab, .sec] s1 u)) ∧
  (∀ (k : Fin 8) (f : Frame) (t : Nat) (w : Flow) (s : State), s.ctl.life = .alive → FrameTaken k f 7 s →
    let p := frameSrc f
    let l := frameLane f
    s.flow? p l = some w → s.fab.stalled = [] →
    ∃ u, exec (.closeAck k f t) s = .next u ∧ ClockAt t s u ∧ u.fab.inbox = s.fab.inbox ∧
      u.fab.flows = (if w.st = .closing then s.fab.flows.filter (fun x => !(x.partner == p && x.lane == l)) else s.fab.flows) ∧
      (w.st = .closing → u.reg FP_PARTIAL_DROP = (if w.partials = [] then s.reg FP_PARTIAL_DROP
        else min (s.reg FP_PARTIAL_DROP + w.partials.length) (2 ^ 48 - 1))) ∧
      OnlyRegs [FP_PORT_CTR k 1, FP_PARTIAL_DROP, FP_FLOWS_OPEN] s u ∧ OnlyParts [.ctl, .regs, .fab, .sec] s u)

/-- The timers of a flow. The retransmission timeout, below RETRY_MAX, counts and sends again what is unacknowledged, or OPEN; at RETRY_MAX
the flow takes another port that it can use, or the partner is DOWN and its flows close. ACK_DELAY sends the acknowledgement that is owed.
A flow idle for IDLE_CLOSE sends CLOSE. A DOWN partner is probed by OPEN on lane 0 on every usable port. The coalescing timer sends the part
of a frame that waits. Frames leave where the port may send: a paused lane owes what it does not send (log 117). -/
def Obligations.FlowTimersAct : Prop :=
  (∀ (partner : BitVec 15) (lane : Fin 4) (t : Nat) (w : Flow) (s : State), s.ctl.life = .alive → s.tab.addWaits = [] →
    s.flow? partner.toNat lane = some w →
    let a := s.advance t
    (a.rtoDue w = false → ∃ u, exec (.rtoExpiry partner lane t) s = .next u ∧ ClockAt t s u ∧ OnlyParts [.ctl] s u) ∧
    (a.rtoDue w = true → ∃ u x es, exec (.rtoExpiry partner lane t) s = .next u ∧ ClockAt t s u ∧ u.flow? partner.toNat lane = some x ∧
      x.timeouts = w.timeouts + 1 ∧ x.queue = w.queue ∧ Left es s u ∧ (s.retryMax ≤ w.timeouts + 1 → es = []) ∧
      (∀ kk, w.timeouts + 1 < s.retryMax → w.port = some kk → w.st = .opening → MaySend a kk lane 1 → es.map (fun e => (e.port, e.typ)) = [(kk, 4)]) ∧
      (∀ kk, w.timeouts + 1 < s.retryMax → w.port = some kk → w.st ≠ .opening → MaySend a kk lane w.unacked.length →
        es.map (fun e => e.payload) = w.unacked.map (fun y => y.payload) ∧ ∀ e ∈ es, e.port = kk ∧ e.typ = 1 ∧ bit (leAt e.hdr 1 1) 2 = true) ∧
      OnlyParts [.ctl, .regs, .fab, .sec] s u)) ∧
  (∀ (partner : BitVec 15) (lane : Fin 4) (t kk : Nat) (w : Flow) (s : State), s.ctl.life = .alive →
    let p := partner.toNat
    let bad := addOnce kk w.badPorts
    s.fab.flows.filter (fun g => g.partner == p) = [w] → w.lane = lane.val → w.port = some kk → s.retryMax ≤ w.timeouts →
    (s.usable p bad ≠ [] → ∃ u x, exec (.retryMaxReached partner lane t) s = .next u ∧ ClockAt t s u ∧ u.flow? p lane = some x ∧
      x.badPorts = bad ∧ x.port = s.choosePort p lane bad ∧ x.timeouts = 0 ∧ OnlyParts [.ctl, .regs, .fab, .sec] s u) ∧
    (∀ b, s.usable p bad = [] → (s.route p).length = 32 → Quiet s → s.tab.addWaits = [] → s.fab.stalled = [] → s.leadOrDeputy p = some b →
      b ≠ s.id → (∀ x ∈ s.fab.xchg, x.dst ≠ p) →
      ∃ u, exec (.retryMaxReached partner lane t) s = .next u ∧ ClockAt t s u ∧ u.routeBit p 2 = true ∧
        (∀ g ∈ u.fab.flows, g.partner ≠ p) ∧ OnlyParts [.ctl, .regs, .fab, .sec] s u)) ∧
  (∀ (partner : BitVec 15) (lane : Fin 4) (t : Nat) (w : Flow) (s : State), s.ctl.life = .alive → s.flow? partner.toNat lane = some w →
    let due := w.sinceAck ≠ 0 ∧ w.oldestRx + s.fld FP_CFG 44 8 * 100 * ns ≤ max s.ctl.now t
    ∃ u x, exec (.ackDelayExpiry partner lane t) s = .next u ∧ ClockAt t s u ∧ u.flow? partner.toNat lane = some x ∧
      (¬ due → u.fab = s.fab ∧ u.regs = s.regs) ∧
      (due → (s.advance t).heldBack w = false → x.sinceAck = 0 ∧
        ∀ kk, w.port = some kk → MaySend (s.advance t) kk lane 1 → ∃ e, Left [e] s u ∧ e.port = kk ∧ e.typ = 2) ∧
      x.unacked = w.unacked ∧ x.queue = w.queue ∧ OnlyParts [.ctl, .regs, .fab, .sec] s u) ∧
  (∀ (partner : BitVec 15) (lane : Fin 4) (t : Nat) (w : Flow) (s : State), s.ctl.life = .alive → s.flow? partner.toNat lane = some w →
    let due := w.st = .open_ ∧ w.unacked = [] ∧ w.queue = [] ∧ (s.advance t).heldBack w = false ∧ w.lastUse + s.fld FP_CFG 28 8 * ms ≤ max s.ctl.now t
    ∃ u x, exec (.idleCloseExpiry partner lane t) s = .next u ∧ ClockAt t s u ∧ u.flow? partner.toNat lane = some x ∧
      (¬ due → u.fab = s.fab ∧ u.regs = s.regs) ∧
      (due → x.st = .closing ∧
        ∀ kk, w.port = some kk → MaySend (s.advance t) kk lane 1 → ∃ e, Left [e] s u ∧ e.port = kk ∧ e.typ = 6) ∧
      OnlyParts [.ctl, .regs, .fab, .sec] s u) ∧
  (∀ (partner : BitVec 15) (t : Nat) (s : State), s.ctl.life = .alive →
    let p := partner.toNat
    s.valid = true → s.routeBit p 2 = true → s.routeBit p 3 = false → s.routeBit p 0 = true → s.fab.flows.length < 8192 →
    (∀ kk ∈ s.usable p [], MaySend (s.advance t) kk 0 1) →
    ∃ u x es, exec (.reprobeExpiry partner t) s = .next u ∧ ClockAt t s u ∧ u.flow? p 0 = some x ∧ x.st = .opening ∧
      x.epoch = s.fab.epoch ∧ Left es s u ∧ es.map (fun e => e.port) = s.usable p [] ∧ (∀ e ∈ es, e.dst = p ∧ e.typ = 4) ∧
      (∀ q m, ¬ (q = p ∧ m = 0) → u.flow? q m = s.flow? q m) ∧
      OnlyRegs (FP_FLOWS_OPEN :: (upTo 8).map (fun k => FP_PORT_CTR k 0)) s u ∧ OnlyParts [.ctl, .regs, .fab, .sec] s u) ∧
  (∀ (partner : BitVec 15) (lane : Fin 4) (t kk : Nat) (w : Flow) (m : OutMsg) (s : State), s.ctl.life = .alive →
    let a := s.advance t
    let n := m.bytes.length - m.off
    s.flow? partner.toNat lane = some w → w.st = .open_ → w.port = some kk → MaySend a kk lane 1 → s.draining kk = false →
    w.queue = [m] → m.off < m.bytes.length → n + 12 ≤ s.maxPayload → w.units + frameCost (n + 12) ≤ w.climit →
    (s.flag FP_CFG 2 = true → w.inFlight + frameCost (n + 12) ≤ w.window) → s.txUse + n + 12 ≤ s.fld FP_BUF_CFG 44 12 * 2 ^ 20 →
    ∃ u x e, exec (.coalesceExpiry partner lane t) s = .next u ∧ ClockAt t s u ∧ Left [e] s u ∧ e.port = kk ∧ e.typ = 1 ∧
      e.payload = fragment m.id m.off (Machine.bytesAt m.bytes m.off n) (m.off == 0) true ∧ leAt e.hdr 12 4 = w.psn % 2 ^ 32 ∧
      u.flow? partner.toNat lane = some x ∧ x.queue = [] ∧ x.psn = w.psn + 1 ∧
      x.unacked = w.unacked ++ [{ psn := w.psn, payload := e.payload, cost := frameCost (n + 12), sent := max s.ctl.now t }] ∧
      OnlyParts [.ctl, .regs, .fab, .sec] s u)

/-- Priority flow control. A PFC frame sets the pause of each priority that it names and that PFC_EN enables, or ends it with quanta 0. A
priority paused for longer than PFC_WD ms is released, its pauses are ignored for as long, and the port's bit is set. -/
def Obligations.PausesFollowFramesAndWatchdog : Prop :=
  (∀ (k : Fin 8) (prios : BitVec 8) (quanta : List Nat) (t : Nat) (s : State), s.ctl.life = .alive → NothingQueued s →
    let now := max s.ctl.now t
    let named := fun p => p < 8 ∧ bit prios.toNat p = true ∧ s.flag FP_LANE_CFG (12 + p) = true ∧
      ∀ x ∈ s.fab.ignorePause, x.1 = k.val → x.2.1 = p → x.2.2 ≤ now
    ∃ u, exec (.pfcFrame k prios quanta t) s = .next u ∧ ClockAt t s u ∧ OnlyParts [.ctl, .fab] s u ∧
      u.fab = { s.fab with pauses := u.fab.pauses } ∧ (s.linkUp k = false → u.fab = s.fab) ∧
      (s.linkUp k = true → ∀ p, named p →
        let q := min ((quanta[p]?).getD 0) 65535
        (q = 0 → ∀ x ∈ u.fab.pauses, ¬ (x.1 = k.val ∧ x.2.1 = p)) ∧
        (q ≠ 0 → ∀ x ∈ u.fab.pauses, x.1 = k.val → x.2.1 = p → x.2.2.1 = now + q * pfcQuantum) ∧
        (q ≠ 0 → ∃ x ∈ u.fab.pauses, x.1 = k.val ∧ x.2.1 = p)) ∧
      (∀ x, ¬ (x.1 = k.val ∧ named x.2.1) → (x ∈ u.fab.pauses ↔ x ∈ s.fab.pauses))) ∧
  (∀ (k p : Fin 8) (t : Nat) (x : Nat × Nat × Nat × Nat) (s : State), s.ctl.life = .alive → NothingQueued s →
    let now := max s.ctl.now t
    let wd := s.fld FP_LANE_CFG 20 8 * ms
    s.fab.pauses.find? (fun y => y.1 == k.val && y.2.1 == p.val) = some x → wd ≠ 0 → now < x.2.2.1 → x.2.2.2 + wd ≤ now →
    ∃ u, exec (.pfcWatchdogExpiry k p t) s = .next u ∧ ClockAt t s u ∧ u.flag (FP_PORT_STATUS k) 5 = true ∧
      u.fab.pauses = s.fab.pauses.filter (fun y => !(y.1 == k.val && y.2.1 == p.val)) ∧ (k.val, p.val, now + wd) ∈ u.fab.ignorePause ∧
      u.fab.flows = s.fab.flows ∧ OnlyField (FP_PORT_STATUS k) 5 1 s u ∧ OnlyRegs [FP_PORT_STATUS k] s u ∧
      OnlyParts [.ctl, .regs, .fab] s u)

/-- Ports. A port leaves service with its cause: used-up packet numbers, no alignment, a lost link, FEC; it is recorded but for cause 1, a lost
link is counted, its pauses end, and its flows take other ports. A port comes up unless a loop-back, a missing key or the hold-off after FEC bars
it. A loop-back whose SerDes does not answer ends with NOT_RUN. -/
def Obligations.PortsLeaveAndEnter : Prop :=
  (∀ (i : Instr) (k : Fin 8) (t cause : Nat) (lost : Bool) (s : State), s.ctl.life = .alive → NotifiesHere s →
    ((i = .packetNumberExhausted k t ∧ s.pnExhausted k = true ∧ cause = 8 ∧ lost = false) ∨
     (i = .portAlignTimeout k t ∧ s.linkUp k = false ∧ s.lbHolds k = false ∧ s.fld (FP_PORT_STATUS k) 1 4 ≠ 8 ∧ cause = 2 ∧ lost = false) ∨
     (∃ c, i = .portLinkDown k c t ∧ c.toNat = cause ∧ (cause = 1 ∨ cause = 4 ∨ cause = 5) ∧ s.lbHolds k = false ∧
        s.fld (FP_PORT_STATUS k) 1 4 ≠ 8 ∧ lost = true) ∨
     (i = .fecThresholdReached k t ∧ s.linkUp k = true ∧ cause = 3 ∧ lost = true)) →
    (s.fab.flows.map (fun g => (g.partner, g.lane))).Nodup →
    (∀ g ∈ s.fab.flows, g.port = some k.val → g.st ≠ .opening ∧ g.unacked = [] ∧ g.queue = []) →
    ∃ u, exec i s = .next u ∧ ClockAt t s u ∧ u.linkUp k = false ∧ u.fld (FP_PORT_STATUS k) 1 4 = cause ∧
      (lost = true → s.linkUp k = true → Counted (FP_PORT_CTR k 7) s u) ∧
      (cause ≠ 1 → s.linkUp k = true ∨ s.fld (FP_PORT_STATUS k) 1 4 ≠ cause → FaultNewest (srcPort k) 0x24 (k + cause * 16) u) ∧
      (s.linkUp k = true → (∀ x ∈ u.fab.pauses, x.1 ≠ k.val) ∧ ∀ g ∈ u.fab.flows, g.port ≠ some k.val) ∧
      (i = .fecThresholdReached k t → k.val ∈ u.fab.fecHold) ∧ u.fab.egress = s.fab.egress ∧
      OnlyRegs (FP_PORT_STATUS k :: FP_PORT_CTR k 7 :: faultRegs) s u ∧ OnlyParts (.ctl :: .fab :: faultParts) s u) ∧
  (∀ (k : Fin 8) (s : State), s.ctl.life = .alive →
    let barred := s.lbHolds k = true ∨ s.fld (FP_PORT_STATUS k) 1 4 = 8 ∨ k.val ∈ s.fab.fecHold ∨ s.flag (FP_PORT_CFG k) 0 = false
    (∀ g ∈ s.fab.flows, g.port ≠ none) →
    ∃ u, exec (.portLinkUp k) s = .next u ∧ (barred → u = s) ∧
      (¬ barred → s.linkUp k = false → u.linkUp k = true ∧ u.fld (FP_PORT_STATUS k) 1 4 = 0) ∧ OnlyField (FP_PORT_STATUS k) 0 5 s u ∧
      OnlyRegs [FP_PORT_STATUS k] s u ∧ OnlyParts [.regs] s u) ∧
  (∀ (k : Fin 8) (s : State), s.ctl.life = .alive →
    ∃ u, exec (.fecRetryHoldoffExpiry k) s = .next u ∧ u.fab = { s.fab with fecHold := s.fab.fecHold.filter (fun x => x != k.val) } ∧
      OnlyParts [.fab] s u) ∧
  (∀ (k : Fin 8) (b : LbRun) (c : Cmd) (s s1 : State), s.ctl.life = .alive →
    s.fab.lb.find? (fun x => x.port == k.val && x.stage == 1) = some b → s.cmd? b.handle = some c →
    let d := Desc.of c.desc
    d.depth = 5 →
    ((s.upFab (fun f => { f with lb := f.lb.filter (fun x => x.handle != c.handle) })).syncRepairs).writeUnits c 0
      [[(d.dstp, lbResult d lbNotRun 0 0xFFFFFFFFFFFFFFFF 0 0 0)]] (.ringWrite c.ring) 1 = (s1, .done) →
    ∃ u, exec (.loopbackAckTimeout k) s = .next u ∧
      u.cmd? b.handle = (s1.cmd? b.handle).map (fun x => { x with status := sOk, phase := .done }) ∧
      (∀ h, h ≠ b.handle → u.cmd? h = s1.cmd? h) ∧ OnlyParts [.cmds, .tab, .fab, .tu] s1 u)

-- Messages (09 R351 to R364, R374)

/-- READ_REQ and POOL_REQ are refused with STALE_OWNER without the table's record or its rows, and with CONTEXT_DENIED for context 0; a row held
here is answered with its value, a bag with its partial sum. A reply that is awaited gives its command the rows, partials or event that it
brings; another one, and one after its command's cutoff, is late, and counted. The cutoff comes at the deadline and not before: a command
that waits for a list ends with REMOTE_TIMEOUT and the lowest block that owes one; what then stands in a look-up's destination buffer is
open. -/
def Obligations.LookupMessagesAreServed : Prop :=
  (∀ (i : Instr) (src : BitVec 15) (msg : List Byte) (t code lane : Nat) (s : State),
    ((i = .readReq src msg t ∧ code = 0x01) ∨ (i = .poolReq src msg t ∧ code = 0x02)) → s.ctl.life = .alive →
    Requested src.toNat code msg lane s → s.laneOf src.toNat msg 1 = lane →
    let reply := fun st body => Posted src.toNat lane (mkMsg (code + 0x80) st (mHandle msg) (mXid msg) body)
    let ctx := leAt msg 22 2
    ∃ u, exec i s = .next u ∧ Consumed src.toNat msg s u ∧ u.mem = s.mem ∧
      (s.rec? (leAt msg 16 3) = none → reply 0xF0 [] u) ∧
      (∀ r, s.rec? (leAt msg 16 3) = some r → ctx = 0 ∨ ctxDenied r ctx true = true → reply sDenied [] u) ∧
      (∀ r, s.rec? (leAt msg 16 3) = some r → ctx ≠ 0 → ctxDenied r ctx true = false → i = .readReq src msg t →
        s.heldRows r.tbl (leAt msg 20 2) (readRows msg) = false → r.tbl = leAt msg 16 3 → reply 0xF0 [] u)) ∧
  (∀ (src : BitVec 15) (msg : List Byte) (t lane row : Nat) (r : TableRec) (y : List F32 × Findings) (s : State), s.ctl.life = .alive →
    Requested src.toNat 0x01 msg lane s → s.laneOf src.toNat msg 1 = lane → s.rec? (leAt msg 16 3) = some r →
    let ver := leAt msg 20 2
    let f := s.verFmt r.tbl ver
    leAt msg 22 2 ≠ 0 → ctxDenied r (leAt msg 22 2) true = false → readRows msg = [row] →
    s.heldRows (leAt msg 16 3) ver [row] = true → ((s.advance t).fetchLocal r.tbl ver s.remotePart f [row]).2 = [(row, .row y.1 y.2)] →
    let o := outBytes (leAt msg 24 1) (padTo 16 (f.dim * osize (leAt msg 24 1))) y.1
    ∃ u, exec (.readReq src msg t) s = .next u ∧ u.mem = s.mem ∧
      Posted src.toNat lane (mkMsg 0x81 0 (mHandle msg) (mXid msg) (replyHeader 1 (Findings.none.or (o.2.or y.2)) ++ o.1 ++ zeros 16)) u) ∧
  (∀ (src : BitVec 15) (msg : List Byte) (t lane bag n : Nat) (bs : List Byte) (r : TableRec) (s : State), s.ctl.life = .alive →
    Requested src.toNat 0x02 msg lane s → s.laneOf src.toNat msg 1 = lane → s.rec? (leAt msg 16 3) = some r →
    let ver := leAt msg 20 2
    let f := s.verFmt r.tbl ver
    let rf := leAt msg 19 1
    leAt msg 22 2 ≠ 0 → ctxDenied r (leAt msg 22 2) true = false → msgBags msg = [(bag, n, 0, bs)] → bits rf 0 2 ≠ 3 →
    s.heldRows r.tbl ver (sortUnique (nums bs 8 n)) = true →
    let x := (s.advance t).fetchServed src.toNat (mHandle msg) (leAt msg 28 4) r.tbl ver f (sortUnique (nums bs 8 n))
    let o := serveBag (if f.intacc then .int else if bit rf 2 then .comp else .plain) f.dim bag false (bit rf 2) x.2 (x.1.dfltRow r f)
      (nums bs 8 n) []
    servable (bit rf 3) x.2 = true →
    ∃ u, exec (.poolReq src msg t) s = .next u ∧ u.mem = s.mem ∧
      Posted src.toNat lane (mkMsg 0x82 0 (mHandle msg) (mXid msg) (replyHeader 1 (Findings.none.or o.2.1) ++ o.1)) u) ∧
  (∀ (i : Instr) (src : BitVec 15) (msg : List Byte) (t : Nat) (s : State), s.ctl.life = .alive →
    ((i = .readReply src msg t ∧ mType msg = 0x81) ∨ (i = .poolReply src msg t ∧ mType msg = 0x82)) → s.inTurn src.toNat msg = true →
    (s.xchg? src.toNat (mXid msg) = none ∨ ∃ x c, s.xchg? src.toNat (mXid msg) = some x ∧ x.kind = .bundle ∧ s.cmd? x.handle = some c ∧
      c.deadline < max s.ctl.now t) →
    ∃ u, exec i s = .next u ∧ ClockAt t s u ∧ Consumed src.toNat msg s u ∧ Counted FP_LATE_REPLY s u ∧ OnlyRegs [FP_LATE_REPLY] s u ∧
      OnlyParts [.ctl, .regs, .fab] s u) ∧
  (∀ (i : Instr) (src : BitVec 15) (msg : List Byte) (t : Nat) (x : Xchg) (c : Cmd) (s : State), s.ctl.life = .alive →
    ((i = .readReply src msg t ∧ mType msg = 0x81) ∨ (i = .poolReply src msg t ∧ mType msg = 0x82)) → s.inTurn src.toNat msg = true →
    s.xchg? src.toNat (mXid msg) = some x → x.kind = .bundle → s.cmd? x.handle = some c → max s.ctl.now t ≤ c.deadline →
    let d := Desc.of c.desc
    let a := s.advance t
    let st := mStatus msg
    (st ≠ 0 → st ≠ 0xF0 →
      let s1 := (a.dropXchg x.xid).upCmd x.handle (fun c => { c with events := c.events ++ [(replyEvent d.degr st, x.dst)] })
      exec i s = .next ((s1.runCmd x.handle).take src.toNat msg)) ∧
    (∀ j row bad, st = 0 → i = .readReply src msg t → readRows x.msg = [j] → c.got = [] →
      replyRows (d.stride (s.verFmt d.tbl c.ver).dim) (msg.drop 16) = [(row, bad)] → leAt (msg.drop 16) 4 1 = 0 →
      let s1 := (a.upCmd x.handle (fun c => { c with got := [(x.dst, j, row, bad)] })).dropXchg x.xid
      exec i s = .next ((s1.runCmd x.handle).take src.toNat msg)) ∧
    (st = 0 → i = .poolReply src msg t → c.parts = [] →
      let ps := replyParts x.dst x.xid (s.verFmt d.tbl c.ver).dim d.comp (leAt (msg.drop 16) 0 4) ((msg.drop 16).drop 16)
      (msgBags x.msg).all (fun b => ps.any (fun q => q.xid == x.xid && q.bag == b.1)) = true →
      let s1 := (a.upCmd x.handle (fun c => { c with parts := ps })).dropXchg x.xid
      exec i s = .next ((s1.runCmd x.handle).take src.toNat msg))) ∧
  (∀ (h : Handle) (t : Nat) (c : Cmd) (s : State), s.ctl.life = .alive → s.cmd? h.toNat = some c →
    (t < c.deadline → exec (.remoteCutoff h t) s = .next s) ∧
    (∀ b bs, c.deadline ≤ t → c.phase = .waiting →
      (s.fab.xchg.filter (fun x => x.handle == c.handle && (match x.kind with | .listRead _ => true | _ => false))).map (fun x => x.dst) = b :: bs →
      Quiet (s.finish c.handle sOk) → s.tab.addWaits = [] →
      ∃ u, exec (.remoteCutoff h t) s = .next u ∧ u.ctl.now = max s.ctl.now t ∧
        u.cmd? h.toNat = some { c with failblk := bs.foldl min b, status := sTimeout, phase := .done } ∧ OnlyCmd h s u ∧
        OnlyParts [.ctl, .regs, .mem, .poison, .cmds, .tab, .cache, .fab, .tu, .spine] s u ∧
        ((Desc.of c.desc).isRead = false ∨ c.inl = true → ClockAt t s u ∧ OnlyParts [.ctl, .cmds, .tab, .fab, .tu] s u)))

/-- Adds, doorbells and register accesses from other blocks. An ADD with context 0 is denied, one whose identifier is in the recent-add log
only counts as a duplicate, and one to a row held here is applied as `applyRow` says, logged and acknowledged. An ADD_ACK clears the adds that it
answers from the journal. Identifiers leave the log after 2 s. A DOORBELL in order, from REQ_BLOCK, brings slots and moves the tail; another
adds 1 to DB_ERR. A REG message at level 0 is denied, a write of a level that may write registers is taken, and a repeat is answered from the
store, whose entries leave after 2 s; a reply to one is discarded. -/
def Obligations.AddsDoorbellsAndRegisters : Prop :=
  (∀ (src : BitVec 15) (msg : List Byte) (t lane : Nat) (s : State), s.ctl.life = .alive → s.tab.addWaits = [] →
    Requested src.toNat 0x03 msg lane s →
    let ack := fun n drops fl tail => mkMsg 0x83 0 (mHandle msg) (mXid msg) (leBytes 2 n ++ leBytes 2 drops ++ leBytes 1 fl ++ zeros 3 ++ tail)
    ∃ u, exec (.add src msg t) s = .next u ∧ Consumed src.toNat msg s u ∧
      (leAt msg 22 2 = 0 → u.mem = s.mem ∧ u.tab = s.tab ∧ Posted src.toNat lane (mkMsg 0x83 sDenied (mHandle msg) (mXid msg)
        (leBytes 2 0 ++ leBytes 2 (addsOf msg).length ++ zeros 4 ++
          ((addsOf msg).map (fun a => leBytes 8 a.row ++ leBytes 1 sDenied ++ zeros 7)).flatten)) u) ∧
      (∀ a r, leAt msg 22 2 ≠ 0 → addsOf msg = [a] → s.rec? a.tbl = some r → ctxDenied r (leAt msg 22 2) false = false → a.tbl = leAt msg 16 3 →
        s.recentAdd a = true → u.mem = s.mem ∧ u.tab.recent = s.tab.recent ∧ Posted src.toNat lane (ack 1 0 0 []) u) ∧
      (∀ a r v x fl, leAt msg 22 2 ≠ 0 → addsOf msg = [a] → s.rec? a.tbl = some r → ctxDenied r (leAt msg 22 2) false = false →
        a.tbl = leAt msg 16 3 → s.recentAdd a = false → s.verRetired r a.ver = false → s.ver? a.tbl a.ver = some v →
        s.group? a.tbl v.ver (a.row / 4096) = some x → x.secondary = false → s.tierOut x.tier = false → x.leaving = false →
        x.moving = none → (s.pentry v.pmap x.g).repl = false → x.tbl = a.tbl → x.ver = v.ver → v.ver = a.ver → r.ordered = false →
        let s1 := ((s.advance t).openWait { id := 0, src := src.toNat, lane := lane, xid := mXid msg, handle := mHandle msg, commit := false
                                            napplied := 0, drops := [], findings := 0, left := 0, due := max s.ctl.now t + leAt msg 32 4 * ns }).2
        let p := s1.applyRow r x (if a.plain || r.recipe == 0 then 0 else r.recipe) a.row a.kcmd a.origin 0 s.remotePart false a.val
        p.2 = some fl → p.1.pentry v.pmap x.g = s.pentry v.pmap x.g →
        u.mem = p.1.mem ∧ u.tab.recent = s.tab.recent ++ [(a.origin, a.handle, a.row, max s.ctl.now t)] ∧
        Posted src.toNat lane (ack 1 0 fl.toByte []) u)) ∧
  (∀ (src : BitVec 15) (msg : List Byte) (t : Nat) (x : Xchg) (s : State), s.ctl.life = .alive → Quiet s → mType msg = 0x83 →
    s.inTurn src.toNat msg = true → s.xchg? src.toNat (mXid msg) = some x → x.kind = .add → mStatus msg = 0 → leAt msg 18 2 = 0 →
    (∀ j ∈ s.tab.journal, j.xid = x.xid → j.owner = src.toNat → j.wait = none) →
    ∃ u, exec (.addAck src msg t) s = .next u ∧ ClockAt t s u ∧ Consumed src.toNat msg s u ∧
      u.tab = { s.tab with journal := s.tab.journal.filter (fun j => !(j.xid == x.xid && j.owner == src.toNat)) } ∧
      u.fab.xchg = s.fab.xchg.filter (fun y => y.xid != x.xid) ∧ OnlyRegs [MT_JOURNAL_USED] s u ∧
      OnlyParts [.ctl, .regs, .cmds, .tab, .fab] s u) ∧
  (∀ (t : Nat) (s : State), s.ctl.life = .alive → s.tab.addWaits = [] →
    ∃ u, exec (.recentAddLogExpiry t) s = .next u ∧ ClockAt t s u ∧
      u.tab = { s.tab with recent := s.tab.recent.filter (fun e => decide (max s.ctl.now t < e.2.2.2 + 2 * Sys2Proof.sec)) } ∧
      OnlyParts [.ctl, .tab] s u) ∧
  (∀ (src : BitVec 15) (msg : List Byte) (t : Nat) (s : State), s.ctl.life = .alive → mType msg = 0x06 → s.inTurn src.toNat msg = true →
    s.isFailed src.toNat = false →
    let n := leAt msg 16 1
    let tail := leAt msg 20 4
    let k := leAt msg 28 2
    let m := 2 ^ (s.sqLog n + 1)
    let r := s.ring n
    let good := s.ringState n = 1 ∧ s.remoteRing n = true ∧ s.reqBlock n = src.toNat ∧ leAt msg 24 4 = r.tail % 2 ^ s.sqLog n ∧ k ≤ 511 ∧
      msg.length = 32 + 128 * k ∧ s.tailOk n tail = true ∧ tail = (r.tail + k) % m
    n < 64 →
    ∃ u, exec (.remoteDoorbell src msg t) s = .next u ∧ ClockAt t s u ∧ Consumed src.toNat msg s u ∧
      (good → k ≠ 0 → u.ring n = { r with
          tail := tail, bells := r.bells ++ [(tail, max s.ctl.now t)]
          slots := r.slots ++ (List.range k).map (fun j => ((r.tail + j) % m, (msg.drop (32 + 128 * j)).take 128)) } ∧
        OnlyRing n s u ∧ OnlyParts [.ctl, .rings, .fab] s u) ∧
      (¬ good → u.fld (RF_STATUS n) 10 16 = min (s.fld (RF_STATUS n) 10 16 + 1) 0xFFFF ∧ OnlyField (RF_STATUS n) 10 16 s u ∧
        OnlyRegs [RF_STATUS n] s u ∧ OnlyParts [.ctl, .regs, .fab] s u)) ∧
  (∀ (src : BitVec 15) (msg : List Byte) (t lane : Nat) (s : State), s.ctl.life = .alive → Requested src.toNat 0x07 msg lane s →
    ∃ u, exec (.reg src msg t) s = .next u ∧ Consumed src.toNat msg s u ∧
      (∀ x, s.fab.regReplies.find? (fun x => x.1 == src.toNat && x.2.1 == mXid msg &&
          decide (max s.ctl.now t < x.2.2.2 + 2 * Sys2Proof.sec)) = some x →
        Posted src.toNat lane x.2.2.1 u ∧ u.fab.regReplies = s.fab.regReplies ∧ (StillOpening src.toNat lane s → u.regs = s.regs)) ∧
      ((∀ x ∈ s.fab.regReplies, x.1 ≠ src.toNat) → leAt msg 16 4 = 1 → msg.length = 48 →
        let e := msg.drop 32
        let reply := fun st out => mkMsg 0x87 st (mHandle msg) (mXid msg) ((msg.drop 16).take 16 ++ out)
        (s.raLevel src.toNat = 0 → Posted src.toNat lane (reply sDenied e) u ∧ (StillOpening src.toNat lane s → OnlyRegs [FP_RA_DENY] s u)) ∧
        (2 ≤ s.raLevel src.toNat → leAt e 4 1 ≠ 1 → leAt e 5 1 = 1 → leAt e 0 4 % 8 = 0 → leAt e 0 4 < 2 ^ 20 → s.fwReady = true →
          byFieldsAlone s (leAt e 0 4) = true → Posted src.toNat lane (reply 0 e) u ∧
          (StillOpening src.toNat lane s → FieldsTaken (leAt e 0 4) (leAt e 8 8) s u)) ∧
        (2 ≤ s.raLevel src.toNat → leAt e 4 1 ≠ 1 → leAt e 5 1 ≠ 1 → leAt e 0 4 % 8 = 0 → ringOfOff (leAt e 0 4) = none →
          leAt e 0 4 ≠ TT_UPTIME →
          Posted src.toNat lane (reply 0 (e.take 8 ++ leBytes 8 (s.readReg (leAt e 0 4)))) u ∧
          (StillOpening src.toNat lane s → u.regs = s.regs)))) ∧
  (∀ (src : BitVec 15) (msg : List Byte) (s : State), s.ctl.life = .alive → mType msg = 0x87 → s.inTurn src.toNat msg = true →
    ∃ u, exec (.regReply src msg) s = .next u ∧
      u.fab = { s.fab with inbox := s.fab.inbox.eraseP (fun m => m.src == src.toNat && m.bytes == msg) } ∧ OnlyParts [.fab] s u) ∧
  (∀ (t : Nat) (s : State), s.ctl.life = .alive →
    ∃ u, exec (.regReplyRetentionExpiry t) s = .next u ∧ ClockAt t s u ∧
      u.fab = { s.fab with regReplies := s.fab.regReplies.filter (fun x => decide (t < x.2.2.2 + 2 * Sys2Proof.sec)) } ∧
      OnlyParts [.ctl, .fab] s u)

/-- Memory accesses and echoes of other blocks, in turn and not held back. MEM_READ of a tier that a window lets through is answered with
the bytes, and MEM_WRITE writes them before its acknowledgement, or finds the tier out of service; an address outside this block's memory
gives TRANSLATION_FAULT, before context 0 is denied, and neither changes a byte. Their replies go to what waits for them. ECHO is returned
unchanged to a source of level 1 or more. A request of a block held FAILED changes nothing but what is sent. -/
def Obligations.MemoryMessagesAndEchoes : Prop :=
  (∀ (src : BitVec 15) (msg : List Byte) (lane : Nat) (s : State), s.ctl.life = .alive → Requested src.toNat 0x09 msg lane s →
    s.memHeld msg false = false →
    let a := leAt msg 16 8
    let n := leAt msg 24 4
    let ctx := leAt msg 28 2
    let reply := fun st bs => Posted src.toNat lane (mkMsg 0x89 st (mHandle msg) (mXid msg) (leBytes 8 a ++ leBytes 4 n ++ zeros 4 ++ bs))
    ∃ u, exec (.memRead src msg) s = .next u ∧ Consumed src.toNat msg s u ∧ u.mem = s.mem ∧
      (65504 < n → reply sTransFault [] u) ∧
      (n ≤ 65504 → gBlock a ≠ s.id ∨ s.addressOk a n = false → reply sTransFault [] u) ∧
      (n ≤ 65504 → gBlock a = s.id → s.addressOk a n = true → ctx = 0 → reply sDenied [] u) ∧
      (n ≤ 65504 → gBlock a = s.id → ctx ≠ 0 → gTier a < 3 → s.addressOk a n = true → s.windowOk ctx (gTier a) (gOff a) n false = true →
        s.tierReadOk (gTier a) (gOff a) n = true → reply 0 (s.bytesAt (memKey (gTier a) (gOff a)) n) u) ∧
      OnlyParts [.regs, .tab, .cache, .fab, .tu, .sec] s u) ∧
  (∀ (src : BitVec 15) (msg : List Byte) (lane : Nat) (s : State), s.ctl.life = .alive → Sound s → Requested src.toNat 0x0A msg lane s →
    s.memHeld msg true = false →
    let a := leAt msg 16 8
    let n := leAt msg 24 4
    let ctx := leAt msg 28 2
    let ack := fun st => Posted src.toNat lane (mkMsg 0x8A st (mHandle msg) (mXid msg) [])
    ∃ u, exec (.memWrite src msg) s = .next u ∧ Consumed src.toNat msg s u ∧
      (65504 < n ∨ msg.length ≠ 32 + n ∨ gBlock a ≠ s.id ∨ s.addressOk a n = false → ack sTransFault u ∧ u.mem = s.mem) ∧
      (n ≤ 65504 → msg.length = 32 + n → gBlock a = s.id → s.addressOk a n = true → ctx = 0 → ack sDenied u ∧ u.mem = s.mem) ∧
      (n ≤ 65504 → msg.length = 32 + n → gBlock a = s.id → ctx ≠ 0 → gTier a < 3 → s.addressOk a n = true →
        s.windowOk ctx (gTier a) (gOff a) n true = true → s.tierOut (gTier a) = true → ack sUncorr u ∧ u.mem = s.mem) ∧
      (n ≤ 65504 → msg.length = 32 + n → gBlock a = s.id → ctx ≠ 0 → gTier a < 3 → s.addressOk a n = true →
        s.windowOk ctx (gTier a) (gOff a) n true = true → s.tierOut (gTier a) = false →
        ack 0 u ∧ u.bytesAt (memKey (gTier a) (gOff a)) n = msg.drop 32 ∧ OnlyBytes (memKey (gTier a) (gOff a)) n s u)) ∧
  (∀ (src : BitVec 15) (msg : List Byte) (t a : Nat) (x : Xchg) (s : State), s.ctl.life = .alive → mType msg = 0x89 → s.inTurn src.toNat msg = true →
    s.xchg? src.toNat (mXid msg) = some x → x.kind = .listRead a → mStatus msg = 0 →
    let s1 := ((s.advance t).dropXchg x.xid).upCmd x.handle (fun c => { c with fetched := insertBy a (msg.drop 32) c.fetched })
    exec (.memReadReply src msg t) s = .next ((s1.runCmd x.handle).take src.toNat msg)) ∧
  (∀ (src : BitVec 15) (msg : List Byte) (n : Nat) (x : Xchg) (s : State), s.ctl.life = .alive → mType msg = 0x8A → s.inTurn src.toNat msg = true →
    s.xchg? src.toNat (mXid msg) = some x → (x.kind = .update ∨ x.kind = .ringWrite n) →
    ∃ u, exec (.memWriteAck src msg) s = .next u ∧ Consumed src.toNat msg s u ∧
      (mStatus msg = 0 ∨ x.kind = .update → u.fab.xchg = s.fab.xchg.filter (fun y => y.xid != x.xid)) ∧
      (mStatus msg = 0 → u.regs = s.regs ∧ OnlyParts [.fab] s u) ∧
      (mStatus msg ≠ 0 → x.kind = .update → Counted FP_MEMW_FAIL s u ∧ OnlyRegs [FP_MEMW_FAIL] s u ∧ OnlyParts [.regs, .fab] s u) ∧
      (mStatus msg ≠ 0 → x.kind = .ringWrite n → Quiet s → n < 64 → s.ringState n = 1 ∨ s.ringState n = 2 →
        Counted FP_MEMW_FAIL s u ∧ u.ringState n = 3 ∧ OnlyRegs [FP_MEMW_FAIL, RF_STATUS n] s u)) ∧
  (∀ (src : BitVec 15) (msg : List Byte) (lane : Nat) (s : State), s.ctl.life = .alive → Requested src.toNat 0x0B msg lane s →
    ∃ u, exec (.echo src msg) s = .next u ∧ Consumed src.toNat msg s u ∧
      (s.raLevel src.toNat ≠ 0 → Posted src.toNat lane (mkMsg 0x8B 0 (mHandle msg) (mXid msg) (msg.drop 16)) u) ∧
      (s.raLevel src.toNat = 0 → OnlyParts [.fab] s u ∧ u.fab.flows = s.fab.flows) ∧ OnlyParts [.regs, .fab, .sec] s u) ∧
  (∀ (src : BitVec 15) (msg : List Byte) (t off : Nat) (x : Xchg) (s : State), s.ctl.life = .alive → mType msg = 0x8B → s.inTurn src.toNat msg = true →
    s.xchg? src.toNat (mXid msg) = some x → x.kind = .echo off →
    (∃ y ∈ s.fab.xchg, y.xid ≠ x.xid ∧ y.handle = x.handle ∧ ∃ o, y.kind = .echo o) →
    let sent := x.msg.drop 16
    ∃ u, exec (.echoReply src msg t) s = .next u ∧ ClockAt t s u ∧ Consumed src.toNat msg s u ∧
      (∀ b, s.fab.lb = [b] → b.handle = x.handle → ∃ b2, u.fab.lb = [b2] ∧ b2.bytes = b.bytes + sent.length ∧ b2.stage = b.stage ∧
        (fitTo sent.length (msg.drop 16) = sent → b2.errs = b.errs ∧ b2.first = b.first)) ∧
      u.fab.xchg = s.fab.xchg.filter (fun y => y.xid != x.xid) ∧ OnlyParts [.ctl, .fab] s u) ∧
  (∀ (i : Instr) (src : BitVec 15) (msg : List Byte) (code : Nat) (s : State), requestOf i = some (src, msg, code) → mType msg = code →
    s.ctl.life = .alive → s.isFailed src.toNat = true → s.inTurn src.toNat msg = true →
    (code = 0x09 ∨ code = 0x0A → s.memHeld msg (code == 0x0A) = false) →
    ∃ u, exec i s = .next u ∧ Consumed src.toNat msg s u ∧ OnlyParts [.ctl, .regs, .fab, .sec] s u)

-- Table Keeper (12)

/-- Requests on the registry. One of a block held FAILED changes no table; one whose registry list differs is refused, and REG_ERR is set.
An entry is fetched, and an unmapped group is mapped at its assigned owner; a table that is not held is a bad table. RECORD_FETCH answers the record and adds
the asking block to the holder set. UPDATE takes its value and is acknowledged; that of a table being destroyed waits for the commands that
name it and for its adds. RELEASED lets the source free its copy and its residency entry. -/
def Obligations.RegistryRequestsAreServed : Prop :=
  (∀ (i : Instr) (h : TkHdr) (b : TkBody) (s : State), tkRequestOf i = some (h, b) → s.ctl.life = .alive → s.tkInTurn h b = true →
    s.isFailed h.src = true →
    ∃ u, exec i s = .next u ∧ TkTaken h b s u ∧ OnlyParts [.ctl, .regs, .fab, .sec] s u) ∧
  (∀ (i : Instr) (h : TkHdr) (b : TkBody) (s : State), tkRequestOf i = some (h, b) → s.ctl.life = .alive → s.tkInTurn h b = true →
    s.isFailed h.src = false → registryCode (tkCode b).1 = true → h.list ≠ s.registryList → CanPost h.src h.lane s →
    ∃ u, exec i s = .next u ∧ TkTaken h b s u ∧ TkAnswered h b sUnreach (.status sUnreach 0xFFFF) s u ∧
      (StillOpening h.src h.lane s → u.flag TK_STATUS 3 = true ∧ OnlyField TK_STATUS 3 1 s u ∧ OnlyRegs [TK_STATUS] s u) ∧
      OnlyParts [.ctl, .regs, .fab, .sec] s u) ∧
  (∀ (h : TkHdr) (tbl ver g : Nat) (s : State), Quiet s →
    let b := TkBody.entryFetch tbl ver g
    TkRequested h b s →
    ∃ u, exec (.claim h b) s = .next u ∧ TkTaken h b s u ∧ (∀ x, s.ver? tbl ver = some x → TkAnswered h b 0 (.entry (s.pentry x.pmap g)) s u) ∧
      (s.ver? tbl ver = none → TkAnswered h b sBadTable (.status sBadTable 0xFFFF) s u) ∧ u.tab = s.tab ∧ OnlyParts [.regs, .tab, .fab, .sec] s u) ∧
  (∀ (h : TkHdr) (tbl ver g : Nat) (r : TableRec) (x : Version) (s : State), Quiet s → Sound s → NoFollowers tbl s →
    let b := TkBody.mapReq tbl ver g
    TkRequested h b s → s.rec? tbl = some r → s.ver? tbl ver = some x → s.group? tbl ver g = none → (s.pentry x.pmap g).state = pUnmapped →
    let e : PEntry := { owner := r.assigned g, tier := r.otier, repl := false, state := pResident, epoch := (s.pentry x.pmap g).epoch }
    r.repl2 = false → e.owner ≠ s.id → e.fits →
    ∃ u, exec (.claim h b) s = .next u ∧ TkTaken h b s u ∧ TkAnswered h b 0 (.entry e) s u ∧ u.pentry x.pmap g = e ∧
      OnlyBytes (gKey x.pmap + 4 * g) 4 s u ∧ u.tab = s.tab) ∧
  (∀ (h : TkHdr) (b : TkBody) (tbl : Nat) (s : State), Quiet s → TkRequested h b s → h.src ≠ s.id → s.rec? tbl = none →
    (b = .release tbl ∨ (∃ n f, b = .publishReq tbl n f) ∨ (∃ v, b = .switchReq tbl v) ∨ ∃ v g n d y, b = .migrateReq tbl v g n d y) →
    ∃ u, exec (.claim h b) s = .next u ∧ TkTaken h b s u ∧ TkAnswered h b sBadTable (.status sBadTable 0xFFFF) s u ∧ u.tab = s.tab ∧
      OnlyParts [.regs, .tab, .fab, .sec] s u) ∧
  (∀ (h : TkHdr) (tbl : Nat) (a : CreateArgs) (s : State), Quiet s → TkRequested h (.claim tbl a) s → h.src ≠ s.id →
    (s.createCheck tbl a h.src).1 ≠ sOk →
    let st := (s.createCheck tbl a h.src).1
    ∃ u, exec (.claim h (.claim tbl a)) s = .next u ∧ TkTaken h (.claim tbl a) s u ∧ TkAnswered h (.claim tbl a) st (.status st 0xFFFF) s u ∧
      u.tab = s.tab ∧ OnlyParts [.regs, .tab, .fab, .sec] s u) ∧
  (∀ (h : TkHdr) (tbl : Nat) (s : State), TkRequested h (.recordFetch tbl) s →
    ∃ u, exec (.recordFetch h tbl) s = .next u ∧ TkTaken h (.recordFetch tbl) s u ∧ OnlyParts [.regs, .tab, .fab, .sec] s u ∧
      ((∀ r, s.rec? tbl = some r → r.dying = true ∨ s.coordinator tbl ≠ some s.id) → u.tab = s.tab ∧
        TkAnswered h (.recordFetch tbl) sBadTable (.status sBadTable 0xFFFF) s u) ∧
      (∀ r, s.rec? tbl = some r → r.dying = false → s.coordinator tbl = some s.id →
        let s1 := s.upReg tbl (fun e => { e with holders := addOnce h.src e.holders })
        s1.mirrorOf tbl = none ∨ s1.mirrorOf tbl = some s.id →
        u.tab = s1.tab ∧ TkAnswered h (.recordFetch tbl) 0 (.record (s1.recordData r)) s u)) ∧
  (∀ (h : TkHdr) (v : TkUpdate) (s : State), Quiet s → TkRequested h (.update v) s →
    ∃ u, exec (.update h v) s = .next u ∧ TkTaken h (.update v) s u ∧
      (∀ tbl l, v = .owners tbl l → u.tab = (s.upRec tbl (fun r => { r with owners := l })).tab ∧ TkAnswered h (.update v) 0 .ok s u ∧
        OnlyParts [.regs, .tab, .fab, .sec] s u) ∧
      (∀ tbl g b, v = .replica tbl g b → s.secondaryOf tbl g ≠ some s.id ∨ b = s.id → u.tab = (s.upReg tbl (fun e => { e with replicas := insertBy g b e.replicas })).tab ∧
        TkAnswered h (.update v) 0 .ok s u ∧ OnlyParts [.regs, .tab, .fab, .sec] s u) ∧
      (∀ tbl id phase count kind from_ handle xid, v = .op tbl id phase count kind from_ handle xid →
        u.tab = { s.tab with mirrorOps := s.tab.mirrorOps.filter (fun o => !(o.tbl == tbl && o.id == id)) ++
          [{ id := id, tbl := tbl, kind := kind, phase := phase, waiting := [], from_ := from_, handle := handle, xid := xid, ok := true
             count := count }] } ∧ TkAnswered h (.update v) 0 .ok s u ∧ OnlyParts [.regs, .tab, .fab, .sec] s u) ∧
      (∀ tbl, v = .destroyBegin tbl →
        let dying := (s.upRec tbl (fun r => { r with dying := true })).tab
        (s.naming tbl = false → (∀ j ∈ s.tab.journal, j.tbl ≠ tbl) → u.tab = dying ∧ TkAnswered h (.update v) 0 .ok s u) ∧
        (s.naming tbl = true ∨ (∃ j ∈ s.tab.journal, j.tbl = tbl) → u.tab = { dying with owed := [(h, .destroy tbl)] } ∧ u.fab.flows = s.fab.flows ∧ u.regs = s.regs) ∧
        OnlyParts [.regs, .tab, .fab, .sec] s u) ∧
      (∀ tbl ver g e x, v = .entry tbl ver g e → Sound s → s.tab.journal = [] → s.coordinator tbl ≠ some s.id → s.ver? tbl ver = some x →
        e.fits → e.owner ≠ s.id → e.state = pResident → e.repl = false → (s.pentry x.pmap g).state ≠ pMigrating →
        e.epoch = (s.pentry x.pmap g).epoch ∨ e.epoch = ((s.pentry x.pmap g).epoch + 1) % 1024 →
        u.pentry x.pmap g = e ∧ OnlyBytes (gKey x.pmap + 4 * g) 4 s u ∧ TkAnswered h (.update v) 0 .ok s u ∧
        (s.group? tbl ver g = none → u.tab = s.tab) ∧
        (∀ y, (s.rec? tbl).isSome = true → s.group? tbl ver g = some y → y.secondary = false →
          u.group? tbl ver g = some { y with leaving := true, moving := none }))) ∧
  (∀ (h : TkHdr) (tbl ver g : Nat) (s : State), TkAtHand h (.released tbl ver g) s → Quiet s →
    ∃ u, exec (.released h tbl ver g) s = .next u ∧ TkTaken h (.released tbl ver g) s u ∧
      ((∀ x, s.group? tbl ver g = some x → x.leaving = false) → OnlyParts [.fab] s u) ∧
      (∀ x, s.group? tbl ver g = some x → x.leaving = true → Sound s →
        let n := groupBytes (s.verFmt tbl ver) (((s.rec? tbl).map (fun r => r.recipe)).getD 0)
        u.tab.groups = s.tab.groups.filter (fun z => !(z.tbl == tbl && z.ver == ver && z.g == g)) ∧
        u.tab.slots = s.tab.slots.filter (fun z => !(z.tbl == tbl && z.ver == ver && z.row / 4096 == g)) ∧
        u.tab.extents = (s.tab.extents.filter (fun e => !(e.1 == x.tier && e.2.1 == x.base))).filter (fun e => !(e.1 == 0 && e.2.1 == x.res)) ∧
        (∀ k, memKey x.tier x.base ≤ k ∧ k < memKey x.tier x.base + n → u.byteAt k = 0#8) ∧
        OnlyBytes (memKey x.tier x.base) n s u ∧ OnlyRegs [MT_ORD_POOL_USED] s u))

/-- Versions, storage, commits and copies. A holder makes a publish or a switch visible in one write and acknowledges; Prepare and Retire wait for
the commands that they concern. RESERVE takes storage or slots when there is room, and is refused otherwise; a group's destination gets
zeroed storage and a residency entry. COMMIT applies each held partial of a group once per step and answers the number of rows. A copy's bytes
are stored as sent, in a group that is held here, unless its tier is out of service; the mirrored partials that a commit has taken go. -/
def Obligations.VersionsStorageAndCopiesAreServed : Prop :=
  (∀ (h : TkHdr) (p : VPhase) (tbl ver : Nat) (s : State), Quiet s → TkRequested h (.versionPhase p tbl ver) s →
    let ack := TkAnswered h (.versionPhase p tbl ver) 0 .ok s
    ∃ u, exec (.versionPhase h p tbl ver) s = .next u ∧ TkTaken h (.versionPhase p tbl ver) s u ∧
      (∀ r, p = .publish ∨ p = .switch → s.rec? tbl = some r → r.tbl = tbl →
        (r.loc = none → OnlyParts [.regs, .tab, .fab, .sec] s u) ∧
        (∀ a, r.loc = some a → Sound s → OnlyBytes (memKey 0 a) 64 s u ∧
          ∀ r2, u.rec? tbl = some r2 → p = .publish ∨ r.pubVer ≠ 0 → u.bytesAt (memKey 0 a) 64 = u.recordBytes r2)) ∧
      (p = .publish → ack u ∧ OnlyParts [.regs, .mem, .poison, .tab, .cache, .fab, .sec, .spine] s u ∧
        u.tab = ((s.upVer tbl ver (fun x => { x with st := .published })).upRec tbl (fun r => { r with pubVer := ver })).tab) ∧
      (∀ r, p = .switch → s.rec? tbl = some r → r.pubVer ≠ 0 → ack u ∧ OnlyParts [.regs, .mem, .poison, .tab, .cache, .fab, .sec, .spine] s u ∧
        u.rec? tbl = some { r with curVer := r.pubVer, pubVer := 0 } ∧
        (∀ v, u.ver? tbl v = (s.ver? tbl v).map (fun x =>
          let st := if v = r.pubVer then .current else if v = r.curVer ∧ v ≠ 0 then .retired else x.st
          { x with st := st })) ∧
        (∀ k v, k ≠ tbl → u.rec? k = s.rec? k ∧ u.ver? k v = s.ver? k v)) ∧
      (p = .prepare → OnlyParts [.regs, .tab, .fab, .sec] s u ∧ (s.oldBackward tbl = false → ack u ∧ u.tab = s.tab) ∧
        (s.oldBackward tbl = true → u.tab = { s.tab with owed := [(h, .prepare tbl)] } ∧ u.fab.flows = s.fab.flows ∧ u.regs = s.regs)) ∧
      (p = .retire → OnlyParts [.regs, .tab, .fab, .sec] s u ∧ (s.boundTo tbl ver = false → ack u ∧ u.tab = s.tab) ∧
        (s.boundTo tbl ver = true → u.tab = { s.tab with owed := [(h, .retire tbl ver)] } ∧ u.fab.flows = s.fab.flows ∧ u.regs = s.regs)) ∧
      (p = .free ∨ p = .publishAbort → s.ver? tbl ver = none → ack u ∧
        u.tab = { s.tab with rsv := s.tab.rsv.filter (fun z => !(z.1 == tbl && z.2.1 == ver)) }) ∧
      (p = .publishReserve → s.rec? tbl = none → u.tab = s.tab ∧
        TkAnswered h (.versionPhase p tbl ver) sBadTable (.status sBadTable 0xFFFF) s u)) ∧
  (∀ (h : TkHdr) (tbl tier n : Nat) (s : State), TkRequested h (.reserveStorage tbl tier n) s →
    let b := TkBody.reserveStorage tbl tier n
    ∃ u, exec (.reserve h b) s = .next u ∧ TkTaken h b s u ∧ OnlyParts [.regs, .tab, .fab, .sec] s u ∧
      (n ≠ 0 → n ≤ s.room tier → (∀ r ∈ s.tab.rsv, ¬ (r.1 = tbl ∧ r.2.1 = 1 ∧ r.2.2.1 = tier)) →
        u.tab = { s.tab with rsv := s.tab.rsv ++ [(tbl, 1, tier, n)] } ∧ TkAnswered h b 0 .ok s u) ∧
      (s.room tier < n → (∀ r ∈ s.tab.rsv, ¬ (r.1 = tbl ∧ r.2.1 = 1 ∧ r.2.2.1 = tier)) →
        u.tab = s.tab ∧ TkAnswered h b sBadTable (.status sBadTable 0xFFFF) s u)) ∧
  (∀ (h : TkHdr) (tbl ver handle nel row : Nat) (plain : Bool) (s : State), TkRequested h (.reserveSlots tbl ver handle nel [(row, plain)]) s →
    let b := TkBody.reserveSlots tbl ver handle nel [(row, plain)]
    let used := sumOf ((s.tab.slots.filter (fun z => !z.mirror)).map (fun z => slotSize z.nel))
    let size := s.fld MT_ORD_POOL_SIZE 0 46
    (∀ z ∈ s.tab.slots, sameSlot z tbl ver h.src row plain = false) →
    ∃ u, exec (.reserve h b) s = .next u ∧ TkTaken h b s u ∧ OnlyParts [.regs, .tab, .fab, .sec] s u ∧
      (size ≠ 0 → used + slotSize nel ≤ size → s.tierOut 2 = false → TkAnswered h b 0 .ok s u ∧
        (let z : Slot := { tbl := tbl, ver := ver, src := h.src, row := row, plain := plain, nel := nel, val := none
                           users := [(h.src, handle)], mirror := false }
         u.tab = { s.tab with slots := s.tab.slots ++ [z] }) ∧
          (StillOpening h.src h.lane s → OnlyRegs [MT_ORD_POOL_USED] s u)) ∧
      (size = 0 ∨ size < used + slotSize nel ∨ s.tierOut 2 = true → TkAnswered h b sRefused (.status sRefused 0xFFFF) s u ∧ u.tab = s.tab ∧
        (StillOpening h.src h.lane s → Counted MT_ORD_REFUSE s u ∧ OnlyRegs [MT_ORD_REFUSE] s u))) ∧
  (∀ (h : TkHdr) (handle : Nat) (now : Bool) (s : State), TkAtHand h (.releaseSlots handle now) s →
    let me := (h.src, handle)
    let unmark := fun (z : Slot) => if now then { z with users := z.users.filter (· != me) }
      else if z.users.contains me then { z with ended := addOnce me z.ended } else z
    ∃ u, exec (.reserve h (.releaseSlots handle now)) s = .next u ∧ TkTaken h (.releaseSlots handle now) s u ∧
      u.tab = { s.tab with slots := (s.tab.slots.map unmark).filter (fun z => z.mirror || z.val.isSome || !z.users.isEmpty || z.hold.isSome) } ∧
      u.fab.flows = s.fab.flows ∧ OnlyRegs [MT_ORD_POOL_USED] s u ∧
      OnlyParts [.regs, .tab, .fab] s u) ∧
  (∀ (h : TkHdr) (tbl ver g tier base res : Nat) (rebuild : Bool) (r : TableRec) (s s1 s2 : State), Sound s →
    let b := TkBody.groupMove tbl ver g s.id tier rebuild
    TkRequested h b s → s.group? tbl ver g = none → s.rec? tbl = some r → r.recipe ≠ 3 →
    let n := groupBytes (s.verFmt tbl ver) r.recipe
    s.alloc tier n 4096 = some (base, s1) → s1.alloc 0 8 8 = some (res, s2) → r.tbl = tbl →
    let x : Group := { tbl := tbl, ver := ver, g := g, res := res, base := base, tier := tier, secondary := true, leaving := false
                       moving := none, step := none, load := 0 }
    ∃ u, exec (.reserve h b) s = .next u ∧ TkTaken h b s u ∧ TkAnswered h b 0 .ok s u ∧ u.group? tbl ver g = some x ∧
      (∀ k, memKey tier base ≤ k ∧ k < memKey tier base + n → u.byteAt k = 0#8) ∧ u.bytesAt (memKey 0 res) 8 = leBytes 8 x.entry ∧
      (∀ k, ¬ (memKey tier base ≤ k ∧ k < memKey tier base + n) → ¬ (memKey 0 res ≤ k ∧ k < memKey 0 res + 8) → u.byteAt k = s.byteAt k)) ∧
  (∀ (h : TkHdr) (tbl step kcmd leader t : Nat) (s : State), TkRequested h (.commit tbl step kcmd leader) s →
    (∀ x ∈ s.tab.groups, x.tbl = tbl → ∃ n, x.step = some n ∧ step ≤ n) →
    (∀ z ∈ s.tab.slots, z.tbl ≠ tbl ∧ (z.mirror = true ∨ z.val ≠ none ∨ z.users ≠ [] ∨ z.hold ≠ none)) →
    (∀ w ∈ s.tab.addWaits, w.id ≠ s.tab.nextOp) →
    ∃ u, exec (.commit h tbl step kcmd leader t) s = .next u ∧ TkTaken h (.commit tbl step kcmd leader) s u ∧
      TkAnswered h (.commit tbl step kcmd leader) 0 (.commit 0 0) s u ∧ u.mem = s.mem ∧ u.tab.groups = s.tab.groups ∧
      u.tab.slots = s.tab.slots ∧ u.tab.addWaits = s.tab.addWaits) ∧
  (∀ (h : TkHdr) (tbl step kcmd leader t row src nel : Nat) (vals : List F32) (r : TableRec) (x : Group) (v : Version) (s : State),
    TkRequested h (.commit tbl step kcmd leader) s → s.rec? tbl = some r → r.tbl = tbl → s.ver? tbl r.curVer = some v →
    s.tab.groups = [x] → x.tbl = tbl → x.ver = r.curVer → x.tier < 3 → x.secondary = false → x.leaving = false → x.moving = none →
    (∀ n, x.step = some n → n < step) → row / 4096 = x.g → s.tab.addWaits = [] →
    s.tab.slots = [{ tbl := tbl, ver := r.curVer, src := src, row := row, plain := true, nel := nel, val := some vals, users := []
                     mirror := false }] →
    let s1 := (((s.advance t).openWait { id := 0, src := h.src, lane := h.lane, xid := h.xid, handle := h.handle, commit := true, napplied := 0
                                         drops := [], findings := 0, left := 0, due := max s.ctl.now t + 100 * ms }).2).dropUnused tbl
    let sum := ((List.replicate nel 0#32).zip vals).map (fun q => fadd q.1 q.2)
    let p := s1.applyRow r x 0 row kcmd leader 1 s.remotePart true (sum.map (fun q => q.1))
    let fl := (sum.foldl (fun (a : Findings) q => a.or q.2) .none).or (p.2.getD .none)
    (s.pentry v.pmap x.g).repl = false → p.1.pentry v.pmap x.g = s.pentry v.pmap x.g →
    ∃ u y, exec (.commit h tbl step kcmd leader t) s = .next u ∧ TkTaken h (.commit tbl step kcmd leader) s u ∧ u.mem = p.1.mem ∧
      TkAnswered h (.commit tbl step kcmd leader) 0 (.commit 1 fl.toByte) s u ∧ u.tab.slots = [] ∧ u.tab.groups = [y] ∧
      y.step = some step ∧ u.tab.addWaits = []) ∧
  (∀ (i : Instr) (h : TkHdr) (d : CopyData) (b : TkBody) (t : Nat) (s : State), TkRequested h b s →
    ((i = .replicaWrite h d t ∧ b = .replicaWrite d) ∨ (i = .groupCopy h d t ∧ b = .groupCopy d)) →
    ∃ u, exec i s = .next u ∧ TkTaken h b s u ∧
      (s.group? d.tbl d.ver d.group = none → TkAnswered h b 0xF0 (.status 0xF0 0xFFFF) s u ∧ u.tab = s.tab ∧
        OnlyParts [.ctl, .regs, .fab, .sec] s u) ∧
      (∀ x, s.group? d.tbl d.ver d.group = some x → s.tierOut x.tier = true → TkAnswered h b sUncorr (.status sUncorr 0xFFFF) s u ∧
        u.tab = s.tab ∧ OnlyParts [.ctl, .regs, .fab, .sec] s u) ∧
      (∀ x p bs, s.group? d.tbl d.ver d.group = some x → s.tierOut x.tier = false → x.tier < 3 → Sound s → d.rows = [(p, bs)] → d.accs = [] → d.held = [] → d.log = [] →
        let f := s.verFmt d.tbl d.ver
        let k := memKey x.tier (x.rowOff f p)
        TkAnswered h b 0 .ok s u ∧ u.bytesAt k f.size = fitTo f.size bs ∧ OnlyBytes k f.size s u ∧
        (u.group? d.tbl d.ver d.group).map (fun y => y.step) = some (d.step.getD x.step) ∧
        u.tab.slots = s.tab.slots.filter (fun z => !(z.mirror && z.tbl == d.tbl && z.ver == d.ver && d.taken.contains z.row)) ∧
        (i = .groupCopy h d t → (u.group? d.tbl d.ver d.group).map (fun y => y.load) = some (max x.load d.load))))

/-- Loads, failures, moves and replies. A load report replaces the sender's last one. A notice of a failed block sets FAILED and closes its
flows; one that names this block clears VALID and empties its tables. When the last block has reported its redelivery the promoted group is
RESIDENT at its secondary's block. A row held here is read for another home block that may read it. A reply ends the exchange that waits for
it. A group moves within the block in one write, or asks its destination for room. A rebuild clears REPL at first, and waits while its group
moves. At a period's end the counts are halved and TK_LOAD_TOTAL is
set. -/
def Obligations.LoadsFailuresAndMovesAct : Prop :=
  (∀ (h : TkHdr) (r : LoadReport) (s : State), TkAtHand h (.loadReport r) s → h.src ≠ s.id →
    ∃ u, exec (.loadReport h r) s = .next u ∧ TkTaken h (.loadReport r) s u ∧ OnlyParts [.tab, .fab] s u ∧
      u.tab = { s.tab with freeCap := insertBy h.src r.free s.tab.freeCap, loads := (if r.tbl = 0 then s.tab.loads
        else s.tab.loads.filter (fun x => !(x.1 == r.tbl && x.2.1 == h.src)) ++ [(r.tbl, h.src, r.sum, r.hottest)]) }) ∧
  (∀ (h : TkHdr) (x t : Nat) (s : State), TkAtHand h (.failed x) s → Quiet s →
    ∃ u, exec (.failNotice h (.failed x) t) s = .next u ∧ TkTaken h (.failed x) s u ∧ ClockAt t s u ∧
      (x ≠ s.id → s.isFailed x = true → OnlyParts [.ctl, .fab] s u ∧ u.fab.flows = s.fab.flows) ∧
      (x ≠ s.id → s.isFailed x = false → (s.route x).length = 32 → s.tab.recs = [] → (∀ g ∈ s.tab.groups, g.moving ≠ some x) →
        s.fab.stalled = [] → (∀ e ∈ s.tab.registry, e.destroying = false) → (∀ y ∈ s.fab.xchg, y.dst = x → y.kind = .update ∨ y.kind = .declare ∨ y.kind = .query) →
        u.isFailed x = true ∧ u.fab.flows = s.fab.flows.filter (fun f => f.partner != x) ∧ (∀ b, b ≠ x → u.route b = s.route b) ∧
        OnlyRegs [FP_FLOWS_OPEN, TK_STATUS] s u ∧ OnlyParts [.ctl, .regs, .tab, .fab] s u ∧ u.tab = s.tab) ∧
      (x = s.id → u.valid = false ∧ u.flag TK_STATUS 2 = true ∧ u.tab.recs = [] ∧ u.fab.flows = s.fab.flows)) ∧
  (∀ (h : TkHdr) (x t : Nat) (s : State), TkRequested h (.query x) s → Quiet s → s.lead = some h.src →
    ∃ u, exec (.failNotice h (.query x) t) s = .next u ∧ TkTaken h (.query x) s u ∧ TkAnswered h (.query x) 0 (.named (s.namedHere x)) s u ∧
      u.tab = s.tab ∧ OnlyParts [.ctl, .regs, .fab, .sec] s u) ∧
  (∀ (h : TkHdr) (tbl x : Nat) (e : RegEntry) (s : State), TkAtHand h (.redeliverDone tbl x) s → s.reg? tbl = some e →
    let s1 := s.upReg tbl (fun e => { e with redeliver := e.redeliver.filter (· != (h.src, x)) })
    ∃ u, exec (.redeliverDone h tbl x) s = .next u ∧ TkTaken h (.redeliverDone tbl x) s u ∧
      (s.tab.ops = [] ∨ ((∃ q ∈ e.redeliver, q.2 = x ∧ q.1 ≠ h.src) ∧ ∃ o, s.tab.ops = [o] ∧ o.kind = .promotion x ∧ o.waiting = [s.id]) →
        u.tab = s1.tab ∧ OnlyParts [.tab, .fab] s u) ∧
      (∀ o r v g p b, s.tab.ops = [o] → o.tbl = tbl → o.kind = .promotion x → o.phase = 2 → o.waiting = [s.id] → o.ok = true →
        (∀ q ∈ e.redeliver, q.2 = x → q.1 = h.src) → Sound s → NoFollowers tbl s → s.mirrorOf tbl = none → s.rec? tbl = some r →
        s.tab.vers.filter (fun v => v.tbl == tbl) = [v] → (s.mapped r v).filter (fun q => q.2.state == pPromoting && q.2.owner == x) = [(g, p)] →
        s.secondaryOf tbl g = some b → b ≠ s.id → b < 2 ^ 15 → s.group? tbl v.ver g = none →
        u.pentry v.pmap g = { p with owner := b, state := pResident, repl := false, epoch := (p.epoch + 1) % 1024 } ∧
        OnlyBytes (gKey v.pmap + 4 * g) 4 s u ∧ u.tab = { s1.tab with rebuilds := addOnce (tbl, v.ver, g) s.tab.rebuilds, ops := [] } ∧
        Counted TK_PROMOTE s u ∧ OnlyRegs [TK_PROMOTE, MD_MB_FULL] s u)) ∧
  (∀ (h : TkHdr) (tbl ver ctx row : Nat) (s : State), TkRequested h (.rowsRead tbl ver ctx [row]) s → Quiet s →
    let b := TkBody.rowsRead tbl ver ctx [row]
    let denied := ∃ r, s.rec? tbl = some r ∧ ctxDenied r ctx true = true
    let f := s.verFmt tbl ver
    ∃ u, exec (.imagePart h b) s = .next u ∧ TkTaken h b s u ∧ u.mem = s.mem ∧
      (denied → TkAnswered h b sDenied (.status sDenied 0xFFFF) s u ∧ u.tab = s.tab) ∧
      (¬ denied → s.heldRows tbl ver [row] = false → TkAnswered h b 0xF0 (.status 0xF0 0xFFFF) s u ∧ u.tab = s.tab) ∧
      (∀ x, ¬ denied → s.group? tbl ver (row / 4096) = some x → x.secondary = false → x.tier < 3 →
        let off := x.rowOff f (row % 4096)
        s.tierReadOk x.tier off f.size = true → TkAnswered h b 0 (.rows [(row, s.bytesAt (memKey x.tier off) f.size)]) s u)) ∧
  (∀ (h : TkHdr) (b : TkBody) (tbl : Nat) (s : State), TkRequested h b s → Quiet s → s.rec? tbl = none →
    ((∃ v k rows, b = .rowsWrite tbl v k rows) ∨ (∃ v k g d, b = .imageReq tbl v k g d) ∨ ∃ v k g o bs, b = .imagePart tbl v k g o bs) →
    ∃ u, exec (.imagePart h b) s = .next u ∧ TkTaken h b s u ∧ TkAnswered h b 0xF0 (.status 0xF0 0xFFFF) s u ∧ u.mem = s.mem ∧ u.tab = s.tab) ∧
  (∀ (h : TkHdr) (a : TkAnswer) (t : Nat) (s : State), s.ctl.life = .alive → s.xchg? h.src h.xid = none →
    ∃ u, exec (.tkReply h a t) s = .next u ∧ ClockAt t s u ∧ OnlyParts [.ctl, .fab] s u ∧
      u.fab = { s.fab with inbox := s.fab.inbox.eraseP (fun m => m.src == h.src && mXid m.bytes == h.xid && decide (0x90 ≤ mType m.bytes)) }) ∧
  (∀ (h : TkHdr) (a : TkAnswer) (t : Nat) (x : Xchg) (s : State), s.ctl.life = .alive → s.xchg? h.src h.xid = some x →
    s.inTurn h.src (mkMsg (mType x.msg + 0x80) (answerStatus a).1 h.handle h.xid (Config.tkEncodeAnswer h.list a)) = true →
    let others := s.fab.xchg.filter (fun y => y.xid != x.xid)
    (registryCode (mType x.msg) = true → h.list ≠ s.registryList → Quiet s →
      ∃ u, exec (.tkReply h a t) s = .next u ∧ ClockAt t s u ∧ u.fab.xchg = s.fab.xchg ∧ u.flag TK_STATUS 3 = true ∧
        OnlyField TK_STATUS 3 1 s u ∧ OnlyRegs [TK_STATUS] s u ∧ OnlyParts [.ctl, .regs, .fab] s u) ∧
    (x.kind = .update → (registryCode (mType x.msg) = true → h.list = s.registryList) → Quiet s →
      ∃ u, exec (.tkReply h a t) s = .next u ∧ ClockAt t s u ∧ u.fab.xchg = others ∧ OnlyParts [.ctl, .fab] s u) ∧
    (∀ c st blk, x.kind = .ask → (registryCode (mType x.msg) = true → h.list = s.registryList) → s.cmd? x.handle = some c →
      leAt c.desc 0 1 ∈ [oCreate, oDestroy, oPublish, oSwitch, oMigrate] → a = .status st blk → c.endStatus = sOk → Quiet (s.finish x.handle sOk) →
      ∃ u, exec (.tkReply h a t) s = .next u ∧ ClockAt t s u ∧ (∀ y ∈ u.fab.xchg, y ∈ others) ∧
        u.cmd? x.handle = some { c with failblk := blk, faultaddr := 0, status := st, phase := .done } ∧ (∀ k, k ≠ x.handle → u.cmd? k = s.cmd? k) ∧
        OnlyParts [.ctl, .cmds, .tab, .fab, .tu] s u)) ∧
  (∀ (tbl ver g dblk dtier t : Nat) (s : State), s.ctl.life = .alive →
    (Quiet s → ∃ u, exec (.groupMove tbl ver g dblk dtier t) s = .next u ∧ ClockAt t s u ∧ OnlyParts [.ctl] s u) ∧
    (∀ o r rb, s.tab.ops = [o] → o.tbl = tbl → o.phase = 0 → o.kind = .moving ver g dblk dtier rb → s.rec? tbl = some r → s.quiet tbl ver = true →
      Quiet (s.endOp o.id) →
      ∃ u, exec (.groupMove tbl ver g dblk dtier t) s = .next u ∧ ClockAt t s u ∧
        (dblk ≠ s.id → CanPost dblk 0 s → u.tab = { s.tab with ops := [{ o with phase := 1, waiting := [dblk] }] } ∧
          TkSent dblk noHandle.toNat (.groupMove tbl ver g dblk dtier false) s u ∧ OnlyParts [.ctl, .regs, .tab, .fab, .sec] s u) ∧
        (∀ x base s1, dblk = s.id → o.from_ ≠ s.id → CanPost o.from_ 0 s → Sound s → s.group? tbl ver g = some x →
          let n := groupBytes (s.verFmt tbl ver) r.recipe
          let new := memKey dtier base
          let old := memKey x.tier x.base
          let w := memKey 0 x.res
          let y := { x with base := base, tier := dtier }
          s.alloc dtier n 4096 = some (base, s1) → (∀ i j, i < n → j < n → new + i ≠ old + j) →
          (∀ i j, i < n → j < 8 → new + i ≠ w + j ∧ old + i ≠ w + j) →
          u.group? tbl ver g = some y ∧ u.tab.ops = [] ∧ u.bytesAt w 8 = leBytes 8 y.entry ∧
          (∀ i, i < n → u.byteAt (new + i) = s.byteAt (old + i) ∧ u.byteAt (old + i) = 0#8) ∧
          (∀ a, ¬ (new ≤ a ∧ a < new + n) → ¬ (old ≤ a ∧ a < old + n) → ¬ (w ≤ a ∧ a < w + 8) → u.byteAt a = s.byteAt a) ∧
          Posted o.from_ 0 (mkMsg 0x95 0 o.handle o.xid (Config.tkEncodeAnswer s.registryList .ok)) u ∧
          (StillOpening o.from_ 0 s → s.coordinator tbl ≠ some s.id → Counted TK_MIG s u ∧
            OnlyRegs [TK_MIG, MD_MB_FULL, MT_BW x.tier s.tkPart, MT_BW dtier s.tkPart] s u)))) ∧
  (∀ (tbl ver g t : Nat) (s : State), s.ctl.life = .alive → Quiet s →
    ∃ u, exec (.secondaryRebuild tbl ver g t) s = .next u ∧ ClockAt t s u ∧
      ((tbl, ver, g) ∉ s.tab.rebuilds ∨ s.coordinator tbl ≠ some s.id → OnlyParts [.ctl] s u) ∧
      (∀ r x, (tbl, ver, g) ∈ s.tab.rebuilds → s.coordinator tbl = some s.id → s.rec? tbl = some r → s.ver? tbl ver = some x →
        let e := s.pentry x.pmap g
        let t1 := { s.tab with rebuilds := s.tab.rebuilds.filter (· != (tbl, ver, g)) }
        (e.state = pMigrating ∨ e.state = pPromoting → OnlyParts [.ctl] s u) ∧
        (e.state = pUnmapped ∨ e.state = pLost → u.tab = t1 ∧ OnlyParts [.ctl, .tab] s u) ∧
        (e.state = pResident → e.owner ≠ s.id → NoFollowers tbl s → s.group? tbl ver g = none → Sound s →
          u.pentry x.pmap g = { e with repl := false } ∧ OnlyBytes (gKey x.pmap + 4 * g) 4 s u ∧
          (s.nextSecondary r e.owner (groupBytes (s.fmtAt x.fmt) r.recipe) = none → u.tab = s.tab) ∧
          (∀ b, s.nextSecondary r e.owner (groupBytes (s.fmtAt x.fmt) r.recipe) = some b → CanPost e.owner 0 s →
            s.tab.vers.filter (fun z => z.tbl == tbl && z.ver != ver) = [] → s.secondaryOf tbl g ≠ some s.id ∨ b = s.id →
            TkSent e.owner noHandle.toNat (.groupMove tbl ver g b r.otier true) s u ∧
            u.tab.ops = [{ id := s.tab.nextOp, tbl := tbl, kind := .moving ver g b r.otier true, phase := 9, waiting := [e.owner], from_ := s.id
                           handle := noHandle.toNat, xid := 0, ok := true, count := 0 }] ∧
            u.reg? tbl = (s.reg? tbl).map (fun y => { y with replicas := insertBy g b y.replicas }))))) ∧
  (∀ (t : Nat) (s : State), s.ctl.life = .alive → s.tab.addWaits = [] →
    let prim := s.tab.groups.filter (fun g => !g.secondary && !g.leaving)
    ∃ u, exec (.loadPeriodEnd t) s = .next u ∧ ClockAt t s u ∧
      ((∀ b ∈ s.registryList, b = s.id) → s.flag TK_CFG 0 = false →
        u.tab = { s.tab with groups := s.tab.groups.map (fun g => { g with load := g.load / 2 }), loads := [] } ∧
        u.fld TK_LOAD_TOTAL 0 48 = min (sumOf (prim.map (fun g => g.load))) (2 ^ 48 - 1) ∧ OnlyRegs [TK_LOAD_TOTAL] s u ∧
        OnlyParts [.ctl, .regs, .tab] s u) ∧
      (∀ b, s.registryList = [b] → b ≠ s.id → CanPost b 0 s → s.tab.groups = [] → s.tab.recs = [] →
        TkSent b noHandle.toNat (.loadReport { tbl := 0, sum := 0, hottest := [], free := (upTo 3).map s.room }) s u ∧
        u.tab = { s.tab with loads := [] } ∧ u.fld TK_LOAD_TOTAL 0 48 = 0))

-- Tiers (08)

/-- Errors on a tier. A corrected one is counted against its row, which asks for repair at the threshold. One that cannot be corrected poisons its word,
is counted and recorded, and asks for repair; a link that fails every retry poisons its eight words, and the 64th failure within a second of a channel,
or of a Tier S die over all its channels, fails it. A pending repair, at most one in a channel each millisecond and on Tier F and Tier C none beside a
P0 or P1 command of the tier, uses a spare row of Tier S, or the repair log and the device of the others, and is counted as done or failed. -/
def Obligations.TierErrorsAreCountedAndRepaired : Prop :=
  (∀ (tier : Fin 3) (off t : Nat) (e : ReadError) (s : State), s.ctl.life = .alive → s.flag TT_CFG 3 = false →
    let now := max s.ctl.now t
    let row := s.rowOf tier off
    let rows := s.spine.rowErrs.filter (fun x => decide (now < x.2.2 + 86400 * Sys2Proof.sec)) ++ [(tier.val, row, now)]
    let unit := s.unitOf tier off
    let units := s.spine.chanErrs.filter (fun x => decide (now < x.2 + Sys2Proof.sec)) ++ [(unit, now)]
    let ill := s.capacity tier ≤ off ∨ s.tierOut tier = true
    let few := (units.filter (fun x => if tier.val = 0 then x.1 / 64 == unit / 64 else x.1 == unit)).length < 64
    let word := memKey tier off / 8
    ∃ u, exec (.tierReadError tier off e t) s = .next u ∧
      (ill ∨ ((e = .link ∨ e = .linkExhausted) ∧ tier.val = 0) → ClockAt t s u ∧ OnlyParts [.ctl] s u) ∧
      (¬ ill → e = .single → ClockAt t s u ∧ Counted (eccCorr tier) s u ∧ u.spine.rowErrs = rows ∧
        (if s.fld MT_CFG 22 8 ≤ (rows.filter (fun x => x.1 == tier.val && x.2.1 == row)).length
         then u.spine.repairs = addOnce (tier.val, row) s.spine.repairs else u.spine.repairs = s.spine.repairs) ∧
        OnlyRegs [eccCorr tier, NW_STATUS] s u ∧ OnlyParts [.ctl, .regs, .spine] s u) ∧
      (¬ ill → e = .link → tier.val ≠ 0 → ClockAt t s u ∧ Counted (linkRetry tier) s u ∧ OnlyRegs [linkRetry tier] s u ∧
        OnlyParts [.ctl, .regs] s u) ∧
      (¬ ill → e = .uncorrectable → few → ClockAt t s u ∧ u.poison.contains word = true ∧ u.spine.repairs = addOnce (tier.val, row) s.spine.repairs ∧
        u.spine.chanErrs = units ∧ Counted (eccUncorr tier) s u ∧
        (s.poison.contains word = false → FaultNewest (3 + tier) 0x10 (gAddr s.id tier (off / 8 * 8)) u) ∧
        u.mem = s.mem ∧ OnlyRegs (eccUncorr tier :: NW_STATUS :: faultRegs) s u ∧ OnlyParts [.ctl, .regs, .poison, .flash, .spine] s u) ∧
      (¬ ill → e = .linkExhausted → tier.val ≠ 0 → few → ClockAt t s u ∧
        (∀ i, i < 8 → u.poison.contains (memKey tier (off / 64 * 64) / 8 + i) = true) ∧
        u.spine.repairs = addOnce (tier.val, row) s.spine.repairs ∧ u.spine.chanErrs = units ∧
        u.reg (eccUncorr tier) = min (s.reg (eccUncorr tier) + 8) (2 ^ 48 - 1) ∧ u.mem = s.mem ∧
        OnlyRegs (eccUncorr tier :: NW_STATUS :: faultRegs) s u ∧ OnlyParts [.ctl, .regs, .poison, .flash, .spine] s u) ∧
      (¬ ill → e = .uncorrectable → tier.val = 0 → ¬ few → u.ctl.life = .stopped ∧ FaultNewest 3 0x41 ((s.place tier off).unit + (s.place tier off).channel * 4) u ∧
        u.flag MT_STATUS 1 = true) ∧
      (¬ ill → e = .uncorrectable ∨ e = .linkExhausted → tier.val ≠ 0 → ¬ few → Quiet s → (∀ g ∈ s.tab.groups, g.tier ≠ tier.val) →
        ClockAt t s u ∧ u.tierOut tier = true ∧ FaultNewest (3 + tier) 0x25 (tier + (s.place tier off).channel * 256) u)) ∧
  (∀ (tier : Fin 3) (off t : Nat) (possible : Bool) (s : State), s.ctl.life = .alive → NotifiesHere s →
    let row := s.rowOf tier off
    let addr := gAddr s.id tier row
    let used := (lookupBy (tierSBank row) s.spine.spares).getD 0
    let held := (tier.val ≠ 0 ∧ (s.fastOnTier tier = true ∨ s.powerRuns = false)) ∨
      ∃ last, lookupBy (s.unitOf tier row) s.spine.repairAt = some last ∧ max s.ctl.now t < last + ms
    let done := possible = true ∧ (if tier.val = 0 then used < 16 else s.flag MT_CFG 30 = true)
    ∃ u, exec (.rowRepair tier off possible t) s = .next u ∧ ClockAt t s u ∧
      ((tier.val, row) ∉ s.spine.repairs ∨ held → OnlyParts [.ctl] s u) ∧
      ((tier.val, row) ∈ s.spine.repairs → ¬ held → u.spine.repairs = s.spine.repairs.filter (fun r => r != (tier.val, row)) ∧
        u.spine.rowErrs = s.spine.rowErrs.filter (fun e => !(e.1 == tier.val && e.2.1 == row)) ∧
        lookupBy (s.unitOf tier row) u.spine.repairAt = some (max s.ctl.now t) ∧
        (done → Counted MT_REPAIR s u ∧ FaultNewest (3 + tier) 0x01 addr u ∧ u.reg MT_REPAIR_FAIL = s.reg MT_REPAIR_FAIL) ∧
        (¬ done → Counted MT_REPAIR_FAIL s u ∧ FaultNewest (3 + tier) 0x0B addr u ∧ u.reg MT_REPAIR = s.reg MT_REPAIR) ∧
        (tier.val = 0 → done → Counted MS_REMAP s u ∧ lookupBy (tierSBank row) u.spine.spares = some (used + 1) ∧
          (14 ≤ used + 1 → u.flag MS_STATUS 5 = true)) ∧
        (tier.val ≠ 0 → s.secRuns = true → u.flash.repairs = addOnce (tier.val, row) s.flash.repairs ∧
          u.fld MT_HPPR_PENDING 0 16 = min u.flash.repairs.length 0xFFFF) ∧
        OnlyRegs ([NW_STATUS, MT_REPAIR, MT_REPAIR_FAIL, MS_REMAP, MS_STATUS, MT_HPPR_PENDING] ++ faultRegs) s u ∧
        OnlyParts (.ctl :: faultParts) s u))

/-- A channel of Tier F or Tier C that fails, and a PHY update held for more than 100 µs, take the tier out of service until reset; what the ordered pool
held in Tier C is lost. A die or channel of Tier S that fails stops the block. -/
def Obligations.FailedTiersLeaveService : Prop :=
  (∀ (i : Instr) (tier : Fin 3) (channel t : Nat) (s : State), s.ctl.life = .alive →
    (i = .tierFailure tier channel t ∨ ∃ k : Fin 64, k.val = channel ∧ i = .phyUpdateOverrun tier k t) →
    let ill := tier.val = 0 ∨ (if tier.val = 1 then 64 else 32) ≤ channel
    ∃ u, exec i s = .next u ∧ (ill → u = s) ∧
      (¬ ill → s.tierOut tier = true → ClockAt t s u ∧ OnlyParts [.ctl, .spine] s u) ∧
      (¬ ill → s.tierOut tier = false → Quiet s → NotifiesHere s → (∀ g ∈ s.tab.groups, g.tier ≠ tier.val) →
        ClockAt t s u ∧ u.tierOut tier = true ∧ FaultNewest (3 + tier) 0x25 (tier + channel * 256) u ∧
        u.spine.repairs = s.spine.repairs.filter (fun r => r.1 != tier.val) ∧ (tier.val = 1 → u.fld MF_STATUS 2 4 = 8) ∧
        (tier.val = 2 → u.fld (MC_FAIL_CAUSE channel) 0 4 = 8 ∧ u.flash.failed = s.flash.failed ||| 2 ^ channel ∧ u.tab.slots = []) ∧
        (tier.val = 1 → u.tab = s.tab) ∧
        (i ≠ .tierFailure tier channel t → (tier.val, channel) ∉ u.spine.phyupd) ∧
        OnlyRegs ([MT_STATUS, MF_STATUS, MC_FAIL_CAUSE channel, NW_STATUS, MT_ORD_POOL_USED, MT_ADD_DROP] ++ faultRegs) s u ∧
        OnlyParts (.ctl :: .tab :: faultParts) s u)) ∧
  (∀ (die : Fin 4) (channel : Fin 64) (t : Nat) (s : State), s.ctl.life = .alive →
    ∃ u, exec (.tierSFailure die channel t) s = .next u ∧ u.ctl.life = .stopped ∧ u.ctl.pmFatal = true ∧ u.valid = false ∧
      FaultNewest 3 0x41 (die + channel * 4) u ∧ u.flag MS_STATUS die = false ∧ u.flag MT_STATUS 1 = true ∧ u.cmds = s.cmds ∧ u.tab = s.tab ∧ u.rings = s.rings) ∧
  (∀ (tier : Fin 3) (channel : Fin 64) (held t : Nat) (s : State), s.ctl.life = .alive →
    ∃ u, exec (.phyUpdateRequest tier channel held t) s = .next u ∧ ClockAt t s u ∧
      (tier.val = 0 → OnlyParts [.ctl] s u) ∧
      (tier.val ≠ 0 → (s.fld MT_CFG 12 10 < held → Counted (overrunCtr tier) s u) ∧ (held ≤ s.fld MT_CFG 12 10 → u.regs = s.regs) ∧
        u.spine = (if 100000 < held then { s.spine with phyupd := addOnce (tier.val, channel.val) s.spine.phyupd } else s.spine)) ∧
      OnlyRegs [overrunCtr tier] s u ∧ OnlyParts [.ctl, .regs, .spine] s u)

/-- What the tiers do by themselves. A channel's queue of writes drains when a batch is full, the oldest has waited WR_HOLD or three quarters of it are
taken. Refresh and controller updates keep what the tiers hold. A refill takes over each floor, a lower one only when no promised command needs more,
fills each bucket up to its size and renews each allowance. A device's temperature reaches its register, or the set of devices refreshed twice as
often; out of range it takes the tier out of service, and with Tier S stops the block. That a promise needs the floor while its command has work in
the tier is the model's reading (log 113). -/
def Obligations.TiersRunByThemselves : Prop :=
  (∀ (tier : Fin 3) (channel : Fin 64) (s : State), s.ctl.life = .alive →
    let q := lookupBy (tier.val * 64 + channel) s.spine.writeQ
    let turns := fun (n oldest : Nat) =>
      (if tier.val = 1 then 32 else 16) ≤ n ∨ oldest + s.fld MT_CFG 0 12 * 10 * ns ≤ s.ctl.now ∨ 192 ≤ n
    ∃ u, exec (.writeBatchTurn tier channel) s = .next u ∧
      (∀ n oldest, q = some (n, oldest) → turns n oldest → lookupBy (tier.val * 64 + channel) u.spine.writeQ = none) ∧
      (∀ n oldest, q = some (n, oldest) → ¬ turns n oldest → u = s) ∧ (q = none → u = s) ∧
      (∀ k, k ≠ tier.val * 64 + channel → lookupBy k u.spine.writeQ = lookupBy k s.spine.writeQ) ∧
      u.spine = { s.spine with writeQ := u.spine.writeQ } ∧ OnlyParts [.spine] s u) ∧
  (∀ (tier : Fin 3) (channel : Fin 64) (zq : Bool) (held : Nat) (s : State),
    exec (.refresh tier) s = .next s ∧ exec (.controllerUpdate tier channel zq held) s = .next s) ∧
  (∀ (t : Nat) (s : State), s.ctl.life = .alive →
    ∃ u, exec (.regulatorRefill t) s = .next u ∧ ClockAt t s u ∧
      (∀ tier part write, tier < 3 → part < 16 →
        let k := regulator tier part write
        let rate := if tier = 0 then s.reg (MT_RATED 0) * 50 * min (s.fld PW_SPEED 0 16) 565 / 565 else s.reg (MT_RATED tier) * 100
        let v := s.reg (MT_REG tier part)
        let floor := if bits v 0 10 < s.floorOf tier part ∧ s.floorHeld tier part = true then s.floorOf tier part else bits v 0 10
        u.floorOf tier part = floor ∧
        lookupBy k u.spine.buckets = some (min ((lookupBy k s.spine.buckets).getD 0 + rate * floor / 1000) (bits v 20 12 * 1024)) ∧
        lookupBy k u.spine.caps = some (rate * max (bits v 10 10) floor / 1000)) ∧
      u.spine = { s.spine with buckets := u.spine.buckets, caps := u.spine.caps, floors := u.spine.floors } ∧ OnlyParts [.ctl, .spine] s u) ∧
  (∀ (tier : Fin 3) (device : Fin 64) (temp t : Nat) (twice outside : Bool) (s : State), s.ctl.life = .alive →
    ∃ u, exec (.deviceTemperatureReport tier device temp twice outside t) s = .next u ∧
      (tier.val = 0 ∨ tier.val = 1 ∧ 2 ≤ device.val → outside = false → ClockAt t s u ∧ OnlyParts [.ctl] s u) ∧
      (tier.val = 0 → outside = true → u.ctl.life = .stopped ∧ FaultNewest 3 0x41 (device % 4) u ∧ u.flag MT_STATUS 1 = true) ∧
      (tier.val = 1 → outside = false → device.val < 2 → u.fld MF_TEMP (8 * device) 8 = min temp 255 ∧ OnlyField MF_TEMP (8 * device) 8 s u ∧
        u.flag MF_STATUS 10 = decide (85 < u.stackTemp) ∧ OnlyField MF_STATUS 10 1 s u ∧ OnlyRegs [MF_TEMP, MF_STATUS] s u ∧
        OnlyParts [.ctl, .regs] s u) ∧
      (tier.val = 2 → outside = false → ClockAt t s u ∧
        u.spine = { s.spine with hot2x := (if twice then addOnce device.val s.spine.hot2x else s.spine.hot2x.filter (· != device.val)) } ∧
        u.flag MC_CHAN_MAP 38 = !u.spine.hot2x.isEmpty ∧ u.flag MC_STATUS 2 = !u.spine.hot2x.isEmpty ∧ OnlyField MC_CHAN_MAP 38 1 s u ∧
        OnlyField MC_STATUS 2 1 s u ∧ OnlyRegs [MC_CHAN_MAP, MC_STATUS] s u ∧ OnlyParts [.ctl, .regs, .spine] s u) ∧
      (tier.val ≠ 0 → outside = true → Quiet s → NotifiesHere s → (∀ g ∈ s.tab.groups, g.tier ≠ tier.val) → u.tierOut tier = true))

-- Power and timing (10, 14)

/-- The power core. A Tier S reading reaches MS_TEMP, sets the thermal level with its hysteresis and REFUSE_ALL, posts a lower floor or raises the floor, and
sets a target voltage between the floor and the limits; with the core not running only CRIT acts. A pending floor takes effect 100 µs after its
acknowledgement. The logic temperature moves T_ADM. Canaries give the speed index; more than four dead ones fall back. When the voltage has settled
it is shown, and the next step may follow. -/
def Obligations.PowerCoreFollowsItsReadings : Prop :=
  (∀ (temps : List Nat) (limit t : Nat) (s : State), s.ctl.life = .alive →
    let temp := fun (i : Nat) => min ((temps[i]?).getD 0) 255
    let hot := maxOf ((upTo 4).map temp)
    let crit := s.fld MS_THERM_CFG 8 8
    ∃ u, exec (.tierSTempRead temps limit t) s = .next u ∧ u.ctl.now = max s.ctl.now t ∧
      (crit ≤ hot → u.flag NW_STATUS 16 = true) ∧
      (hot < crit → s.powerRuns = true → hot + s.fld MS_THERM_CFG 16 4 ≤ crit → u.flag NW_STATUS 16 = false) ∧
      (hot < crit → crit < hot + s.fld MS_THERM_CFG 16 4 ∨ s.powerRuns = false → u.flag NW_STATUS 16 = s.flag NW_STATUS 16) ∧
      (s.powerRuns = false → ClockAt t s u ∧ OnlyField NW_STATUS 16 1 s u ∧ OnlyRegs [NW_STATUS] s u ∧ OnlyParts [.ctl, .regs] s u) ∧
      (s.powerRuns = true →
        let level := s.thermLevelAt hot s.ctl.thermLevel
        let ahead := hot + s.fld NW_CFG 0 8
        let lim := stepMv (min (s.thermLimitAt (s.thermRow ahead) ahead) (stepMv limit))
        let hi := stepMv (min u.ctl.thermLimit u.ctl.powerLimit)
        let lo := stepMv (max 550 u.vf)
        (∀ i, i < 4 → u.fld MS_TEMP (8 * i) 8 = temp i) ∧ u.flag MS_STATUS 4 = decide (95 < hot) ∧
        u.ctl.thermLevel = level ∧ u.ctl.thermLimit = s.thermLimitAt level hot ∧ u.ctl.powerLimit = stepMv limit ∧
        (s.thermLimitAt level hot < s.vf → s.vf ≤ s.ctl.thermLimit → Counted PW_TDRIFT_COUNT s u ∧ u.flag PW_STATUS 1 = true) ∧
        (lim < s.vf → u.vf = s.vf ∧ u.vfp = (if s.vfp = 0 ∨ lim < s.vfp then lim else s.vfp)) ∧
        (s.vf ≤ lim → u.vfp = s.vfp ∧ u.vf = (if s.vfp = 0 then max s.vf (min lim (s.fld PW_VDD 0 16)) else s.vf)) ∧
        lo ≤ u.fld PW_VDD 16 16 ∧ u.fld PW_VDD 16 16 ≤ max lo hi ∧
        OnlyRegs [MS_TEMP, MS_STATUS, PW_TDRIFT_COUNT, PW_STATUS, NW_STATUS, PW_SPEED, PW_VDD] s u ∧ OnlyParts [.ctl, .regs] s u)) ∧
  (∀ (t : Nat) (s : State), s.ctl.life = .alive →
    let due := ∃ a, s.ctl.vfpAck = some a ∧ s.vfp ≠ 0 ∧ s.powerRuns = true ∧ a + 100 * us ≤ max s.ctl.now t
    ∃ u, exec (.floorTakesEffect t) s = .next u ∧ (¬ due → ClockAt t s u ∧ OnlyParts [.ctl] s u) ∧
      (due → u.vf = s.vfp ∧ u.vfp = 0 ∧ u.ctl = { s.ctl with now := max s.ctl.now t, vfpAck := none } ∧ OnlyField PW_SPEED 16 32 s u ∧
        OnlyRegs [PW_SPEED] s u ∧ OnlyParts [.ctl, .regs] s u)) ∧
  (∀ (temps : List Nat) (t : Nat) (s : State), s.ctl.life = .alive →
    ∃ u, exec (.logicTempRead temps t) s = .next u ∧ ClockAt t s u ∧ u.fld PW_TEMP 0 8 = min (maxOf temps) 255 ∧
      u.fld PW_SPEED 48 8 = min 105 (u.fld PW_TEMP 0 8 + s.fld NW_CFG 0 8) ∧ OnlyField PW_TEMP 0 8 s u ∧ OnlyField PW_SPEED 48 8 s u ∧
      OnlyRegs [PW_TEMP, PW_SPEED] s u ∧ OnlyParts [.ctl, .regs] s u) ∧
  (∀ (counts rates : List Nat) (t : Nat) (s : State), s.ctl.life = .alive → NotifiesHere s →
    ∃ u, exec (.canaryWindow counts rates t) s = .next u ∧ ClockAt t s u ∧ (s.powerRuns = false → OnlyParts [.ctl] s u) ∧
      (s.powerRuns = true →
        (∀ n, n < 16 → u.fld (PW_CANARY n) 0 16 = min ((rates[n]?).getD 0) 0xFFFF ∧
          (u.flag (PW_CANARY n) 16 = true ↔ s.flag (PW_CANARY n) 16 = true ∨ (counts[n]?).getD 0 < 100)) ∧
        u.fld PW_SPEED 0 16 = min u.speedIndex 0xFFFF ∧ OnlyField PW_SPEED 0 16 s u ∧
        (u.flag PW_STATUS 0 = true ↔ s.flag PW_STATUS 0 = true ∨ 4 < u.deadCanaries) ∧
        (s.flag PW_STATUS 0 = false → 4 < u.deadCanaries → FaultNewest 21 0x26 u.deadCanaries u) ∧
        OnlyRegs (PW_SPEED :: PW_STATUS :: (upTo 16).map PW_CANARY ++ faultRegs) s u ∧ OnlyParts (.ctl :: faultParts) s u)) ∧
  (∀ (t : Nat) (s : State), s.ctl.life = .alive →
    let now := max s.ctl.now t
    let target := s.fld PW_VDD 16 16
    let settled := { s.ctl with now := now, vddOk := true }
    ∃ u, exec (.vddOk t) s = .next u ∧ u.fld PW_VDD 0 16 = s.ctl.vddReq % 2 ^ 16 ∧ OnlyField PW_VDD 0 16 s u ∧ OnlyRegs [PW_VDD] s u ∧
      OnlyParts [.ctl, .regs] s u ∧
      u.ctl = (if s.powerRuns = false ∨ s.ctl.vddReq = target ∨ now < s.ctl.lastStep + s.stepGap then settled
        else { settled with vddReq := (if s.ctl.vddReq < target then s.ctl.vddReq + 5 else s.ctl.vddReq - 5), vddOk := false, lastStep := now })) ∧
  (∀ (i : Instr) (line point t : Nat) (s : State), s.ctl.life = .alive → NotifiesHere s →
    (i = .delayLineCalibration line point ∨ i = .marginRecentre line point t) →
    let warn := i = .marginRecentre line point t ∧ Config.fusedPoint line * 11 ≤ point * 10
    ∃ u, exec i s = .next u ∧ (s.lineRuns line = false → u = s) ∧
      (s.lineRuns line = true → lookupBy line u.spine.lines = some (lineSetting point) ∧
        (∀ k, k ≠ line → lookupBy k u.spine.lines = lookupBy k s.spine.lines) ∧
        (¬ warn → OnlyParts [.ctl, .spine] s u ∧ u.spine = { s.spine with lines := u.spine.lines }) ∧
        (warn → Counted TT_AGING_WARN s u ∧ FaultNewest (srcCore (lineOwner line)) 0x09 line u ∧
          OnlyRegs (TT_AGING_WARN :: faultRegs) s u ∧ OnlyParts (.ctl :: faultParts) s u)))

-- Caches (07) and background work (14)

/-- The Row Cache by itself. A sector that arrives joins its line, or gives an EVICTING way its new line; one that a write has reached stays invalid. The
last one that is awaited makes the line VALID, or INVALID when nothing of it is; one that no fill awaits is dropped. A sweep halves every heat. A retired way moves onto the spare, or is disabled when the spare is taken; a rotation moves the next way onto the spare,
and one that fails its test is marked as taken and recorded. The clearing of the window empties the error counts. -/
def Obligations.RowCacheFollowsItsEvents : Prop :=
  (∀ s : State, s.ctl.life = .alive →
    ∃ u, exec .heatDecaySweep s = .next u ∧ (s.fld RC_GLOBAL_CFG 6 16 = 0 → u = s) ∧
      (s.fld RC_GLOBAL_CFG 6 16 ≠ 0 →
        u.cache = { s.cache with lines := s.cache.lines.map (fun l => { l with heat := l.heat / 2 }) } ∧ OnlyParts [.cache] s u)) ∧
  (∀ s : State, s.ctl.life = .alive →
    ∃ u, exec .errorCountWindowClear s = .next u ∧ u.cache.ways = s.cache.ways.map (fun x => { x with errs := x.errs.map (fun _ => 0) }) ∧
      u.cache = { s.cache with ways := u.cache.ways, mdErrs := s.cache.mdErrs.map (fun _ => 0) } ∧ OnlyParts [.cache] s u) ∧
  (∀ (sl : Fin 4) (a : Nat) (sector : Fin 16) (s : State), s.ctl.life = .alive →
    let b := 2 ^ sector.val
    let awaits := fun (f : RcFill) => f.slice == sl.val && f.line == a && (f.want &&& b) != 0 && (f.arrived &&& b) == 0
    ∃ u, exec (.fillArrival sl a sector) s = .next u ∧ (s.cache.fills.find? awaits = none → u = s) ∧
      (∀ f, s.cache.fills.find? awaits = some f → s.cache.rcWait = [] →
        let good := if f.stale &&& b = 0 then b else 0
        let last := f.arrived ||| b = f.want
        let ends := last ∧ ∀ g ∈ s.cache.fills.erase f, ¬ (g.slice = sl.val ∧ g.line = a ∧ g.way = f.way)
        let left := fun (l : RcLine) =>
          if ends ∧ l.st ≠ .evicting ∧ l.sectors = 0 then none
          else some { l with st := if ends ∧ l.st = .filling then .valid else l.st }
        OnlyParts [.cache] s u ∧
        (last → u.cache.fills = s.cache.fills.erase f) ∧
        (¬ last → u.cache.fills = updFirst (· == f) (fun f => { f with arrived := f.arrived ||| b }) s.cache.fills) ∧
        (∀ w l, f.way = some w → s.rcLineAt sl (rcSet a) w = some l → l.tag = a →
          u.rcLineAt sl (rcSet a) w = left { l with sectors := l.sectors ||| good }) ∧
        (∀ w l, f.way = some w → s.rcLineAt sl (rcSet a) w = some l → l.tag ≠ a → l.st = .evicting →
          u.rcLineAt sl (rcSet a) w =
            left { slice := sl, set := rcSet a, way := w, tag := a, sectors := good, heat := s.fld RC_GLOBAL_CFG 0 6, st := .filling }))) ∧
  (∀ (sl : Fin 4) (way : Fin 16) (t : Nat) (s : State), s.ctl.life = .alive → NotifiesHere s → sl.val < s.cache.ways.length →
    let x := s.sliceWays sl
    ∃ u, exec (.wayRetire sl way t) s = .next u ∧ ClockAt t s u ∧ (s.wayOff sl way = true → OnlyParts [.ctl] s u) ∧
      (s.wayOff sl way = false → u.cache.lines = s.cache.lines.filter (fun l => !(l.slice == sl.val && l.way == way.val)) ∧
        (∀ f ∈ u.cache.fills, ¬ (f.slice = sl.val ∧ f.way = some way.val)) ∧ OnlyParts (.ctl :: faultParts) s u ∧
        (x.used = false → u.sliceWays sl = x.swap way true ∧ u.flag (RC_STATUS sl) 1 = true ∧ FaultNewest (6 + sl) 0x03 (way + sl * 16) u ∧
          OnlyField (RC_STATUS sl) 1 5 s u ∧ OnlyRegs (RC_STATUS sl :: faultRegs) s u) ∧
        (x.used = true → u.sliceWays sl = x ∧ u.wayOff sl way = true ∧ FaultNewest (6 + sl) 0x20 (way + sl * 16) u ∧
          OnlyField (RC_WAY_DISABLE sl) way 1 s u ∧ OnlyRegs (RC_WAY_DISABLE sl :: faultRegs) s u))) ∧
  (∀ (sl : Fin 4) (pass : Bool) (t : Nat) (s : State), s.ctl.life = .alive → NotifiesHere s → sl.val < s.cache.ways.length →
    let x := s.sliceWays sl
    let idle := s.fld RC_GLOBAL_CFG 34 12 = 0 ∨ x.used = true ∨ s.coreState (3 + sl) ≠ 0 ∨ s.holmOnline sl = false ∨ s.nextWay sl = none
    ∃ u, exec (.spareRotation sl pass t) s = .next u ∧ ClockAt t s u ∧ (idle → OnlyParts [.ctl] s u) ∧
      (∀ w, ¬ idle → s.nextWay sl = some w → u.sliceWays sl = { x.swap w (!pass) with rot := w } ∧
        u.cache.lines = s.cache.lines.filter (fun l => !(l.slice == sl.val && l.way == w)) ∧ u.flag (RC_STATUS sl) 1 = !pass ∧
        (pass = false → FaultNewest (6 + sl) 0x03 (w + sl * 16) u) ∧ OnlyField (RC_STATUS sl) 1 5 s u ∧
        OnlyRegs (RC_STATUS sl :: faultRegs) s u ∧ OnlyParts (.ctl :: faultParts) s u))

/-- The Metadata Cache and scrub. A way disables itself under scheme 0, but for the fifth, which sets LIMIT. A fetched line is installed in
the way that its miss has taken, unless a write has made it stale or it cannot be corrected. Merging entries close after MB_HOLD. Patrol scrub passes one word of a
tier, and an error found there is a read error of it. SRAM scrub counts what it finds; what it cannot correct is invalidated, and fetched again
for the request that reads it; a core whose instruction memory is hit restarts or halts. -/
def Obligations.MetadataCacheAndScrubAct : Prop :=
  (∀ (way : Fin 8) (t : Nat) (s : State), s.ctl.life = .alive → NotifiesHere s →
    let off := s.flag MD_WAY_DISABLE way
    ∃ u, exec (.mdWaySelfDisable way t) s = .next u ∧ (s.flag MD_CFG 0 = true → u = s) ∧
      (s.flag MD_CFG 0 = false → ClockAt t s u ∧ (off = true → OnlyParts [.ctl] s u) ∧
        (off = false → 4 ≤ s.cache.mdSelf.length → u.flag MD_WAY_DISABLE 8 = true ∧ OnlyField MD_WAY_DISABLE 8 1 s u ∧
          FaultNewest 2 0x21 (way + 256) u ∧ u.cache.md = s.cache.md) ∧
        (off = false → s.cache.mdSelf.length < 4 → u.flag MD_WAY_DISABLE way = true ∧ OnlyField MD_WAY_DISABLE way 1 s u ∧
          FaultNewest 2 0x21 way u ∧ u.cache.md = s.cache.md.filter (fun l => l.way != way.val) ∧
          u.cache.mdSelf = addOnce way.val s.cache.mdSelf) ∧
        OnlyRegs (MD_WAY_DISABLE :: faultRegs) s u ∧ OnlyParts (.ctl :: faultParts) s u)) ∧
  (∀ (line : Word64) (s : State), s.ctl.life = .alive →
    let g := line.toNat
    ∃ u, exec (.mdFill line) s = .next u ∧ (s.cache.mdFills.find? (fun f => f.addr == g) = none → u = s) ∧
      (∀ f, s.cache.mdFills.find? (fun f => f.addr == g) = some f →
        let bad := s.poisoned (memKey (gTier g) (gOff g)) 64
        (bad = true → FaultNewest 2 0x11 g u ∧ u.cache.md = s.cache.md) ∧
        (bad = false → u.cache = { s.cache with md := u.cache.md, mdFills := s.cache.mdFills.erase f } ∧
          (f.stale = true ∨ f.way = none → u.cache.md = s.cache.md) ∧
          (∀ w, f.stale = false → f.way = some w →
            u.cache.md = { set := mdSet g, way := w, tag := g / 64 } :: s.cache.md.filter (fun l => !(l.set == mdSet g && l.way == w))) ∧
          OnlyParts [.cache] s u))) ∧
  (∀ (t : Nat) (s : State), s.ctl.life = .alive →
    ∃ u, exec (.mbHoldExpiry t) s = .next u ∧ ClockAt t s u ∧
      u.cache = { s.cache with mb := s.cache.mb.filter (fun e => decide (t < e.opened + s.fld MD_CFG 10 8 * ns)) } ∧ OnlyParts [.ctl, .cache] s u) ∧
  (∀ (tier : Fin 3) (found : Option ReadError) (t : Nat) (s : State), s.ctl.life = .alive →
    let pos := (s.spine.scrub[tier.val]?).getD 0
    let moved := s.upSpine (fun x => { x with scrub := x.scrub.set tier ((pos + 8) % s.capacity tier) })
    let out := s.tierOut tier = true ∨ s.capacity tier = 0
    ∃ u, exec (.patrolScrub tier found t) s = .next u ∧ (out → ClockAt t s u ∧ OnlyParts [.ctl] s u) ∧
      (¬ out → found = none ∨ s.poison.contains (memKey tier pos / 8) = true → ClockAt t s u ∧ u.spine = moved.spine ∧
        OnlyParts [.ctl, .spine] s u) ∧
      (∀ e, ¬ out → found = some e → s.poison.contains (memKey tier pos / 8) = false → exec (.tierReadError tier pos e t) moved = .next u)) ∧
  (∀ (array index t : Nat) (e : SramError) (s : State), s.ctl.life = .alive →
    let set := index / 16
    let w := index % 16
    let n := ((s.sliceWays array).errs[w]?).getD 0 + 1
    let m := ((s.cache.mdErrs[index % 8]?).getD 0) + 1
    let here := fun (l : RcLine) => l.slice == array && l.set == set && l.way == w
    let gone := fun (l : MdLine) => l.set == index / 8 && l.way == index % 8
    ∃ u, exec (.sramScrub array index e t) s = .next u ∧
      (array < 4 → n < s.fld RC_GLOBAL_CFG 26 8 → array < s.cache.ways.length → ClockAt t s u ∧
        u.sliceWays array = { s.sliceWays array with errs := (s.sliceWays array).errs.set w n } ∧ OnlyParts [.ctl, .regs, .cache] s u ∧
        (e = .corrected → Counted (RC_ECC_CORR array) s u ∧ OnlyRegs [RC_ECC_CORR array] s u ∧ u.cache.lines = s.cache.lines ∧
          u.cache.fills = s.cache.fills) ∧
        (e ≠ .corrected → Counted (RC_ECC_UNCORR array) s u ∧ OnlyRegs [RC_ECC_UNCORR array] s u) ∧
        (e = .scrubbed ∨ e = .tag → u.cache.fills = s.cache.fills ∧
          u.cache.lines = s.cache.lines.filterMap (fun l => if here l then l.emptied else some l)) ∧
        (∀ x : Fin 16, e = .read x →
          ((∀ l, s.rcLineAt array set w = some l → l.sectors.testBit x = false) → u.cache.lines = s.cache.lines ∧ u.cache.fills = s.cache.fills) ∧
          (∀ l, s.rcLineAt array set w = some l → l.sectors.testBit x = true →
            let cut := { l with sectors := l.sectors &&& (0xFFFF - 2 ^ x.val) }
            (l.st = .evicting → u.rcLineAt array set w = some cut ∧ u.cache.fills = s.cache.fills) ∧
            (l.st ≠ .evicting → u.rcLineAt array set w = some { cut with st := .filling } ∧
              u.cache.fills = s.cache.fills ++
                [{ slice := array, line := l.tag, way := some w, part := 0, want := 2 ^ x.val, arrived := 0, stale := 0 }])))) ∧
      (array = 4 → m < s.fld MD_CFG 2 8 ∨ s.flag MD_CFG 0 = true →
        let kept := e = .corrected ∧ s.flag MD_CFG 0 = false
        u.cache.mdErrs = (if s.flag MD_CFG 0 then s.cache.mdErrs else s.cache.mdErrs.set (index % 8) m) ∧
        (kept → ClockAt t s u ∧ Counted MD_ERR_CORR s u ∧ OnlyRegs [MD_ERR_CORR] s u ∧ u.cache.md = s.cache.md ∧ OnlyParts [.ctl, .regs, .cache] s u) ∧
        (¬ kept → u.cache.md = s.cache.md.filter (fun l => !gone l)) ∧
        (e = .tag → ClockAt t s u ∧ (s.flag MD_CFG 0 = true → u.regs = s.regs) ∧ (s.flag MD_CFG 0 = false → Counted MD_ERR_REFETCH s u) ∧
          OnlyRegs [MD_ERR_REFETCH] s u ∧ u.cache.mdFills = s.cache.mdFills ∧ OnlyParts [.ctl, .regs, .cache] s u) ∧
        (¬ kept → e ≠ .tag → Counted MD_ERR_REFETCH s u ∧
          (∀ l ∈ s.cache.md, gone l = true → ∃ f ∈ u.cache.mdFills, f.addr = l.tag * 64 ∧ f.stale = false) ∧
          ((∀ l ∈ s.cache.md, gone l = true → gTier (l.tag * 64) ≠ 3) →
            ClockAt t s u ∧ OnlyRegs [MD_ERR_REFETCH, MD_LFSR] s u ∧ OnlyParts [.ctl, .regs, .cache] s u))) ∧
      (5 ≤ array → e = .corrected ∨ 13 < array → ClockAt t s u ∧ OnlyParts [.ctl] s u) ∧
      (array = 5 → e ≠ .corrected → ClockAt t s u ∧ u.tu = { s.tu with tlb := s.tu.tlb.eraseIdx index } ∧ OnlyParts [.ctl, .tu] s u) ∧
      (array = 6 → e ≠ .corrected → ClockAt t s u ∧ u.tu = { s.tu with walks := s.tu.walks.eraseIdx index } ∧ OnlyParts [.ctl, .tu] s u) ∧
      (∀ c : Fin 7, array = 7 + c → e ≠ .corrected → exec (.coreFault c t) s = .next u))

-- Boundary FIFOs, reset and boot (13, 15)

/-- The boundary. A packet that is rewound and a FIFO read while empty are counted, on the fabric's edge also at the port; in reset nothing is. The
network's instruction is taken, but INTEST only while the block is held in reset.

A background task that falls behind is recorded. The telemetry tick shows the power and the load, which the model leaves free, and takes the
snapshot of the state it leaves. -/
def Obligations.BoundaryAndBackgroundEventsAreCounted : Prop :=
  ((∀ (edge : Fin 8) (s : State),
    ∃ u, exec (.packetStallRewind edge) s = .next u ∧ (s.ctl.life = .inReset → u = s) ∧
      (s.ctl.life ≠ .inReset → Counted TT_BF_STALL s u ∧ OnlyRegs [TT_BF_STALL] s u ∧ OnlyParts [.regs] s u)) ∧
  (∀ (edge : Fin 8) (port : Option (Fin 8)) (s : State),
    ∃ u, exec (.badPacketRewind edge port) s = .next u ∧ (s.ctl.life = .inReset → u = s) ∧
      (s.ctl.life ≠ .inReset → Counted TT_BF_REWIND s u ∧ OnlyParts [.regs] s u ∧
        (edge.val ≠ 4 ∨ port = none → OnlyRegs [TT_BF_REWIND] s u) ∧
        (∀ k, edge.val = 4 → port = some k → Counted (FP_PORT_CTR k 2) s u ∧ OnlyRegs [TT_BF_REWIND, FP_PORT_CTR k 2] s u))) ∧
  (∀ (edge : Fin 8) (s : State),
    ∃ u, exec (.emptyFifoRead edge) s = .next u ∧ (s.ctl.life = .inReset → u = s) ∧
      (s.ctl.life ≠ .inReset → u.flag TT_BF_STATUS edge = true ∧ OnlyField TT_BF_STATUS edge 1 s u ∧ OnlyRegs [TT_BF_STATUS] s u ∧
        OnlyParts [.regs] s u)) ∧
  (∀ (code : BitVec 4) (s : State),
    ∃ u, exec (.wrapperInstructionUpdate code) s = .next u ∧ OnlyParts [.ctl] s u ∧
      u.ctl = (if wrapOf code.toNat = .intest ∧ s.ctl.life ≠ .inReset then s.ctl else { s.ctl with wrap := wrapOf code.toNat }))) ∧
  ((∀ (task : Fin 16) (t : Nat) (s : State), s.ctl.life = .alive → NotifiesHere s →
    let scrub := 3 ≤ task.val ∧ task.val ≤ 6
    ∃ u, exec (.backgroundTaskBehind task t) s = .next u ∧ ClockAt t s u ∧ (task.val = 0 → OnlyParts [.ctl] s u) ∧
      (task.val ≠ 0 → FaultNewest (taskSource task) 0x0A task u) ∧ (scrub → u.flag TT_SCRUB_STATUS (task - 3) = true) ∧
      (¬ scrub → OnlyRegs faultRegs s u) ∧ OnlyField TT_SCRUB_STATUS (task - 3) 1 s u ∧ OnlyRegs (TT_SCRUB_STATUS :: faultRegs) s u ∧
      OnlyParts (.ctl :: faultParts) s u) ∧
  (∀ (power t : Nat) (s : State), s.ctl.life = .alive → s.spine.notifyOwed = false ∨ gBlock (s.reg TT_NOTIFY_ADDR) = s.id →
    ∃ u, exec (.telemetrySample power t) s = .next u ∧ u.ctl = { s.ctl with now := max s.ctl.now t, fresh := s.ctl.fresh + 1 } ∧
      u.fld NW_LOAD 0 10 ≤ 1000 ∧ OnlyField NW_LOAD 0 10 s u ∧ OnlyRegs [NW_LOAD, MD_MB_FULL] s u ∧ u.spine.power = power ∧
      u.spine.snap = u.snapshot ∧ u.spine.snap.length = 128 ∧ u.spine.faults = s.spine.faults ∧
      OnlyParts [.ctl, .regs, .mem, .poison, .cache, .tu, .spine] s u))

/-- Reset and the ROM. rst_n low puts every register at its reset value and empties every table, cache, ring, flow and tier; host memory, the fuses and the
flash are kept. When it rises the voltages are 0.75 V, and the slot that the boot record names is verified, measured and booted; a trial is marked
as attempted first. If it fails the other slot boots as a rollback, which is recorded; if both fail the block is in recovery mode. -/
def Obligations.ResetThenBoot : Prop :=
  (∀ (t : Nat) (s : State),
    ∃ u, exec (.resetAssert t) s = .next u ∧ u.ctl.life = .inReset ∧ u.ctl.now = max s.ctl.now t ∧ (∀ off, u.reg off = (resetAt off).toNat) ∧
      u.poison = [] ∧ u.rings = [] ∧ u.cmds = [] ∧ u.tab = Tables.zero ∧ u.cache = Caches.zero ∧ u.fab = Fabric.zero ∧ u.tu = Trans.zero ∧
      u.sec = Sec.zero ∧ u.spine = Spine.zero ∧ u.fuses = s.fuses ∧ u.flash = s.flash ∧ u.pending = s.pending ∧
      (Sound s → ∀ k, u.byteAt k = if memKey 3 0 ≤ k then s.byteAt k else 0#8)) ∧
  (∀ (headless : Bool) (t : Nat) (s : State), s.ctl.life ≠ .inReset → exec (.resetRelease headless t) s = .next s) ∧
  (∀ (headless : Bool) (t c : Nat) (r : BootRec) (s : State), s.ctl.life = .inReset → NotifiesHere s → s.bootCurrent = some (c, r) →
    let now := max s.ctl.now t
    let up := fun (life : Life) => { s.ctl with life := life, now := now, released := now, pmSafe := false }
    let boots := fun (slot : Nat) (u : State) => u.ctl = up .alive ∧ u.sec.slot = slot ∧ u.sec.header = s.slotHeader slot ∧
      u.fld SE_STATUS 6 1 = slot ∧ (∀ w, w < 6 → u.reg (SE_MR 0 w) = leAt (sha384 (s.mr 0 ++ sha384 (s.slotHeader slot))) (8 * w) 8)
    let s1 := s.writeBootRec { r with attempted := true }
    let slot := min r.active 1
    ∃ u, exec (.resetRelease headless t) s = .next u ∧ u.headless = headless ∧ u.vf = 750 ∧ u.fld PW_VDD 0 16 = 750 ∧ u.fld PW_VDD 16 16 = 750 ∧
      u.fld MC_MAPOUT 0 32 = s.flash.mapout % 2 ^ 32 ∧
      (r.trial = false → s.verifySlot slot none none = 0 → boots slot u ∧ u.trial = false ∧ u.flag SE_STATUS 5 = r.rolled ∧
        u.flash = s.flash ∧ u.fuses.svn = max s.fuses.svn (hdrSvn (s.slotHeader slot)) ∧ (r.rolled = true → FaultNewest 20 0x0C slot u)) ∧
      (r.trial = true → r.attempted = false → s1.verifySlot slot none none = 0 → boots slot u ∧ u.trial = true ∧
        BootWritten { r with attempted := true } s u ∧ u.fuses = s.fuses) ∧
      (r.trial = false → s.verifySlot slot none none ≠ 0 → s.verifySlot (1 - slot) none none = 0 → boots (1 - slot) u ∧ u.trial = false ∧
        u.flag SE_STATUS 5 = true ∧ FaultNewest 20 0x0C (1 - slot) u ∧
        BootWritten { seq := 0, active := 1 - slot, trial := false, attempted := false, rolled := true, prev := 1 - slot
                      svn := hdrSvn (s.slotHeader (1 - slot)) } s u) ∧
      (r.trial = false → s.verifySlot slot none none ≠ 0 → s.verifySlot (1 - slot) none none ≠ 0 → u.ctl = up .recovery ∧ u.sec = s.sec ∧
        u.fuses = s.fuses ∧ u.flash = s.flash)) ∧
  (∀ (headless : Bool) (t : Nat) (s : State), s.ctl.life = .inReset → s.bootCurrent = none → s.verifySlot 0 none none ≠ 0 →
    s.verifySlot 1 none none ≠ 0 →
    ∃ u, exec (.resetRelease headless t) s = .next u ∧ u.ctl.life = .recovery ∧ u.sec = s.sec ∧ u.fuses = s.fuses ∧ u.flash = s.flash)

/-- After the ROM. Self-test shows its results, disables the ways that failed, and keeps VALID clear when an array failed that the block cannot do
without. Training shows the tiers in service; one that fails, or too few channels of Tier C, keeps VALID clear. Firmware measures the configuration
record, takes the ID and the routes, and sets FW_READY; VALID follows when the record asks for it and nothing keeps it clear. -/
def Obligations.BringUpLeadsToValid : Prop :=
  (∀ (r : MbistResult) (s : State), s.ctl.life = .alive → NotifiesHere s →
    let again := s.flag TT_MBIST_STATUS 10 = true ∧ s.ctl.wrap ≠ .mbist
    let bad := (r.mbOk && r.imOk && r.faultRingOk && r.fifoOk) = false
    ∃ u, exec (.mbistDone r) s = .next u ∧ (again → u = s) ∧
      (¬ again → u.fld TT_MBIST_STATUS 0 4 = r.rcOk % 16 ∧ u.flag TT_MBIST_STATUS 4 = r.mdOk ∧ u.flag TT_MBIST_STATUS 5 = r.mbOk ∧
        u.flag TT_MBIST_STATUS 6 = r.imOk ∧ u.flag TT_MBIST_STATUS 7 = r.tlbOk ∧ u.flag TT_MBIST_STATUS 8 = r.faultRingOk ∧
        u.flag TT_MBIST_STATUS 9 = r.fifoOk ∧ u.flag TT_MBIST_STATUS 10 = true ∧
        (∀ h, h < 4 → u.flag (RC_STATUS h) 0 = s.holmOnline h) ∧
        (∀ x ∈ r.rcFail, x.1 < 4 → x.2 < 16 → u.wayOff x.1 x.2 = true) ∧ u.ctl.mbistBad = (s.ctl.mbistBad || decide bad) ∧
        (s.valid = false → u.valid = true → u.ctl.mbistBad = false ∧ s.ctl.trained = true ∧ s.ctl.trainBad = false ∧ s.ctl.wantValid = true ∧
          s.fwReady = true) ∧
        (s.ctl.wantValid = true → s.ctl.trained = true → s.ctl.trainBad = false → s.fwReady = true → u.ctl.mbistBad = false → u.valid = true) ∧
        OnlyParts (.ctl :: faultParts) s u)) ∧
  (∀ (r : TrainResult) (t : Nat) (s : State), s.ctl.life = .alive → NotifiesHere s →
    let tried := fun i => !bit (s.fld MC_MAPOUT 0 32) i && (s.flag MC_CFG 6 || !bit s.flash.failed i)
    let up := (upTo 32).filter (fun i => bit r.cPass i && tried i)
    let bad := r.sDies % 16 ≠ 15 ∨ r.fCause ≠ 0 ∨ up.length < s.fld MC_CFG 0 6
    ∃ u, exec (.tierTrainingDone r t) s = .next u ∧ u.ctl.now = max s.ctl.now t ∧ (s.ctl.trained = true → ClockAt t s u ∧ OnlyParts [.ctl] s u) ∧
      (s.ctl.trained = false → u.ctl.trained = true ∧ u.fld MS_STATUS 0 4 = r.sDies % 16 ∧
        (r.sRemaps = [] → s.spine.spares = [] → u.flag MS_STATUS 5 = false) ∧
        (∀ bank n, r.sRemaps = [(bank, n)] → s.spine.spares = [] → u.spine.spares = [(bank, min 16 n)] ∧
          u.flag MS_STATUS 5 = decide (14 ≤ n)) ∧
        u.fld MF_STATUS 0 2 = (if r.fCause ≠ 0 then 3 else if r.fLanes.isEmpty then 1 else 2) ∧ u.fld MF_STATUS 2 4 = r.fCause % 16 ∧
        u.fld MF_STATUS 6 4 = r.fAttempts % 16 ∧ (∀ i, i < 32 → (u.flag MC_CHAN_MAP i = true ↔ i ∈ up)) ∧ u.fld MC_CHAN_MAP 32 6 = up.length ∧
        u.reg (MT_RATED 2) = 404 * up.length / 32 ∧ u.flash.repairs = s.flash.repairs.filter (fun x => !r.hppr.contains x) ∧
        (u.ctl.trainBad = true ↔ s.ctl.trainBad = true ∨ bad) ∧ (s.valid = false → bad → u.valid = false) ∧
        OnlyParts (.ctl :: faultParts) s u)) ∧
  (∀ (c : BootConfig) (s : State), s.ctl.life = .alive →
    ∃ u, exec (.firmwareReady c) s = .next u ∧ (s.fwReady = true ∨ s.secRuns = false → u = s) ∧
      (s.fwReady = false → s.secRuns = true → u.fwReady = true ∧
        (c.writes = [] → u.id = c.blockId % 2 ^ 15 ∧ u.fld MT_CFG 12 10 = c.phyupdMax % 2 ^ 10 ∧
          (∀ b e, c.routes = [(b, e)] → b < 2 ^ 15 → u.route b = fitTo 32 e ∧ ∀ k, k ≠ b → u.route k = s.route k) ∧
          (∀ w, w < 6 → u.reg (SE_MR 5 w) = leAt (sha384 (s.mr 5 ++ sha384 c.record)) (8 * w) 8) ∧
          (c.approved = true → u.approved = true) ∧ (c.lock = true → u.locked = true) ∧ (c.lock = false → u.locked = s.locked) ∧
          (s.registryList = [] → u.flag TK_STATUS 3 = true) ∧
          (let go := c.valid = true ∧ s.registryList ≠ [] ∧ s.ctl.trained = true ∧ s.ctl.trainBad = false ∧ s.ctl.mbistBad = false ∧
             s.flag TT_MBIST_STATUS 10 = true
           (go → u.valid = true) ∧ (¬ go → u.valid = s.valid)) ∧ OnlyParts [.ctl, .regs, .fab] s u)))
end

