-- ==== Sys2Proof/Laws/Memory.lean ====
section
/-! SUPPORT. Memory: every operation keeps the canonical form, a read after a write gives the value written, and a write leaves
every other byte alone. -/

namespace Sys2Proof.Machine

theorem wfFrom_mono {a b : Nat} (hab : a ≤ b) : ∀ m, Memory.wfFrom b m = true → Memory.wfFrom a m = true
  | [], _ => rfl
  | (k, v) :: r, h => by
    simp only [Memory.wfFrom, Bool.and_eq_true, decide_eq_true_eq] at h ⊢
    exact ⟨⟨by omega, h.1.2⟩, h.2⟩

theorem wfFrom_put (v : Byte) : ∀ (m : List Host.Cell) (lo k : Nat), lo ≤ k → Memory.wfFrom lo m = true → Memory.wfFrom lo (memPut m k v) = true
  | [], lo, k, hk, _ => by
    by_cases hv : v = 0#8 <;> simp [memPut, hv, Memory.wfFrom, hk]
  | (a, b) :: r, lo, k, hk, h => by
    simp only [Memory.wfFrom, Bool.and_eq_true, decide_eq_true_eq] at h
    unfold memPut
    split
    · split
      · simp [Memory.wfFrom, h]
      · rename_i h1 h2
        simp [Memory.wfFrom, hk, h2, h.1.2, h.2]; omega
    · split
      · rename_i h1 h2; subst h2
        split
        · exact wfFrom_mono (by omega) _ h.2
        · rename_i h3; simp [Memory.wfFrom, hk, h3, h.2]
      · rename_i h1 h2
        simp only [Memory.wfFrom, Bool.and_eq_true, decide_eq_true_eq]
        exact ⟨h.1, wfFrom_put v r (a+1) k (by omega) h.2⟩

theorem wfFrom_puts : ∀ (bs : List Byte) (m : List Host.Cell) (lo k : Nat), lo ≤ k → Memory.wfFrom lo m = true → Memory.wfFrom lo (memPuts m k bs) = true
  | [], _, _, _, _, h => h
  | b :: bs, m, lo, k, hk, h => wfFrom_puts bs _ lo (k+1) (by omega) (wfFrom_put b m lo k hk h)

theorem wfFrom_filter (p : Host.Cell → Bool) : ∀ (m : List Host.Cell) (lo : Nat), Memory.wfFrom lo m = true → Memory.wfFrom lo (m.filter p) = true
  | [], _, _ => rfl
  | (a, b) :: r, lo, h => by
    simp only [Memory.wfFrom, Bool.and_eq_true, decide_eq_true_eq] at h
    rw [List.filter_cons]
    split
    · simp only [Memory.wfFrom, Bool.and_eq_true, decide_eq_true_eq]; exact ⟨h.1, wfFrom_filter p r _ h.2⟩
    · exact wfFrom_mono (by omega) _ (wfFrom_filter p r _ h.2)

/-- Below its first key a canonical memory reads as zero. -/
theorem memGet_below : ∀ (m : List Host.Cell) (lo k : Nat), Memory.wfFrom lo m = true → k < lo → memGet m k = 0#8
  | [], _, _, _, _ => rfl
  | (a, b) :: r, lo, k, h, hk => by
    simp only [Memory.wfFrom, Bool.and_eq_true, decide_eq_true_eq] at h
    unfold memGet
    rw [if_neg (by omega), if_pos (by omega)]

/-- A byte reads as written, and every other byte as before. -/
theorem memGet_put (v : Byte) : ∀ (m : List Host.Cell) (lo k x : Nat), Memory.wfFrom lo m = true →
    memGet (memPut m k v) x = if x = k then v else memGet m x
  | [], lo, k, x, _ => by
    by_cases hv : v = 0#8
    · subst hv; simp [memPut, memGet]
    · simp only [memPut, hv, if_false, memGet]
      by_cases e : x = k
      · simp [e]
      · rw [if_neg (fun c => e c.symm), if_neg e, ite_self]
  | (a, b) :: r, lo, k, x, h => by
    simp only [Memory.wfFrom, Bool.and_eq_true, decide_eq_true_eq] at h
    unfold memPut
    split
    · rename_i h1
      by_cases e : x = k
      · subst e
        split
        · rename_i hv; rw [if_pos rfl, hv]; unfold memGet; rw [if_neg (by omega), if_pos h1]
        · rw [if_pos rfl]; unfold memGet; rw [if_pos rfl]
      · rw [if_neg e]
        split
        · rfl
        · conv => lhs; unfold memGet
          rw [if_neg (fun c => e c.symm)]
          split
          · rename_i h3; unfold memGet; rw [if_neg (by omega), if_pos (by omega)]
          · rfl
    · split
      · rename_i h1 h2; subst h2
        by_cases e : x = k
        · subst e
          split
          · rename_i hv; rw [if_pos rfl, hv]; exact memGet_below r _ _ h.2 (by omega)
          · rw [if_pos rfl]; unfold memGet; rw [if_pos rfl]
        · rw [if_neg e]
          split
          · conv => rhs; unfold memGet
            rw [if_neg (fun c => e c.symm)]
            split
            · exact memGet_below r _ _ h.2 (by omega)
            · rfl
          · conv => lhs; unfold memGet
            conv => rhs; unfold memGet
            have e2 : ¬ k = x := fun c => e c.symm
            simp only [e2, if_false]
      · rename_i h1 h2
        conv => lhs; unfold memGet
        rw [memGet_put v r (a + 1) k x h.2]
        conv => rhs; rhs; unfold memGet
        by_cases e : x = k
        · subst e; rw [if_neg (by omega), if_neg (by omega)]; simp
        · simp only [e, if_false]

/-- Bytes read as written, and every other byte as before. -/
theorem memGet_puts : ∀ (bs : List Byte) (m : List Host.Cell) (k x : Nat), Memory.wfFrom 0 m = true →
    memGet (memPuts m k bs) x = if k ≤ x ∧ x < k + bs.length then (bs[x - k]?).getD 0#8 else memGet m x
  | [], m, k, x, _ => by
    have : ¬ (k ≤ x ∧ x < k + ([] : List Byte).length) := by simp
    rw [if_neg this]; rfl
  | b :: bs, m, k, x, h => by
    have h1 := wfFrom_put b m 0 k (Nat.zero_le _) h
    show memGet (memPuts (memPut m k b) (k + 1) bs) x = _
    rw [memGet_puts bs _ (k + 1) x h1, memGet_put b m 0 k x h]
    simp only [List.length_cons]
    by_cases e : x = k
    · subst e
      rw [if_neg (by omega), if_pos rfl, if_pos (by omega)]; simp
    · by_cases g : k + 1 ≤ x ∧ x < k + 1 + bs.length
      · rw [if_pos g, if_pos (by omega)]
        have : x - k = (x - (k + 1)) + 1 := by omega
        rw [this]; simp
      · rw [if_neg g, if_neg e, if_neg (by omega)]

/-- What a store leaves: the bytes given from the key on, every other byte as before. -/
theorem store_byteAt (s : State) (k : Nat) (bs : List Byte) (x : Nat) (h : Memory.wf s.mem = true) :
    (s.store k bs).byteAt x = if k ≤ x ∧ x < k + bs.length then (bs[x - k]?).getD 0#8 else s.byteAt x :=
  memGet_puts bs s.mem k x h

/-- Reading back the whole of a store. -/
theorem store_bytesAt (s : State) (k : Nat) (bs : List Byte) (h : Memory.wf s.mem = true) : (s.store k bs).bytesAt k bs.length = bs := by
  apply List.ext_getElem
  · simp [State.bytesAt]
  · intro i h1 h2
    simp only [State.bytesAt, List.getElem_map, List.getElem_range]
    have := store_byteAt s k bs (k + i) h
    simp only [State.byteAt] at this
    rw [this, if_pos (by omega)]
    simp [h2]

theorem store_wf (s : State) (k : Nat) (bs : List Byte) (h : Memory.wf s.mem = true) : Memory.wf (s.store k bs).mem = true :=
  wfFrom_puts bs _ 0 k (Nat.zero_le _) h

end Sys2Proof.Machine
end

