-- ==== Sys2Proof/Laws/State.lean ====
section
/-! SUPPORT. Each update of a part of the state leaves every other part alone; registers read as written. -/

namespace Sys2Proof.Machine

@[simp] theorem State.setReg_ctl (s : State) (off v : Nat) : (s.setReg off v).ctl = s.ctl := rfl
@[simp] theorem State.setReg_mem (s : State) (off v : Nat) : (s.setReg off v).mem = s.mem := rfl
@[simp] theorem State.setReg_poison (s : State) (off v : Nat) : (s.setReg off v).poison = s.poison := rfl
@[simp] theorem State.setReg_rings (s : State) (off v : Nat) : (s.setReg off v).rings = s.rings := rfl
@[simp] theorem State.setReg_lastRef (s : State) (off v : Nat) : (s.setReg off v).lastRef = s.lastRef := rfl
@[simp] theorem State.setReg_cmds (s : State) (off v : Nat) : (s.setReg off v).cmds = s.cmds := rfl
@[simp] theorem State.setReg_tab (s : State) (off v : Nat) : (s.setReg off v).tab = s.tab := rfl
@[simp] theorem State.setReg_cache (s : State) (off v : Nat) : (s.setReg off v).cache = s.cache := rfl
@[simp] theorem State.setReg_fab (s : State) (off v : Nat) : (s.setReg off v).fab = s.fab := rfl
@[simp] theorem State.setReg_tu (s : State) (off v : Nat) : (s.setReg off v).tu = s.tu := rfl
@[simp] theorem State.setReg_fuses (s : State) (off v : Nat) : (s.setReg off v).fuses = s.fuses := rfl
@[simp] theorem State.setReg_flash (s : State) (off v : Nat) : (s.setReg off v).flash = s.flash := rfl
@[simp] theorem State.setReg_sec (s : State) (off v : Nat) : (s.setReg off v).sec = s.sec := rfl
@[simp] theorem State.setReg_spine (s : State) (off v : Nat) : (s.setReg off v).spine = s.spine := rfl
@[simp] theorem State.setReg_pending (s : State) (off v : Nat) : (s.setReg off v).pending = s.pending := rfl

@[simp] theorem State.upCtl_ctl (s : State) (f : Ctl → Ctl) : (s.upCtl f).ctl = f s.ctl := rfl
@[simp] theorem State.upCtl_regs (s : State) (f : Ctl → Ctl) : (s.upCtl f).regs = s.regs := rfl
@[simp] theorem State.upCtl_mem (s : State) (f : Ctl → Ctl) : (s.upCtl f).mem = s.mem := rfl
@[simp] theorem State.upCtl_poison (s : State) (f : Ctl → Ctl) : (s.upCtl f).poison = s.poison := rfl
@[simp] theorem State.upCtl_rings (s : State) (f : Ctl → Ctl) : (s.upCtl f).rings = s.rings := rfl
@[simp] theorem State.upCtl_lastRef (s : State) (f : Ctl → Ctl) : (s.upCtl f).lastRef = s.lastRef := rfl
@[simp] theorem State.upCtl_cmds (s : State) (f : Ctl → Ctl) : (s.upCtl f).cmds = s.cmds := rfl
@[simp] theorem State.upCtl_tab (s : State) (f : Ctl → Ctl) : (s.upCtl f).tab = s.tab := rfl
@[simp] theorem State.upCtl_cache (s : State) (f : Ctl → Ctl) : (s.upCtl f).cache = s.cache := rfl
@[simp] theorem State.upCtl_fab (s : State) (f : Ctl → Ctl) : (s.upCtl f).fab = s.fab := rfl
@[simp] theorem State.upCtl_tu (s : State) (f : Ctl → Ctl) : (s.upCtl f).tu = s.tu := rfl
@[simp] theorem State.upCtl_fuses (s : State) (f : Ctl → Ctl) : (s.upCtl f).fuses = s.fuses := rfl
@[simp] theorem State.upCtl_flash (s : State) (f : Ctl → Ctl) : (s.upCtl f).flash = s.flash := rfl
@[simp] theorem State.upCtl_sec (s : State) (f : Ctl → Ctl) : (s.upCtl f).sec = s.sec := rfl
@[simp] theorem State.upCtl_spine (s : State) (f : Ctl → Ctl) : (s.upCtl f).spine = s.spine := rfl
@[simp] theorem State.upCtl_pending (s : State) (f : Ctl → Ctl) : (s.upCtl f).pending = s.pending := rfl

@[simp] theorem State.upTab_ctl (s : State) (f : Tables → Tables) : (s.upTab f).ctl = s.ctl := rfl
@[simp] theorem State.upTab_regs (s : State) (f : Tables → Tables) : (s.upTab f).regs = s.regs := rfl
@[simp] theorem State.upTab_mem (s : State) (f : Tables → Tables) : (s.upTab f).mem = s.mem := rfl
@[simp] theorem State.upTab_poison (s : State) (f : Tables → Tables) : (s.upTab f).poison = s.poison := rfl
@[simp] theorem State.upTab_rings (s : State) (f : Tables → Tables) : (s.upTab f).rings = s.rings := rfl
@[simp] theorem State.upTab_lastRef (s : State) (f : Tables → Tables) : (s.upTab f).lastRef = s.lastRef := rfl
@[simp] theorem State.upTab_cmds (s : State) (f : Tables → Tables) : (s.upTab f).cmds = s.cmds := rfl
@[simp] theorem State.upTab_tab (s : State) (f : Tables → Tables) : (s.upTab f).tab = f s.tab := rfl
@[simp] theorem State.upTab_cache (s : State) (f : Tables → Tables) : (s.upTab f).cache = s.cache := rfl
@[simp] theorem State.upTab_fab (s : State) (f : Tables → Tables) : (s.upTab f).fab = s.fab := rfl
@[simp] theorem State.upTab_tu (s : State) (f : Tables → Tables) : (s.upTab f).tu = s.tu := rfl
@[simp] theorem State.upTab_fuses (s : State) (f : Tables → Tables) : (s.upTab f).fuses = s.fuses := rfl
@[simp] theorem State.upTab_flash (s : State) (f : Tables → Tables) : (s.upTab f).flash = s.flash := rfl
@[simp] theorem State.upTab_sec (s : State) (f : Tables → Tables) : (s.upTab f).sec = s.sec := rfl
@[simp] theorem State.upTab_spine (s : State) (f : Tables → Tables) : (s.upTab f).spine = s.spine := rfl
@[simp] theorem State.upTab_pending (s : State) (f : Tables → Tables) : (s.upTab f).pending = s.pending := rfl

@[simp] theorem State.upCache_ctl (s : State) (f : Caches → Caches) : (s.upCache f).ctl = s.ctl := rfl
@[simp] theorem State.upCache_regs (s : State) (f : Caches → Caches) : (s.upCache f).regs = s.regs := rfl
@[simp] theorem State.upCache_mem (s : State) (f : Caches → Caches) : (s.upCache f).mem = s.mem := rfl
@[simp] theorem State.upCache_poison (s : State) (f : Caches → Caches) : (s.upCache f).poison = s.poison := rfl
@[simp] theorem State.upCache_rings (s : State) (f : Caches → Caches) : (s.upCache f).rings = s.rings := rfl
@[simp] theorem State.upCache_lastRef (s : State) (f : Caches → Caches) : (s.upCache f).lastRef = s.lastRef := rfl
@[simp] theorem State.upCache_cmds (s : State) (f : Caches → Caches) : (s.upCache f).cmds = s.cmds := rfl
@[simp] theorem State.upCache_tab (s : State) (f : Caches → Caches) : (s.upCache f).tab = s.tab := rfl
@[simp] theorem State.upCache_cache (s : State) (f : Caches → Caches) : (s.upCache f).cache = f s.cache := rfl
@[simp] theorem State.upCache_fab (s : State) (f : Caches → Caches) : (s.upCache f).fab = s.fab := rfl
@[simp] theorem State.upCache_tu (s : State) (f : Caches → Caches) : (s.upCache f).tu = s.tu := rfl
@[simp] theorem State.upCache_fuses (s : State) (f : Caches → Caches) : (s.upCache f).fuses = s.fuses := rfl
@[simp] theorem State.upCache_flash (s : State) (f : Caches → Caches) : (s.upCache f).flash = s.flash := rfl
@[simp] theorem State.upCache_sec (s : State) (f : Caches → Caches) : (s.upCache f).sec = s.sec := rfl
@[simp] theorem State.upCache_spine (s : State) (f : Caches → Caches) : (s.upCache f).spine = s.spine := rfl
@[simp] theorem State.upCache_pending (s : State) (f : Caches → Caches) : (s.upCache f).pending = s.pending := rfl

@[simp] theorem State.upFab_ctl (s : State) (f : Fabric → Fabric) : (s.upFab f).ctl = s.ctl := rfl
@[simp] theorem State.upFab_regs (s : State) (f : Fabric → Fabric) : (s.upFab f).regs = s.regs := rfl
@[simp] theorem State.upFab_mem (s : State) (f : Fabric → Fabric) : (s.upFab f).mem = s.mem := rfl
@[simp] theorem State.upFab_poison (s : State) (f : Fabric → Fabric) : (s.upFab f).poison = s.poison := rfl
@[simp] theorem State.upFab_rings (s : State) (f : Fabric → Fabric) : (s.upFab f).rings = s.rings := rfl
@[simp] theorem State.upFab_lastRef (s : State) (f : Fabric → Fabric) : (s.upFab f).lastRef = s.lastRef := rfl
@[simp] theorem State.upFab_cmds (s : State) (f : Fabric → Fabric) : (s.upFab f).cmds = s.cmds := rfl
@[simp] theorem State.upFab_tab (s : State) (f : Fabric → Fabric) : (s.upFab f).tab = s.tab := rfl
@[simp] theorem State.upFab_cache (s : State) (f : Fabric → Fabric) : (s.upFab f).cache = s.cache := rfl
@[simp] theorem State.upFab_fab (s : State) (f : Fabric → Fabric) : (s.upFab f).fab = f s.fab := rfl
@[simp] theorem State.upFab_tu (s : State) (f : Fabric → Fabric) : (s.upFab f).tu = s.tu := rfl
@[simp] theorem State.upFab_fuses (s : State) (f : Fabric → Fabric) : (s.upFab f).fuses = s.fuses := rfl
@[simp] theorem State.upFab_flash (s : State) (f : Fabric → Fabric) : (s.upFab f).flash = s.flash := rfl
@[simp] theorem State.upFab_sec (s : State) (f : Fabric → Fabric) : (s.upFab f).sec = s.sec := rfl
@[simp] theorem State.upFab_spine (s : State) (f : Fabric → Fabric) : (s.upFab f).spine = s.spine := rfl
@[simp] theorem State.upFab_pending (s : State) (f : Fabric → Fabric) : (s.upFab f).pending = s.pending := rfl

@[simp] theorem State.upTu_ctl (s : State) (f : Trans → Trans) : (s.upTu f).ctl = s.ctl := rfl
@[simp] theorem State.upTu_regs (s : State) (f : Trans → Trans) : (s.upTu f).regs = s.regs := rfl
@[simp] theorem State.upTu_mem (s : State) (f : Trans → Trans) : (s.upTu f).mem = s.mem := rfl
@[simp] theorem State.upTu_poison (s : State) (f : Trans → Trans) : (s.upTu f).poison = s.poison := rfl
@[simp] theorem State.upTu_rings (s : State) (f : Trans → Trans) : (s.upTu f).rings = s.rings := rfl
@[simp] theorem State.upTu_lastRef (s : State) (f : Trans → Trans) : (s.upTu f).lastRef = s.lastRef := rfl
@[simp] theorem State.upTu_cmds (s : State) (f : Trans → Trans) : (s.upTu f).cmds = s.cmds := rfl
@[simp] theorem State.upTu_tab (s : State) (f : Trans → Trans) : (s.upTu f).tab = s.tab := rfl
@[simp] theorem State.upTu_cache (s : State) (f : Trans → Trans) : (s.upTu f).cache = s.cache := rfl
@[simp] theorem State.upTu_fab (s : State) (f : Trans → Trans) : (s.upTu f).fab = s.fab := rfl
@[simp] theorem State.upTu_tu (s : State) (f : Trans → Trans) : (s.upTu f).tu = f s.tu := rfl
@[simp] theorem State.upTu_fuses (s : State) (f : Trans → Trans) : (s.upTu f).fuses = s.fuses := rfl
@[simp] theorem State.upTu_flash (s : State) (f : Trans → Trans) : (s.upTu f).flash = s.flash := rfl
@[simp] theorem State.upTu_sec (s : State) (f : Trans → Trans) : (s.upTu f).sec = s.sec := rfl
@[simp] theorem State.upTu_spine (s : State) (f : Trans → Trans) : (s.upTu f).spine = s.spine := rfl
@[simp] theorem State.upTu_pending (s : State) (f : Trans → Trans) : (s.upTu f).pending = s.pending := rfl

@[simp] theorem State.upSec_ctl (s : State) (f : Sec → Sec) : (s.upSec f).ctl = s.ctl := rfl
@[simp] theorem State.upSec_regs (s : State) (f : Sec → Sec) : (s.upSec f).regs = s.regs := rfl
@[simp] theorem State.upSec_mem (s : State) (f : Sec → Sec) : (s.upSec f).mem = s.mem := rfl
@[simp] theorem State.upSec_poison (s : State) (f : Sec → Sec) : (s.upSec f).poison = s.poison := rfl
@[simp] theorem State.upSec_rings (s : State) (f : Sec → Sec) : (s.upSec f).rings = s.rings := rfl
@[simp] theorem State.upSec_lastRef (s : State) (f : Sec → Sec) : (s.upSec f).lastRef = s.lastRef := rfl
@[simp] theorem State.upSec_cmds (s : State) (f : Sec → Sec) : (s.upSec f).cmds = s.cmds := rfl
@[simp] theorem State.upSec_tab (s : State) (f : Sec → Sec) : (s.upSec f).tab = s.tab := rfl
@[simp] theorem State.upSec_cache (s : State) (f : Sec → Sec) : (s.upSec f).cache = s.cache := rfl
@[simp] theorem State.upSec_fab (s : State) (f : Sec → Sec) : (s.upSec f).fab = s.fab := rfl
@[simp] theorem State.upSec_tu (s : State) (f : Sec → Sec) : (s.upSec f).tu = s.tu := rfl
@[simp] theorem State.upSec_fuses (s : State) (f : Sec → Sec) : (s.upSec f).fuses = s.fuses := rfl
@[simp] theorem State.upSec_flash (s : State) (f : Sec → Sec) : (s.upSec f).flash = s.flash := rfl
@[simp] theorem State.upSec_sec (s : State) (f : Sec → Sec) : (s.upSec f).sec = f s.sec := rfl
@[simp] theorem State.upSec_spine (s : State) (f : Sec → Sec) : (s.upSec f).spine = s.spine := rfl
@[simp] theorem State.upSec_pending (s : State) (f : Sec → Sec) : (s.upSec f).pending = s.pending := rfl

@[simp] theorem State.upFlash_ctl (s : State) (f : Flash → Flash) : (s.upFlash f).ctl = s.ctl := rfl
@[simp] theorem State.upFlash_regs (s : State) (f : Flash → Flash) : (s.upFlash f).regs = s.regs := rfl
@[simp] theorem State.upFlash_mem (s : State) (f : Flash → Flash) : (s.upFlash f).mem = s.mem := rfl
@[simp] theorem State.upFlash_poison (s : State) (f : Flash → Flash) : (s.upFlash f).poison = s.poison := rfl
@[simp] theorem State.upFlash_rings (s : State) (f : Flash → Flash) : (s.upFlash f).rings = s.rings := rfl
@[simp] theorem State.upFlash_lastRef (s : State) (f : Flash → Flash) : (s.upFlash f).lastRef = s.lastRef := rfl
@[simp] theorem State.upFlash_cmds (s : State) (f : Flash → Flash) : (s.upFlash f).cmds = s.cmds := rfl
@[simp] theorem State.upFlash_tab (s : State) (f : Flash → Flash) : (s.upFlash f).tab = s.tab := rfl
@[simp] theorem State.upFlash_cache (s : State) (f : Flash → Flash) : (s.upFlash f).cache = s.cache := rfl
@[simp] theorem State.upFlash_fab (s : State) (f : Flash → Flash) : (s.upFlash f).fab = s.fab := rfl
@[simp] theorem State.upFlash_tu (s : State) (f : Flash → Flash) : (s.upFlash f).tu = s.tu := rfl
@[simp] theorem State.upFlash_fuses (s : State) (f : Flash → Flash) : (s.upFlash f).fuses = s.fuses := rfl
@[simp] theorem State.upFlash_flash (s : State) (f : Flash → Flash) : (s.upFlash f).flash = f s.flash := rfl
@[simp] theorem State.upFlash_sec (s : State) (f : Flash → Flash) : (s.upFlash f).sec = s.sec := rfl
@[simp] theorem State.upFlash_spine (s : State) (f : Flash → Flash) : (s.upFlash f).spine = s.spine := rfl
@[simp] theorem State.upFlash_pending (s : State) (f : Flash → Flash) : (s.upFlash f).pending = s.pending := rfl

@[simp] theorem State.upSpine_ctl (s : State) (f : Spine → Spine) : (s.upSpine f).ctl = s.ctl := rfl
@[simp] theorem State.upSpine_regs (s : State) (f : Spine → Spine) : (s.upSpine f).regs = s.regs := rfl
@[simp] theorem State.upSpine_mem (s : State) (f : Spine → Spine) : (s.upSpine f).mem = s.mem := rfl
@[simp] theorem State.upSpine_poison (s : State) (f : Spine → Spine) : (s.upSpine f).poison = s.poison := rfl
@[simp] theorem State.upSpine_rings (s : State) (f : Spine → Spine) : (s.upSpine f).rings = s.rings := rfl
@[simp] theorem State.upSpine_lastRef (s : State) (f : Spine → Spine) : (s.upSpine f).lastRef = s.lastRef := rfl
@[simp] theorem State.upSpine_cmds (s : State) (f : Spine → Spine) : (s.upSpine f).cmds = s.cmds := rfl
@[simp] theorem State.upSpine_tab (s : State) (f : Spine → Spine) : (s.upSpine f).tab = s.tab := rfl
@[simp] theorem State.upSpine_cache (s : State) (f : Spine → Spine) : (s.upSpine f).cache = s.cache := rfl
@[simp] theorem State.upSpine_fab (s : State) (f : Spine → Spine) : (s.upSpine f).fab = s.fab := rfl
@[simp] theorem State.upSpine_tu (s : State) (f : Spine → Spine) : (s.upSpine f).tu = s.tu := rfl
@[simp] theorem State.upSpine_fuses (s : State) (f : Spine → Spine) : (s.upSpine f).fuses = s.fuses := rfl
@[simp] theorem State.upSpine_flash (s : State) (f : Spine → Spine) : (s.upSpine f).flash = s.flash := rfl
@[simp] theorem State.upSpine_sec (s : State) (f : Spine → Spine) : (s.upSpine f).sec = s.sec := rfl
@[simp] theorem State.upSpine_spine (s : State) (f : Spine → Spine) : (s.upSpine f).spine = f s.spine := rfl
@[simp] theorem State.upSpine_pending (s : State) (f : Spine → Spine) : (s.upSpine f).pending = s.pending := rfl

@[simp] theorem State.upCmds_ctl (s : State) (f : List Cmd → List Cmd) : (s.upCmds f).ctl = s.ctl := rfl
@[simp] theorem State.upCmds_regs (s : State) (f : List Cmd → List Cmd) : (s.upCmds f).regs = s.regs := rfl
@[simp] theorem State.upCmds_mem (s : State) (f : List Cmd → List Cmd) : (s.upCmds f).mem = s.mem := rfl
@[simp] theorem State.upCmds_poison (s : State) (f : List Cmd → List Cmd) : (s.upCmds f).poison = s.poison := rfl
@[simp] theorem State.upCmds_rings (s : State) (f : List Cmd → List Cmd) : (s.upCmds f).rings = s.rings := rfl
@[simp] theorem State.upCmds_lastRef (s : State) (f : List Cmd → List Cmd) : (s.upCmds f).lastRef = s.lastRef := rfl
@[simp] theorem State.upCmds_cmds (s : State) (f : List Cmd → List Cmd) : (s.upCmds f).cmds = f s.cmds := rfl
@[simp] theorem State.upCmds_tab (s : State) (f : List Cmd → List Cmd) : (s.upCmds f).tab = s.tab := rfl
@[simp] theorem State.upCmds_cache (s : State) (f : List Cmd → List Cmd) : (s.upCmds f).cache = s.cache := rfl
@[simp] theorem State.upCmds_fab (s : State) (f : List Cmd → List Cmd) : (s.upCmds f).fab = s.fab := rfl
@[simp] theorem State.upCmds_tu (s : State) (f : List Cmd → List Cmd) : (s.upCmds f).tu = s.tu := rfl
@[simp] theorem State.upCmds_fuses (s : State) (f : List Cmd → List Cmd) : (s.upCmds f).fuses = s.fuses := rfl
@[simp] theorem State.upCmds_flash (s : State) (f : List Cmd → List Cmd) : (s.upCmds f).flash = s.flash := rfl
@[simp] theorem State.upCmds_sec (s : State) (f : List Cmd → List Cmd) : (s.upCmds f).sec = s.sec := rfl
@[simp] theorem State.upCmds_spine (s : State) (f : List Cmd → List Cmd) : (s.upCmds f).spine = s.spine := rfl
@[simp] theorem State.upCmds_pending (s : State) (f : List Cmd → List Cmd) : (s.upCmds f).pending = s.pending := rfl

@[simp] theorem State.setLastRef_ctl (s : State) (r : Nat) : (s.setLastRef r).ctl = s.ctl := rfl
@[simp] theorem State.setLastRef_regs (s : State) (r : Nat) : (s.setLastRef r).regs = s.regs := rfl
@[simp] theorem State.setLastRef_mem (s : State) (r : Nat) : (s.setLastRef r).mem = s.mem := rfl
@[simp] theorem State.setLastRef_poison (s : State) (r : Nat) : (s.setLastRef r).poison = s.poison := rfl
@[simp] theorem State.setLastRef_rings (s : State) (r : Nat) : (s.setLastRef r).rings = s.rings := rfl
@[simp] theorem State.setLastRef_lastRef (s : State) (r : Nat) : (s.setLastRef r).lastRef = r := rfl
@[simp] theorem State.setLastRef_cmds (s : State) (r : Nat) : (s.setLastRef r).cmds = s.cmds := rfl
@[simp] theorem State.setLastRef_tab (s : State) (r : Nat) : (s.setLastRef r).tab = s.tab := rfl
@[simp] theorem State.setLastRef_cache (s : State) (r : Nat) : (s.setLastRef r).cache = s.cache := rfl
@[simp] theorem State.setLastRef_fab (s : State) (r : Nat) : (s.setLastRef r).fab = s.fab := rfl
@[simp] theorem State.setLastRef_tu (s : State) (r : Nat) : (s.setLastRef r).tu = s.tu := rfl
@[simp] theorem State.setLastRef_fuses (s : State) (r : Nat) : (s.setLastRef r).fuses = s.fuses := rfl
@[simp] theorem State.setLastRef_flash (s : State) (r : Nat) : (s.setLastRef r).flash = s.flash := rfl
@[simp] theorem State.setLastRef_sec (s : State) (r : Nat) : (s.setLastRef r).sec = s.sec := rfl
@[simp] theorem State.setLastRef_spine (s : State) (r : Nat) : (s.setLastRef r).spine = s.spine := rfl
@[simp] theorem State.setLastRef_pending (s : State) (r : Nat) : (s.setLastRef r).pending = s.pending := rfl

@[simp] theorem State.addPoison_ctl (s : State) (w : Nat) : (s.addPoison w).ctl = s.ctl := rfl
@[simp] theorem State.addPoison_regs (s : State) (w : Nat) : (s.addPoison w).regs = s.regs := rfl
@[simp] theorem State.addPoison_mem (s : State) (w : Nat) : (s.addPoison w).mem = s.mem := rfl
@[simp] theorem State.addPoison_poison (s : State) (w : Nat) : (s.addPoison w).poison = insertNat w s.poison := rfl
@[simp] theorem State.addPoison_rings (s : State) (w : Nat) : (s.addPoison w).rings = s.rings := rfl
@[simp] theorem State.addPoison_lastRef (s : State) (w : Nat) : (s.addPoison w).lastRef = s.lastRef := rfl
@[simp] theorem State.addPoison_cmds (s : State) (w : Nat) : (s.addPoison w).cmds = s.cmds := rfl
@[simp] theorem State.addPoison_tab (s : State) (w : Nat) : (s.addPoison w).tab = s.tab := rfl
@[simp] theorem State.addPoison_cache (s : State) (w : Nat) : (s.addPoison w).cache = s.cache := rfl
@[simp] theorem State.addPoison_fab (s : State) (w : Nat) : (s.addPoison w).fab = s.fab := rfl
@[simp] theorem State.addPoison_tu (s : State) (w : Nat) : (s.addPoison w).tu = s.tu := rfl
@[simp] theorem State.addPoison_fuses (s : State) (w : Nat) : (s.addPoison w).fuses = s.fuses := rfl
@[simp] theorem State.addPoison_flash (s : State) (w : Nat) : (s.addPoison w).flash = s.flash := rfl
@[simp] theorem State.addPoison_sec (s : State) (w : Nat) : (s.addPoison w).sec = s.sec := rfl
@[simp] theorem State.addPoison_spine (s : State) (w : Nat) : (s.addPoison w).spine = s.spine := rfl
@[simp] theorem State.addPoison_pending (s : State) (w : Nat) : (s.addPoison w).pending = s.pending := rfl

@[simp] theorem State.setRing_ctl (s : State) (n : Nat) (r : Ring) : (s.setRing n r).ctl = s.ctl := rfl
@[simp] theorem State.setRing_regs (s : State) (n : Nat) (r : Ring) : (s.setRing n r).regs = s.regs := rfl
@[simp] theorem State.setRing_mem (s : State) (n : Nat) (r : Ring) : (s.setRing n r).mem = s.mem := rfl
@[simp] theorem State.setRing_poison (s : State) (n : Nat) (r : Ring) : (s.setRing n r).poison = s.poison := rfl
@[simp] theorem State.setRing_rings (s : State) (n : Nat) (r : Ring) : (s.setRing n r).rings = insertBy n r s.rings := rfl
@[simp] theorem State.setRing_lastRef (s : State) (n : Nat) (r : Ring) : (s.setRing n r).lastRef = s.lastRef := rfl
@[simp] theorem State.setRing_cmds (s : State) (n : Nat) (r : Ring) : (s.setRing n r).cmds = s.cmds := rfl
@[simp] theorem State.setRing_tab (s : State) (n : Nat) (r : Ring) : (s.setRing n r).tab = s.tab := rfl
@[simp] theorem State.setRing_cache (s : State) (n : Nat) (r : Ring) : (s.setRing n r).cache = s.cache := rfl
@[simp] theorem State.setRing_fab (s : State) (n : Nat) (r : Ring) : (s.setRing n r).fab = s.fab := rfl
@[simp] theorem State.setRing_tu (s : State) (n : Nat) (r : Ring) : (s.setRing n r).tu = s.tu := rfl
@[simp] theorem State.setRing_fuses (s : State) (n : Nat) (r : Ring) : (s.setRing n r).fuses = s.fuses := rfl
@[simp] theorem State.setRing_flash (s : State) (n : Nat) (r : Ring) : (s.setRing n r).flash = s.flash := rfl
@[simp] theorem State.setRing_sec (s : State) (n : Nat) (r : Ring) : (s.setRing n r).sec = s.sec := rfl
@[simp] theorem State.setRing_spine (s : State) (n : Nat) (r : Ring) : (s.setRing n r).spine = s.spine := rfl
@[simp] theorem State.setRing_pending (s : State) (n : Nat) (r : Ring) : (s.setRing n r).pending = s.pending := rfl

@[simp] theorem State.upCmd_ctl (s : State) (h : Nat) (f : Cmd → Cmd) : (s.upCmd h f).ctl = s.ctl := rfl
@[simp] theorem State.upCmd_regs (s : State) (h : Nat) (f : Cmd → Cmd) : (s.upCmd h f).regs = s.regs := rfl
@[simp] theorem State.upCmd_mem (s : State) (h : Nat) (f : Cmd → Cmd) : (s.upCmd h f).mem = s.mem := rfl
@[simp] theorem State.upCmd_poison (s : State) (h : Nat) (f : Cmd → Cmd) : (s.upCmd h f).poison = s.poison := rfl
@[simp] theorem State.upCmd_rings (s : State) (h : Nat) (f : Cmd → Cmd) : (s.upCmd h f).rings = s.rings := rfl
@[simp] theorem State.upCmd_lastRef (s : State) (h : Nat) (f : Cmd → Cmd) : (s.upCmd h f).lastRef = s.lastRef := rfl
@[simp] theorem State.upCmd_cmds (s : State) (h : Nat) (f : Cmd → Cmd) : (s.upCmd h f).cmds = updFirst (fun c => c.handle == h) f s.cmds := rfl
@[simp] theorem State.upCmd_tab (s : State) (h : Nat) (f : Cmd → Cmd) : (s.upCmd h f).tab = s.tab := rfl
@[simp] theorem State.upCmd_cache (s : State) (h : Nat) (f : Cmd → Cmd) : (s.upCmd h f).cache = s.cache := rfl
@[simp] theorem State.upCmd_fab (s : State) (h : Nat) (f : Cmd → Cmd) : (s.upCmd h f).fab = s.fab := rfl
@[simp] theorem State.upCmd_tu (s : State) (h : Nat) (f : Cmd → Cmd) : (s.upCmd h f).tu = s.tu := rfl
@[simp] theorem State.upCmd_fuses (s : State) (h : Nat) (f : Cmd → Cmd) : (s.upCmd h f).fuses = s.fuses := rfl
@[simp] theorem State.upCmd_flash (s : State) (h : Nat) (f : Cmd → Cmd) : (s.upCmd h f).flash = s.flash := rfl
@[simp] theorem State.upCmd_sec (s : State) (h : Nat) (f : Cmd → Cmd) : (s.upCmd h f).sec = s.sec := rfl
@[simp] theorem State.upCmd_spine (s : State) (h : Nat) (f : Cmd → Cmd) : (s.upCmd h f).spine = s.spine := rfl
@[simp] theorem State.upCmd_pending (s : State) (h : Nat) (f : Cmd → Cmd) : (s.upCmd h f).pending = s.pending := rfl

@[simp] theorem State.setFld_ctl (s : State) (off lo w x : Nat) : (s.setFld off lo w x).ctl = s.ctl := rfl
@[simp] theorem State.setFld_mem (s : State) (off lo w x : Nat) : (s.setFld off lo w x).mem = s.mem := rfl
@[simp] theorem State.setFld_poison (s : State) (off lo w x : Nat) : (s.setFld off lo w x).poison = s.poison := rfl
@[simp] theorem State.setFld_rings (s : State) (off lo w x : Nat) : (s.setFld off lo w x).rings = s.rings := rfl
@[simp] theorem State.setFld_lastRef (s : State) (off lo w x : Nat) : (s.setFld off lo w x).lastRef = s.lastRef := rfl
@[simp] theorem State.setFld_cmds (s : State) (off lo w x : Nat) : (s.setFld off lo w x).cmds = s.cmds := rfl
@[simp] theorem State.setFld_tab (s : State) (off lo w x : Nat) : (s.setFld off lo w x).tab = s.tab := rfl
@[simp] theorem State.setFld_cache (s : State) (off lo w x : Nat) : (s.setFld off lo w x).cache = s.cache := rfl
@[simp] theorem State.setFld_fab (s : State) (off lo w x : Nat) : (s.setFld off lo w x).fab = s.fab := rfl
@[simp] theorem State.setFld_tu (s : State) (off lo w x : Nat) : (s.setFld off lo w x).tu = s.tu := rfl
@[simp] theorem State.setFld_fuses (s : State) (off lo w x : Nat) : (s.setFld off lo w x).fuses = s.fuses := rfl
@[simp] theorem State.setFld_flash (s : State) (off lo w x : Nat) : (s.setFld off lo w x).flash = s.flash := rfl
@[simp] theorem State.setFld_sec (s : State) (off lo w x : Nat) : (s.setFld off lo w x).sec = s.sec := rfl
@[simp] theorem State.setFld_spine (s : State) (off lo w x : Nat) : (s.setFld off lo w x).spine = s.spine := rfl
@[simp] theorem State.setFld_pending (s : State) (off lo w x : Nat) : (s.setFld off lo w x).pending = s.pending := rfl
@[simp] theorem State.advance_regs (s : State) (t : Nat) : (s.advance t).regs = s.regs := rfl
@[simp] theorem State.advance_mem (s : State) (t : Nat) : (s.advance t).mem = s.mem := rfl
@[simp] theorem State.advance_poison (s : State) (t : Nat) : (s.advance t).poison = s.poison := rfl
@[simp] theorem State.advance_rings (s : State) (t : Nat) : (s.advance t).rings = s.rings := rfl
@[simp] theorem State.advance_lastRef (s : State) (t : Nat) : (s.advance t).lastRef = s.lastRef := rfl
@[simp] theorem State.advance_cmds (s : State) (t : Nat) : (s.advance t).cmds = s.cmds := rfl
@[simp] theorem State.advance_tab (s : State) (t : Nat) : (s.advance t).tab = s.tab := rfl
@[simp] theorem State.advance_cache (s : State) (t : Nat) : (s.advance t).cache = s.cache := rfl
@[simp] theorem State.advance_fab (s : State) (t : Nat) : (s.advance t).fab = s.fab := rfl
@[simp] theorem State.advance_tu (s : State) (t : Nat) : (s.advance t).tu = s.tu := rfl
@[simp] theorem State.advance_fuses (s : State) (t : Nat) : (s.advance t).fuses = s.fuses := rfl
@[simp] theorem State.advance_flash (s : State) (t : Nat) : (s.advance t).flash = s.flash := rfl
@[simp] theorem State.advance_sec (s : State) (t : Nat) : (s.advance t).sec = s.sec := rfl
@[simp] theorem State.advance_spine (s : State) (t : Nat) : (s.advance t).spine = s.spine := rfl
@[simp] theorem State.advance_pending (s : State) (t : Nat) : (s.advance t).pending = s.pending := rfl
@[simp] theorem State.bump_ctl (s : State) (off n : Nat) : (s.bump off n).ctl = s.ctl := by unfold State.bump; split <;> rfl
@[simp] theorem State.bump_mem (s : State) (off n : Nat) : (s.bump off n).mem = s.mem := by unfold State.bump; split <;> rfl
@[simp] theorem State.bump_poison (s : State) (off n : Nat) : (s.bump off n).poison = s.poison := by unfold State.bump; split <;> rfl
@[simp] theorem State.bump_rings (s : State) (off n : Nat) : (s.bump off n).rings = s.rings := by unfold State.bump; split <;> rfl
@[simp] theorem State.bump_lastRef (s : State) (off n : Nat) : (s.bump off n).lastRef = s.lastRef := by unfold State.bump; split <;> rfl
@[simp] theorem State.bump_cmds (s : State) (off n : Nat) : (s.bump off n).cmds = s.cmds := by unfold State.bump; split <;> rfl
@[simp] theorem State.bump_tab (s : State) (off n : Nat) : (s.bump off n).tab = s.tab := by unfold State.bump; split <;> rfl
@[simp] theorem State.bump_cache (s : State) (off n : Nat) : (s.bump off n).cache = s.cache := by unfold State.bump; split <;> rfl
@[simp] theorem State.bump_fab (s : State) (off n : Nat) : (s.bump off n).fab = s.fab := by unfold State.bump; split <;> rfl
@[simp] theorem State.bump_tu (s : State) (off n : Nat) : (s.bump off n).tu = s.tu := by unfold State.bump; split <;> rfl
@[simp] theorem State.bump_fuses (s : State) (off n : Nat) : (s.bump off n).fuses = s.fuses := by unfold State.bump; split <;> rfl
@[simp] theorem State.bump_flash (s : State) (off n : Nat) : (s.bump off n).flash = s.flash := by unfold State.bump; split <;> rfl
@[simp] theorem State.bump_sec (s : State) (off n : Nat) : (s.bump off n).sec = s.sec := by unfold State.bump; split <;> rfl
@[simp] theorem State.bump_spine (s : State) (off n : Nat) : (s.bump off n).spine = s.spine := by unfold State.bump; split <;> rfl
@[simp] theorem State.bump_pending (s : State) (off n : Nat) : (s.bump off n).pending = s.pending := by unfold State.bump; split <;> rfl

@[simp] theorem State.store_ctl (s : State) (k : Nat) (bs : List Byte) : (s.store k bs).ctl = s.ctl := rfl
@[simp] theorem State.store_regs (s : State) (k : Nat) (bs : List Byte) : (s.store k bs).regs = s.regs := rfl
@[simp] theorem State.store_rings (s : State) (k : Nat) (bs : List Byte) : (s.store k bs).rings = s.rings := rfl
@[simp] theorem State.store_lastRef (s : State) (k : Nat) (bs : List Byte) : (s.store k bs).lastRef = s.lastRef := rfl
@[simp] theorem State.store_cmds (s : State) (k : Nat) (bs : List Byte) : (s.store k bs).cmds = s.cmds := rfl
@[simp] theorem State.store_tab (s : State) (k : Nat) (bs : List Byte) : (s.store k bs).tab = s.tab := rfl
@[simp] theorem State.store_fab (s : State) (k : Nat) (bs : List Byte) : (s.store k bs).fab = s.fab := rfl
@[simp] theorem State.store_tu (s : State) (k : Nat) (bs : List Byte) : (s.store k bs).tu = s.tu := rfl
@[simp] theorem State.store_fuses (s : State) (k : Nat) (bs : List Byte) : (s.store k bs).fuses = s.fuses := rfl
@[simp] theorem State.store_flash (s : State) (k : Nat) (bs : List Byte) : (s.store k bs).flash = s.flash := rfl
@[simp] theorem State.store_sec (s : State) (k : Nat) (bs : List Byte) : (s.store k bs).sec = s.sec := rfl
@[simp] theorem State.store_pending (s : State) (k : Nat) (bs : List Byte) : (s.store k bs).pending = s.pending := rfl

-- Registers read as written

theorem lookupBy_erase {α : Type} (k : Nat) : ∀ (l : List (Nat × α)) (x : Nat), lookupBy x (eraseBy k l) = if x = k then none else lookupBy x l
  | [], x => by simp [eraseBy, lookupBy]
  | (a, v) :: r, x => by
    have ih := lookupBy_erase k r x
    unfold eraseBy at ih ⊢
    rw [List.filter_cons]
    by_cases e : a = k
    · subst e
      rw [if_neg (by simp)]
      rw [ih]
      by_cases g : x = a
      · rw [if_pos g, if_pos g]
      · rw [if_neg g, if_neg g]; unfold lookupBy
        have g2 : ¬ a = x := fun c => g c.symm
        rw [if_neg g2]
        cases r <;> rfl
    · rw [if_pos (by simp [e])]
      conv => lhs; unfold lookupBy
      rw [ih]
      by_cases g : x = k
      · have : ¬ a = x := fun c => e (c.trans g)
        rw [if_neg this, if_pos g, if_pos g]
      · rw [if_neg g, if_neg g]
        conv => rhs; unfold lookupBy

theorem lookupBy_insert {α : Type} (k : Nat) (v : α) : ∀ (l : List (Nat × α)) (x : Nat),
    lookupBy x (insertBy k v l) = if x = k then some v else lookupBy x l
  | [], x => by
    simp only [insertBy, lookupBy]
    by_cases g : x = k
    · rw [if_pos g.symm, if_pos g]
    · rw [if_neg (fun c => g c.symm), if_neg g]
  | (a, w) :: r, x => by
    unfold insertBy
    by_cases g : x = k
    · subst g
      rw [if_pos rfl]
      split
      · unfold lookupBy; rw [if_pos rfl]
      · split
        · unfold lookupBy; rw [if_pos rfl]
        · rename_i h1 h2
          have e : ¬ a = x := fun c => h2 c.symm
          unfold lookupBy; rw [if_neg e, lookupBy_insert x v r x, if_pos rfl]
    · rw [if_neg g]
      have g2 : ¬ k = x := fun c => g c.symm
      split
      · conv => lhs; unfold lookupBy
        rw [if_neg g2]
      · split
        · rename_i h1 h2; subst h2
          conv => lhs; unfold lookupBy
          conv => rhs; unfold lookupBy
          rw [if_neg g2, if_neg g2]
        · conv => lhs; unfold lookupBy
          rw [lookupBy_insert k v r x, if_neg g]
          conv => rhs; unfold lookupBy

/-- A register reads as written, cut to 64 bits; every other register as before. -/
theorem State.reg_setReg (s : State) (off v x : Nat) : (s.setReg off v).reg x = if x = off then v % 2 ^ 64 else s.reg x := by
  unfold State.reg State.setReg
  dsimp only
  by_cases h : BitVec.ofNat 64 v = resetAt off
  · rw [if_pos h, lookupBy_erase]
    by_cases e : x = off
    · subst e; simp [← h]
    · rw [if_neg e, if_neg e]
  · rw [if_neg h, lookupBy_insert]
    by_cases e : x = off
    · subst e; simp
    · rw [if_neg e, if_neg e]

@[simp] theorem State.reg_setReg_self (s : State) (off v : Nat) : (s.setReg off v).reg off = v % 2 ^ 64 := by
  rw [State.reg_setReg, if_pos rfl]

theorem State.reg_setReg_ne (s : State) (off v x : Nat) (h : x ≠ off) : (s.setReg off v).reg x = s.reg x := by
  rw [State.reg_setReg, if_neg h]

@[simp] theorem State.reg_upCtl (s : State) (f : Ctl → Ctl) (x : Nat) : (s.upCtl f).reg x = s.reg x := rfl
@[simp] theorem State.reg_upTab (s : State) (f : Tables → Tables) (x : Nat) : (s.upTab f).reg x = s.reg x := rfl
@[simp] theorem State.reg_upCache (s : State) (f : Caches → Caches) (x : Nat) : (s.upCache f).reg x = s.reg x := rfl
@[simp] theorem State.reg_upFab (s : State) (f : Fabric → Fabric) (x : Nat) : (s.upFab f).reg x = s.reg x := rfl
@[simp] theorem State.reg_upTu (s : State) (f : Trans → Trans) (x : Nat) : (s.upTu f).reg x = s.reg x := rfl
@[simp] theorem State.reg_upSec (s : State) (f : Sec → Sec) (x : Nat) : (s.upSec f).reg x = s.reg x := rfl
@[simp] theorem State.reg_upFlash (s : State) (f : Flash → Flash) (x : Nat) : (s.upFlash f).reg x = s.reg x := rfl
@[simp] theorem State.reg_upSpine (s : State) (f : Spine → Spine) (x : Nat) : (s.upSpine f).reg x = s.reg x := rfl
@[simp] theorem State.reg_upCmds (s : State) (f : List Cmd → List Cmd) (x : Nat) : (s.upCmds f).reg x = s.reg x := rfl
@[simp] theorem State.reg_upCmd (s : State) (h : Nat) (f : Cmd → Cmd) (x : Nat) : (s.upCmd h f).reg x = s.reg x := rfl
@[simp] theorem State.reg_setRing (s : State) (n : Nat) (r : Ring) (x : Nat) : (s.setRing n r).reg x = s.reg x := rfl
@[simp] theorem State.reg_upRing (s : State) (n : Nat) (f : Ring → Ring) (x : Nat) : (s.upRing n f).reg x = s.reg x := rfl
@[simp] theorem State.reg_store (s : State) (k : Nat) (bs : List Byte) (x : Nat) : (s.store k bs).reg x = s.reg x := rfl
@[simp] theorem State.reg_setLastRef (s : State) (r x : Nat) : (s.setLastRef r).reg x = s.reg x := rfl
@[simp] theorem State.reg_addPoison (s : State) (w x : Nat) : (s.addPoison w).reg x = s.reg x := rfl
@[simp] theorem State.reg_advance (s : State) (t x : Nat) : (s.advance t).reg x = s.reg x := rfl

/-- A register is below 2^64. -/
theorem State.reg_lt (s : State) (x : Nat) : s.reg x < 2 ^ 64 := by
  unfold State.reg
  split
  · exact BitVec.isLt _
  · exact BitVec.isLt _

theorem regsWfFrom_mono {a b : Nat} (hab : a ≤ b) : ∀ m, regsWfFrom b m = true → regsWfFrom a m = true
  | [], _ => rfl
  | (k, v) :: r, h => by
    simp only [regsWfFrom, Bool.and_eq_true, decide_eq_true_eq] at h ⊢
    exact ⟨⟨by omega, h.1.2⟩, h.2⟩

theorem regsWfFrom_erase (k : Nat) : ∀ (m : List (Nat × Word64)) (lo : Nat), regsWfFrom lo m = true → regsWfFrom lo (eraseBy k m) = true
  | [], _, _ => rfl
  | (a, b) :: r, lo, h => by
    simp only [regsWfFrom, Bool.and_eq_true, decide_eq_true_eq] at h
    unfold eraseBy
    rw [List.filter_cons]
    split
    · simp only [regsWfFrom, Bool.and_eq_true, decide_eq_true_eq]; exact ⟨h.1, regsWfFrom_erase k r _ h.2⟩
    · exact regsWfFrom_mono (by omega) _ (regsWfFrom_erase k r _ h.2)

theorem regsWfFrom_insert (v : Word64) : ∀ (m : List (Nat × Word64)) (lo k : Nat), lo ≤ k → v ≠ resetAt k → regsWfFrom lo m = true →
    regsWfFrom lo (insertBy k v m) = true
  | [], lo, k, hk, hv, _ => by simp [insertBy, regsWfFrom, hk, hv]
  | (a, b) :: r, lo, k, hk, hv, h => by
    simp only [regsWfFrom, Bool.and_eq_true, decide_eq_true_eq] at h
    unfold insertBy
    split
    · simp only [regsWfFrom, Bool.and_eq_true, decide_eq_true_eq]
      exact ⟨⟨hk, hv⟩, ⟨by omega, h.1.2⟩, h.2⟩
    · split
      · rename_i h1 h2; subst h2
        simp only [regsWfFrom, Bool.and_eq_true, decide_eq_true_eq]
        exact ⟨⟨hk, hv⟩, h.2⟩
      · simp only [regsWfFrom, Bool.and_eq_true, decide_eq_true_eq]
        exact ⟨h.1, regsWfFrom_insert v r (a + 1) k (by omega) hv h.2⟩

theorem regsWf_setReg (s : State) (off v : Nat) (h : regsWf s.regs = true) : regsWf (s.setReg off v).regs = true := by
  unfold State.setReg
  dsimp only
  split
  · exact regsWfFrom_erase _ _ _ h
  · exact regsWfFrom_insert _ _ _ _ (Nat.zero_le _) ‹_› h

end Sys2Proof.Machine
end

