-- ==== Sys2Proof/Laws/Fields.lean ====
section
/-! SUPPORT. Fields of registers: a field reads as written, and no other bit of the register changes. -/

namespace Sys2Proof.Machine

theorem setBits_testBit (v lo w x i : Nat) :
    (setBits v lo w x).testBit i = if i < lo then v.testBit i else if i < lo + w then x.testBit (i - lo) else v.testBit i := by
  have h1 : v % 2 ^ lo < 2 ^ lo := Nat.mod_lt _ (Nat.two_pow_pos lo)
  have h2 : x % 2 ^ w < 2 ^ w := Nat.mod_lt _ (Nat.two_pow_pos w)
  have e : setBits v lo w x = 2 ^ lo * (2 ^ w * (v >>> (lo + w)) + x % 2 ^ w) + v % 2 ^ lo := by
    have g : v >>> (lo + w) * 2 ^ (lo + w) = 2 ^ lo * (2 ^ w * v >>> (lo + w)) := by
      rw [Nat.pow_add, Nat.mul_comm, Nat.mul_assoc]
    unfold setBits
    rw [g, Nat.mul_add, Nat.mul_comm (x % 2 ^ w)]
    omega
  rw [e, Nat.testBit_two_pow_mul_add _ h1]
  split
  · rename_i h; rw [Nat.testBit_mod_two_pow]; simp [h]
  · rename_i h
    rw [Nat.testBit_two_pow_mul_add _ h2]
    by_cases g : i - lo < w
    · rw [if_pos g, if_pos (by omega), Nat.testBit_mod_two_pow]; simp [g]
    · rw [if_neg g, if_neg (by omega), Nat.testBit_shiftRight]
      congr 1; omega

theorem setBits_lt {v lo w x : Nat} (hv : v < 2 ^ 64) (hw : lo + w ≤ 64) : setBits v lo w x < 2 ^ 64 := by
  apply Nat.lt_pow_two_of_testBit
  intro i hi
  rw [setBits_testBit, if_neg (by omega), if_neg (by omega)]
  exact Nat.testBit_lt_two_pow (Nat.lt_of_lt_of_le hv (Nat.pow_le_pow_right (by decide) hi))

theorem bits_testBit (v lo w i : Nat) : (bits v lo w).testBit i = (decide (i < w) && v.testBit (lo + i)) := by
  unfold bits
  rw [Nat.testBit_mod_two_pow, Nat.testBit_shiftRight]

theorem bits_setBits (v lo w x : Nat) : bits (setBits v lo w x) lo w = x % 2 ^ w := by
  apply Nat.eq_of_testBit_eq
  intro i
  rw [bits_testBit, setBits_testBit, Nat.testBit_mod_two_pow]
  by_cases h : i < w
  · rw [if_neg (by omega), if_pos (by omega)]; simp [h]
  · simp [h]

theorem bits_setBits_ne (v lo w x lo' w' : Nat) (h : lo' + w' ≤ lo ∨ lo + w ≤ lo') : bits (setBits v lo w x) lo' w' = bits v lo' w' := by
  apply Nat.eq_of_testBit_eq
  intro i
  rw [bits_testBit, bits_testBit, setBits_testBit]
  by_cases g : i < w'
  · by_cases k : lo' + i < lo
    · rw [if_pos k]
    · rw [if_neg k, if_neg (by omega)]
  · simp [g]

theorem bits_lt (v lo w : Nat) : bits v lo w < 2 ^ w := Nat.mod_lt _ (Nat.two_pow_pos w)

/-- The register after a field is written. -/
theorem State.reg_setFld (s : State) (off lo w x y : Nat) (hw : lo + w ≤ 64) :
    (s.setFld off lo w x).reg y = if y = off then setBits (s.reg off) lo w x else s.reg y := by
  unfold State.setFld
  rw [State.reg_setReg]
  split
  · exact Nat.mod_eq_of_lt (setBits_lt (s.reg_lt off) hw)
  · rfl

/-- A field reads as written, cut to its width. -/
theorem State.fld_setFld (s : State) (off lo w x : Nat) (hw : lo + w ≤ 64) : (s.setFld off lo w x).fld off lo w = x % 2 ^ w := by
  unfold State.fld
  rw [State.reg_setFld _ _ _ _ _ _ hw, if_pos rfl, bits_setBits]

/-- A field apart from the one written reads as before. -/
theorem State.fld_setFld_ne (s : State) (off lo w x off' lo' w' : Nat) (hw : lo + w ≤ 64)
    (h : off' ≠ off ∨ lo' + w' ≤ lo ∨ lo + w ≤ lo') : (s.setFld off lo w x).fld off' lo' w' = s.fld off' lo' w' := by
  unfold State.fld
  rw [State.reg_setFld _ _ _ _ _ _ hw]
  split
  · rename_i e; subst e
    exact bits_setBits_ne _ _ _ _ _ _ (h.resolve_left (fun c => c rfl))
  · rfl

theorem State.testBit_setFld (s : State) (off lo w x i : Nat) (hw : lo + w ≤ 64) (h : ¬ (lo ≤ i ∧ i < lo + w)) :
    ((s.setFld off lo w x).reg off).testBit i = (s.reg off).testBit i := by
  rw [State.reg_setFld _ _ _ _ _ _ hw, if_pos rfl, setBits_testBit]
  by_cases k : i < lo
  · rw [if_pos k]
  · rw [if_neg k, if_neg (by omega)]

/-- What writing a field does. -/
theorem State.setFld_only (s : State) (off lo w x : Nat) (hw : lo + w ≤ 64) :
    (s.setFld off lo w x).fld off lo w = x % 2 ^ w ∧ OnlyField off lo w s (s.setFld off lo w x) ∧ OnlyRegs [off] s (s.setFld off lo w x) ∧
      OnlyParts [.regs] s (s.setFld off lo w x) := by
  refine ⟨s.fld_setFld off lo w x hw, fun i h => s.testBit_setFld off lo w x i hw h, fun y h => ?_, ?_⟩
  · rw [State.reg_setFld _ _ _ _ _ _ hw, if_neg (by simpa using h)]
  · constructor <;> simp

/-- What raising a counter does: it saturates at 2^48 - 1. -/
theorem State.reg_bump (s : State) (off n y : Nat) (h : s.reg off < 2 ^ 48) :
    (s.bump off n).reg y = if y = off then min (s.reg off + n) (2 ^ 48 - 1) else s.reg y := by
  unfold State.bump
  split
  · rename_i e; subst e
    split
    · rename_i e; subst e; omega
    · rfl
  · rw [State.reg_setReg]
    split
    · unfold satAdd; apply Nat.mod_eq_of_lt; omega
    · rfl

/-- The ring after an update. -/
theorem State.ring_setRing (s : State) (n k : Nat) (r : Ring) : (s.setRing n r).ring k = if k = n then r else s.ring k := by
  unfold State.ring State.setRing
  dsimp only
  rw [lookupBy_insert]
  split <;> rfl

theorem State.ring_upRing (s : State) (n k : Nat) (f : Ring → Ring) : (s.upRing n f).ring k = if k = n then f (s.ring n) else s.ring k :=
  s.ring_setRing n k _

end Sys2Proof.Machine
end

