-- ==== Sys2Proof/Laws/Inv.lean ====
section
/-! SUPPORT. Every operation is made of named updates, so it keeps whatever those updates keep: the updates, flows, faults, caches, translation. -/

namespace Sys2Proof.Machine

/-- A property of states that named operations keep. Bit i of the mask stands for: 0 the control part, with a clock that does not run
backward and a life that stays or stops; 1 registers; 2 stores; 3 wiping; 4 poison; 5 rings; 6 the last reference instant; 7 commands;
8 tables; 9 caches; 10 fabric; 11 translation; 12 fuses; 13 flash; 14 security; 15 spine; 16 a change of life. -/
structure Closed (m : Nat) (P : State → Prop) : Prop where
  upCtl : Nat.land m 0x1 = 0x1 → ∀ s f, (∀ c, c.now ≤ (f c).now) → (∀ c, (f c).life = c.life ∨ (f c).life = .stopped) → P s → P (s.upCtl f)
  setReg : Nat.land m 0x2 = 0x2 → ∀ s off v, P s → P (s.setReg off v)
  store : Nat.land m 0x4 = 0x4 → ∀ s k bs, P s → P (s.store k bs)
  wipe : Nat.land m 0x8 = 0x8 → ∀ s k n, P s → P (s.wipe k n)
  addPoison : Nat.land m 0x10 = 0x10 → ∀ s w, P s → P (s.addPoison w)
  setRing : Nat.land m 0x20 = 0x20 → ∀ s n r, P s → P (s.setRing n r)
  setLastRef : Nat.land m 0x40 = 0x40 → ∀ s r, P s → P (s.setLastRef r)
  upCmds : Nat.land m 0x80 = 0x80 → ∀ s f, P s → P (s.upCmds f)
  upTab : Nat.land m 0x100 = 0x100 → ∀ s f, P s → P (s.upTab f)
  upCache : Nat.land m 0x200 = 0x200 → ∀ s f, P s → P (s.upCache f)
  upFab : Nat.land m 0x400 = 0x400 → ∀ s f, P s → P (s.upFab f)
  upTu : Nat.land m 0x800 = 0x800 → ∀ s f, P s → P (s.upTu f)
  setFuses : Nat.land m 0x1000 = 0x1000 → ∀ s svn r, s.fuses.svn ≤ svn →
    (∀ i, i < 4 → (s.fuses.revoked[i]?).getD false = true → (r[i]?).getD false = true) → P s → P (s.setFuses svn r)
  upFlash : Nat.land m 0x2000 = 0x2000 → ∀ s f, P s → P (s.upFlash f)
  upSec : Nat.land m 0x4000 = 0x4000 → ∀ s f, P s → P (s.upSec f)
  upSpine : Nat.land m 0x8000 = 0x8000 → ∀ s f, P s → P (s.upSpine f)
  life : Nat.land m 0x10000 = 0x10000 → ∀ s f, (∀ c, c.now ≤ (f c).now) → P s → P (s.upCtl f)

theorem land_of_mono {a m n : Nat} (h : Nat.land m n = m) (k : Nat.land m a = a) : Nat.land n a = a := by
  apply Nat.eq_of_testBit_eq
  intro i
  have h1 := congrArg (fun x => x.testBit i) h
  have k1 := congrArg (fun x => x.testBit i) k
  have e : ∀ x y : Nat, (Nat.land x y).testBit i = (x.testBit i && y.testBit i) := fun x y => Nat.testBit_and x y i
  simp only [e] at h1 k1 ⊢
  cases hm : m.testBit i <;> cases hn : n.testBit i <;> cases ha : a.testBit i <;> simp_all

theorem Closed.mono {m n : Nat} {P : State → Prop} (c : Closed n P) (h : Nat.land m n = m) : Closed m P :=
  ⟨fun k => c.upCtl (land_of_mono h k), fun k => c.setReg (land_of_mono h k), fun k => c.store (land_of_mono h k),
   fun k => c.wipe (land_of_mono h k), fun k => c.addPoison (land_of_mono h k), fun k => c.setRing (land_of_mono h k),
   fun k => c.setLastRef (land_of_mono h k), fun k => c.upCmds (land_of_mono h k), fun k => c.upTab (land_of_mono h k),
   fun k => c.upCache (land_of_mono h k), fun k => c.upFab (land_of_mono h k), fun k => c.upTu (land_of_mono h k),
   fun k => c.setFuses (land_of_mono h k), fun k => c.upFlash (land_of_mono h k), fun k => c.upSec (land_of_mono h k),
   fun k => c.upSpine (land_of_mono h k), fun k => c.life (land_of_mono h k)⟩

theorem inv_upCtl {P : State → Prop} {s : State} {f : Ctl → Ctl} (c : Closed 0x1 P) (h : P s) (hn : ∀ c, c.now ≤ (f c).now)
    (hl : ∀ c, (f c).life = c.life ∨ (f c).life = .stopped) : P (s.upCtl f) := c.upCtl rfl s f hn hl h
theorem inv_setReg {P : State → Prop} {s : State} {off v : Nat} (c : Closed 0x2 P) (h : P s) : P (s.setReg off v) := c.setReg rfl _ _ _ h
theorem inv_store {P : State → Prop} {s : State} {k : Nat} {bs : List Byte} (c : Closed 0x4 P) (h : P s) : P (s.store k bs) := c.store rfl _ _ _ h
theorem inv_wipe {P : State → Prop} {s : State} {k n : Nat} (c : Closed 0x8 P) (h : P s) : P (s.wipe k n) := c.wipe rfl _ _ _ h
theorem inv_addPoison {P : State → Prop} {s : State} {w : Nat} (c : Closed 0x10 P) (h : P s) : P (s.addPoison w) := c.addPoison rfl _ _ h
theorem inv_setRing {P : State → Prop} {s : State} {n : Nat} {r : Ring} (c : Closed 0x20 P) (h : P s) : P (s.setRing n r) := c.setRing rfl _ _ _ h
theorem inv_setLastRef {P : State → Prop} {s : State} {r : Nat} (c : Closed 0x40 P) (h : P s) : P (s.setLastRef r) := c.setLastRef rfl _ _ h
theorem inv_upCmds {P : State → Prop} {s : State} {f} (c : Closed 0x80 P) (h : P s) : P (s.upCmds f) := c.upCmds rfl _ _ h
theorem inv_upCmd {P : State → Prop} {s : State} {n : Nat} {f : Cmd → Cmd} (c : Closed 0x80 P) (h : P s) : P (s.upCmd n f) :=
  c.upCmds rfl s (updFirst (fun c => c.handle == n) f) h
theorem inv_upTab {P : State → Prop} {s : State} {f} (c : Closed 0x100 P) (h : P s) : P (s.upTab f) := c.upTab rfl _ _ h
theorem inv_upCache {P : State → Prop} {s : State} {f} (c : Closed 0x200 P) (h : P s) : P (s.upCache f) := c.upCache rfl _ _ h
theorem inv_upFab {P : State → Prop} {s : State} {f} (c : Closed 0x400 P) (h : P s) : P (s.upFab f) := c.upFab rfl _ _ h
theorem inv_upTu {P : State → Prop} {s : State} {f} (c : Closed 0x800 P) (h : P s) : P (s.upTu f) := c.upTu rfl _ _ h
theorem inv_upFlash {P : State → Prop} {s : State} {f} (c : Closed 0x2000 P) (h : P s) : P (s.upFlash f) := c.upFlash rfl _ _ h
theorem inv_upSec {P : State → Prop} {s : State} {f} (c : Closed 0x4000 P) (h : P s) : P (s.upSec f) := c.upSec rfl _ _ h
theorem inv_upSpine {P : State → Prop} {s : State} {f} (c : Closed 0x8000 P) (h : P s) : P (s.upSpine f) := c.upSpine rfl _ _ h

theorem inv_foldl {P : State → Prop} {α : Type} {i : State} {f : State → α → State} {l : List α} (hi : P i)
    (hf : ∀ s x, P s → P (f s x)) : P (l.foldl f i) := by
  induction l generalizing i with
  | nil => exact hi
  | cons x l ih => exact ih (hf i x hi)

theorem inv_foldl_fst {P : State → Prop} {α β : Type} {i : State × β} {f : State × β → α → State × β} {l : List α} (hi : P i.1)
    (hf : ∀ s x, P s.1 → P (f s x).1) : P (l.foldl f i).1 := by
  induction l generalizing i with
  | nil => exact hi
  | cons x l ih => exact ih (hf i x hi)

theorem inv_foldl_snd {P : State → Prop} {α β : Type} {i : β × State} {f : β × State → α → β × State} {l : List α} (hi : P i.2)
    (hf : ∀ s x, P s.2 → P (f s x).2) : P (l.foldl f i).2 := by
  induction l generalizing i with
  | nil => exact hi
  | cons x l ih => exact ih (hf i x hi)

theorem inv_ite {P : State → Prop} {a b : State} {p : Prop} [Decidable p] (h1 : P a) (h2 : P b) : P (if p then a else b) := by
  split <;> assumption
theorem inv_ite_fst {P : State → Prop} {β : Type} {a b : State × β} {p : Prop} [Decidable p] (h1 : P a.1) (h2 : P b.1) :
    P (if p then a else b).1 := by
  split <;> assumption
theorem inv_ite_snd {P : State → Prop} {β : Type} {a b : β × State} {p : Prop} [Decidable p] (h1 : P a.2) (h2 : P b.2) :
    P (if p then a else b).2 := by
  split <;> assumption


theorem inv_setFld {P : State → Prop} {s : State} {off lo w x : Nat} (hc : Closed 0x2 P) (hk0 : P s) :
    P (State.setFld s off lo w x) := by
  unfold State.setFld
  try dsimp only
  repeat' first
    | with_reducible assumption | exact hc.mono rfl | with_reducible apply inv_setReg | split | intro

theorem inv_newXid {P : State → Prop} {s : State} (hc : Closed 0x400 P) (hk0 : P s) :
    P (State.newXid s).2 := by
  unfold State.newXid
  try dsimp only
  repeat' first
    | with_reducible assumption | exact hc.mono rfl | with_reducible apply inv_upFab | split | intro

theorem inv_bump {P : State → Prop} {s : State} {off n : Nat} (hc : Closed 0x2 P) (hk0 : P s) :
    P (State.bump s off n) := by
  unfold State.bump
  try dsimp only
  repeat' first
    | with_reducible assumption | exact hc.mono rfl | with_reducible apply inv_setReg | with_reducible refine inv_ite ?_ ?_
    | with_reducible refine inv_ite_fst ?_ ?_ | with_reducible refine inv_ite_snd ?_ ?_ | split | intro

theorem inv_stall {P : State → Prop} {s : State} {p l : Nat} {bytes : List Byte} (hc : Closed 0x400 P) (hk0 : P s) :
    P (State.stall s p l bytes) := by
  unfold State.stall
  try dsimp only
  repeat' first
    | with_reducible assumption | exact hc.mono rfl | with_reducible apply inv_upFab | split | intro

theorem inv_upFlow {P : State → Prop} {s : State} {p l : Nat} {g : Flow → Flow} (hc : Closed 0x400 P) (hk0 : P s) :
    P (State.upFlow s p l g) := by
  unfold State.upFlow
  try dsimp only
  repeat' first
    | with_reducible assumption | exact hc.mono rfl | with_reducible apply inv_upFab | split | intro

theorem inv_usePn {P : State → Prop} {s : State} {port : Nat} (hc : Closed 0x4000 P) (hk0 : P s) :
    P (State.usePn s port) := by
  unfold State.usePn
  try dsimp only
  repeat' first
    | with_reducible assumption | exact hc.mono rfl | with_reducible apply inv_upSec | with_reducible refine inv_ite ?_ ?_
    | with_reducible refine inv_ite_fst ?_ ?_ | with_reducible refine inv_ite_snd ?_ ?_ | split | intro

theorem inv_emit {P : State → Prop} {s : State} {port dst lane : Nat} {hdr payload : List Byte} (hc : Closed 0x4402 P) (hk0 : P s) :
    P (State.emit s port dst lane hdr payload) := by
  unfold State.emit
  try dsimp only
  repeat' first
    | with_reducible assumption | exact hc.mono rfl | with_reducible apply inv_upFab | with_reducible apply inv_usePn
    | with_reducible apply inv_bump | with_reducible refine inv_ite ?_ ?_ | with_reducible refine inv_ite_fst ?_ ?_
    | with_reducible refine inv_ite_snd ?_ ?_ | split | intro

theorem inv_sendFrame {P : State → Prop} {s : State} {f : Flow} {typ flags psn : Nat} {payload : List Byte} (hc : Closed 0x4402 P) (hk0 : P s) :
    P (State.sendFrame s f typ flags psn payload) := by
  unfold State.sendFrame
  try dsimp only
  repeat' first
    | with_reducible assumption | exact hc.mono rfl | with_reducible apply inv_emit | with_reducible refine inv_ite ?_ ?_
    | with_reducible refine inv_ite_fst ?_ ?_ | with_reducible refine inv_ite_snd ?_ ?_ | split | intro

theorem inv_pumpFuel {P : State → Prop} {p l : Nat} {flush : Bool} {fuel : Nat} (hc : Closed 0x4402 P) : ∀ {s : State}, P s → P (s.pumpFuel p l flush fuel) := by
  induction fuel with
  | zero => intro s h; exact h
  | succ n ih =>
    intro s h
    unfold State.pumpFuel
    try dsimp only
    repeat' first
      | with_reducible assumption | exact hc.mono rfl | with_reducible apply ih
      | with_reducible apply inv_sendFrame
      | with_reducible apply inv_upFlow
      | exact fun _ => Nat.le_refl _ | exact fun _ => Or.inl rfl | with_reducible refine inv_ite ?_ ?_ | split | intro

theorem inv_pump {P : State → Prop} {s : State} {p l : Nat} {flush : Bool} (hc : Closed 0x4402 P) (hk0 : P s) :
    P (State.pump s p l flush) := by
  unfold State.pump
  try dsimp only
  repeat' first
    | with_reducible assumption | exact hc.mono rfl | with_reducible apply inv_pumpFuel | split | intro

theorem inv_setFlows {P : State → Prop} {s : State} {fs : List Flow} (hc : Closed 0x402 P) (hk0 : P s) :
    P (State.setFlows s fs) := by
  unfold State.setFlows
  try dsimp only
  repeat' first
    | with_reducible assumption | exact hc.mono rfl | with_reducible apply inv_upFab | with_reducible apply inv_setFld | split | intro

theorem inv_roomForFlow {P : State → Prop} {t0 : State} {s : State} (hc : Closed 0x402 P) (hk0 : P s) (e0 : State.roomForFlow s = some t0) :
    P t0 := by
  revert e0
  unfold State.roomForFlow
  try dsimp only
  repeat' first
    | with_reducible assumption | exact hc.mono rfl | with_reducible apply inv_setFlows | with_reducible refine inv_foldl ?_ ?_
    | with_reducible refine inv_foldl_fst ?_ ?_ | with_reducible refine inv_ite ?_ ?_ | with_reducible refine inv_ite_fst ?_ ?_
    | with_reducible refine inv_ite_snd ?_ ?_ | (intro e0; cases e0; done) | (intro e0; cases e0; skip)
    | (intro e0; obtain ⟨_, _, rfl⟩ := Option.map_eq_some_iff.mp e0; skip) | split | intro

theorem inv_openFlow {P : State → Prop} {s : State} {p l : Nat} (hc : Closed 0x4402 P) (hk0 : P s) :
    P (State.openFlow s p l) := by
  unfold State.openFlow
  try dsimp only
  repeat' first
    | with_reducible assumption | exact hc.mono rfl | with_reducible apply inv_upFab | with_reducible apply inv_setFlows
    | with_reducible apply inv_sendFrame | split | intro

theorem inv_post {P : State → Prop} {s : State} {p l : Nat} {bytes : List Byte} (hc : Closed 0x4402 P) (hk0 : P s) :
    P (State.post s p l bytes) := by
  unfold State.post
  try dsimp only
  repeat' first
    | with_reducible assumption | exact hc.mono rfl | with_reducible apply inv_openFlow | with_reducible apply inv_pump
    | with_reducible apply inv_upFlow | with_reducible apply inv_stall | with_reducible refine inv_ite ?_ ?_
    | with_reducible refine inv_ite_fst ?_ ?_ | with_reducible refine inv_ite_snd ?_ ?_
    | with_reducible refine inv_roomForFlow ?_ ?_ (by with_reducible assumption) | split | intro

theorem inv_send {P : State → Prop} {s : State} {p l : Nat} {bytes : List Byte} (hc : Closed 0x4402 P) (hk0 : P s) :
    P (State.send s p l bytes) := by
  unfold State.send
  try dsimp only
  repeat' first
    | with_reducible assumption | exact hc.mono rfl | with_reducible apply inv_post | with_reducible apply inv_stall
    | with_reducible apply inv_bump | with_reducible refine inv_ite ?_ ?_ | with_reducible refine inv_ite_fst ?_ ?_
    | with_reducible refine inv_ite_snd ?_ ?_ | split | intro

theorem inv_sendTk {P : State → Prop} {s : State} {dst handle : Nat} {b : TkBody} (hc : Closed 0x4402 P) (hk0 : P s) :
    P (State.sendTk s dst handle b) := by
  unfold State.sendTk
  try dsimp only
  repeat' first
    | with_reducible assumption | exact hc.mono rfl | with_reducible apply inv_send | with_reducible apply inv_newXid | split | intro

theorem inv_upRing {P : State → Prop} {s : State} {n : Nat} {f : Ring → Ring} (hc : Closed 0x20 P) (hk0 : P s) :
    P (State.upRing s n f) := by
  unfold State.upRing
  try dsimp only
  repeat' first
    | with_reducible assumption | exact hc.mono rfl | with_reducible apply inv_setRing | split | intro

theorem inv_deny {P : State → Prop} {s : State} (hc : Closed 0x2 P) (hk0 : P s) :
    P (State.deny s) := by
  unfold State.deny
  try dsimp only
  repeat' first
    | with_reducible assumption | exact hc.mono rfl | with_reducible apply inv_bump | split | intro

theorem inv_reachHost {P : State → Prop} {s : State} {off : Nat} (hc : Closed 0x2 P) (hk0 : P s) :
    P (State.reachHost s off).1 := by
  unfold State.reachHost
  try dsimp only
  repeat' first
    | with_reducible assumption | exact hc.mono rfl | with_reducible apply inv_bump | with_reducible refine inv_ite ?_ ?_
    | with_reducible refine inv_ite_fst ?_ ?_ | with_reducible refine inv_ite_snd ?_ ?_ | split | intro

theorem inv_reachTier {P : State → Prop} {s : State} {tier off : Nat} (hc : Closed 0x0 P) (hk0 : P s) :
    P (State.reachTier s tier off).1 := by
  unfold State.reachTier
  try dsimp only
  repeat' first
    | with_reducible assumption | with_reducible refine inv_ite ?_ ?_ | with_reducible refine inv_ite_fst ?_ ?_
    | with_reducible refine inv_ite_snd ?_ ?_ | split | intro

theorem inv_reachGlobal {P : State → Prop} {s : State} {ctx a n : Nat} {write : Bool} (hc : Closed 0x2 P) (hk0 : P s) :
    P (State.reachGlobal s ctx a n write).1 := by
  unfold State.reachGlobal
  try dsimp only
  repeat' first
    | with_reducible assumption | exact hc.mono rfl | with_reducible apply inv_reachTier | with_reducible apply inv_reachHost
    | with_reducible apply inv_deny | with_reducible apply inv_bump | with_reducible refine inv_ite ?_ ?_
    | with_reducible refine inv_ite_fst ?_ ?_ | with_reducible refine inv_ite_snd ?_ ?_ | split | intro

theorem inv_mdFlush {P : State → Prop} {s : State} {g n : Nat} (hc : Closed 0x200 P) (hk0 : P s) :
    P (State.mdFlush s g n) := by
  unfold State.mdFlush
  try dsimp only
  repeat' first
    | with_reducible assumption | exact hc.mono rfl | with_reducible apply inv_upCache | with_reducible refine inv_ite ?_ ?_
    | with_reducible refine inv_ite_fst ?_ ?_ | with_reducible refine inv_ite_snd ?_ ?_ | split | intro

theorem inv_mbRecord {P : State → Prop} {s : State} {g n : Nat} (hc : Closed 0x200 P) (hk0 : P s) :
    P (State.mbRecord s g n) := by
  unfold State.mbRecord
  try dsimp only
  repeat' first
    | with_reducible assumption | exact hc.mono rfl | with_reducible apply inv_upCache | split | intro

theorem inv_mbLine {P : State → Prop} {s : State} {line m : Nat} (hc : Closed 0x202 P) (hk0 : P s) :
    P (State.mbLine s line m) := by
  unfold State.mbLine
  try dsimp only
  repeat' first
    | with_reducible assumption | exact hc.mono rfl | with_reducible apply inv_upCache | with_reducible apply inv_bump
    | with_reducible refine inv_ite ?_ ?_ | with_reducible refine inv_ite_fst ?_ ?_ | with_reducible refine inv_ite_snd ?_ ?_ | split
    | intro

theorem inv_mbWrite {P : State → Prop} {s : State} {g n : Nat} (hc : Closed 0x202 P) (hk0 : P s) :
    P (State.mbWrite s g n) := by
  unfold State.mbWrite
  try dsimp only
  repeat' first
    | with_reducible assumption | exact hc.mono rfl | with_reducible apply inv_mbLine | with_reducible refine inv_foldl ?_ ?_
    | with_reducible refine inv_foldl_fst ?_ ?_ | split | intro

theorem inv_putMeta {P : State → Prop} {s : State} {k : Nat} {bs : List Byte} (hc : Closed 0x206 P) (hk0 : P s) :
    P (State.putMeta s k bs) := by
  unfold State.putMeta
  try dsimp only
  repeat' first
    | with_reducible assumption | exact hc.mono rfl | with_reducible apply inv_store | with_reducible apply inv_mbWrite | split | intro

theorem inv_putRecord {P : State → Prop} {s : State} {k : Nat} {bs : List Byte} (hc : Closed 0x206 P) (hk0 : P s) :
    P (State.putRecord s k bs) := by
  unfold State.putRecord
  try dsimp only
  repeat' first
    | with_reducible assumption | exact hc.mono rfl | with_reducible apply inv_putMeta | with_reducible apply inv_mbRecord | split | intro

theorem inv_hostPacket {P : State → Prop} {s : State} {hopc ctx addr len : Nat} {old : List Byte} {ring : Option Nat} {handle : Nat} (hc : Closed 0x800 P) (hk0 : P s) :
    P (State.hostPacket s hopc ctx addr len old ring handle) := by
  unfold State.hostPacket
  try dsimp only
  repeat' first
    | with_reducible assumption | exact hc.mono rfl | with_reducible apply inv_upTu | split | intro

theorem inv_hostPackets {P : State → Prop} {s : State} {ctx addr n : Nat} {ring : Option Nat} {handle : Nat} (hc : Closed 0x800 P) (hk0 : P s) :
    P (State.hostPackets s ctx addr n ring handle) := by
  unfold State.hostPackets
  try dsimp only
  repeat' first
    | with_reducible assumption | exact hc.mono rfl | with_reducible apply inv_hostPacket | with_reducible refine inv_foldl ?_ ?_
    | with_reducible refine inv_foldl_fst ?_ ?_ | split | intro

theorem inv_hostRecord {P : State → Prop} {s : State} {ctx addr : Nat} {bs : List Byte} {ring : Option Nat} {handle : Nat} (hc : Closed 0xA06 P) (hk0 : P s) :
    P (State.hostRecord s ctx addr bs ring handle) := by
  unfold State.hostRecord
  try dsimp only
  repeat' first
    | with_reducible assumption | exact hc.mono rfl | with_reducible apply inv_hostPackets | with_reducible apply inv_putRecord
    | with_reducible refine inv_ite ?_ ?_ | with_reducible refine inv_ite_fst ?_ ?_ | with_reducible refine inv_ite_snd ?_ ?_ | split
    | intro

theorem inv_request {P : State → Prop} {s : State} {dst lane mtype handle : Nat} {kind : XKind} {body : List Byte} (hc : Closed 0x4402 P) (hk0 : P s) :
    P (State.request s dst lane mtype handle kind body) := by
  unfold State.request
  try dsimp only
  repeat' first
    | with_reducible assumption | exact hc.mono rfl | with_reducible apply inv_upFab | with_reducible apply inv_send
    | with_reducible apply inv_newXid | split | intro

theorem inv_memWriteTo {P : State → Prop} {s : State} {a ctx lane handle : Nat} {kind : XKind} {bs : List Byte} (hc : Closed 0x4402 P) (hk0 : P s) :
    P (State.memWriteTo s a ctx lane handle kind bs) := by
  unfold State.memWriteTo
  try dsimp only
  repeat' first
    | with_reducible assumption | exact hc.mono rfl | with_reducible apply inv_request | split | intro

theorem inv_setRingState {P : State → Prop} {s : State} {n st : Nat} (hc : Closed 0x2 P) (hk0 : P s) :
    P (State.setRingState s n st) := by
  unfold State.setRingState
  try dsimp only
  repeat' first
    | with_reducible assumption | exact hc.mono rfl | with_reducible apply inv_setFld | split | intro

theorem inv_denyIf {P : State → Prop} {s : State} {st : Nat} (hc : Closed 0x2 P) (hk0 : P s) :
    P (State.denyIf s st) := by
  unfold State.denyIf
  try dsimp only
  repeat' first
    | with_reducible assumption | exact hc.mono rfl | with_reducible apply inv_deny | with_reducible refine inv_ite ?_ ?_
    | with_reducible refine inv_ite_fst ?_ ?_ | with_reducible refine inv_ite_snd ?_ ?_ | split | intro

theorem inv_mdVictim {P : State → Prop} {s : State} {g : Nat} (hc : Closed 0x2 P) (hk0 : P s) :
    P (State.mdVictim s g).1 := by
  unfold State.mdVictim
  try dsimp only
  repeat' first
    | with_reducible assumption | exact hc.mono rfl | with_reducible apply inv_setFld | with_reducible refine inv_ite ?_ ?_
    | with_reducible refine inv_ite_fst ?_ ?_ | with_reducible refine inv_ite_snd ?_ ?_ | split | intro

theorem inv_hostRead {P : State → Prop} {s : State} {ctx addr len : Nat} {ring : Option Nat} {handle : Nat} (hc : Closed 0x800 P) (hk0 : P s) :
    P (State.hostRead s ctx addr len ring handle) := by
  unfold State.hostRead
  try dsimp only
  repeat' first
    | with_reducible assumption | exact hc.mono rfl | with_reducible apply inv_hostPacket | with_reducible refine inv_foldl ?_ ?_
    | with_reducible refine inv_foldl_fst ?_ ?_ | with_reducible refine inv_ite ?_ ?_ | with_reducible refine inv_ite_fst ?_ ?_
    | with_reducible refine inv_ite_snd ?_ ?_ | split | intro

theorem inv_mdFetch {P : State → Prop} {s : State} {x : MdFor} {line : Nat} (hc : Closed 0xA02 P) (hk0 : P s) :
    P (State.mdFetch s x line) := by
  unfold State.mdFetch
  try dsimp only
  repeat' first
    | with_reducible assumption | exact hc.mono rfl | with_reducible apply inv_upCache | with_reducible apply inv_hostRead
    | with_reducible apply inv_mdVictim | with_reducible refine inv_ite ?_ ?_ | with_reducible refine inv_ite_fst ?_ ?_
    | with_reducible refine inv_ite_snd ?_ ?_ | split | intro

theorem inv_mdPrefetch {P : State → Prop} {s : State} {x : MdFor} {line : Nat} (hc : Closed 0xA02 P) (hk0 : P s) :
    P (State.mdPrefetch s x line) := by
  unfold State.mdPrefetch
  try dsimp only
  repeat' first
    | with_reducible assumption | exact hc.mono rfl | with_reducible apply inv_mdFetch | with_reducible apply inv_bump
    | with_reducible refine inv_ite ?_ ?_ | with_reducible refine inv_ite_fst ?_ ?_ | with_reducible refine inv_ite_snd ?_ ?_ | split
    | intro

theorem inv_mdLine {P : State → Prop} {s : State} {x : MdFor} {line m : Nat} (hc : Closed 0xA02 P) (hk0 : P s) :
    P (State.mdLine s x line m) := by
  unfold State.mdLine
  try dsimp only
  repeat' first
    | with_reducible assumption | exact hc.mono rfl | with_reducible apply inv_mdPrefetch | with_reducible apply inv_mdFetch
    | with_reducible apply inv_bump | with_reducible refine inv_ite ?_ ?_ | with_reducible refine inv_ite_fst ?_ ?_
    | with_reducible refine inv_ite_snd ?_ ?_ | split | intro

theorem inv_mdReadFor {P : State → Prop} {s : State} {x : MdFor} {g n : Nat} (hc : Closed 0xA02 P) (hk0 : P s) :
    P (State.mdReadFor s x g n) := by
  unfold State.mdReadFor
  try dsimp only
  repeat' first
    | with_reducible assumption | exact hc.mono rfl | with_reducible apply inv_mdLine | with_reducible refine inv_foldl ?_ ?_
    | with_reducible refine inv_foldl_fst ?_ ?_ | with_reducible refine inv_ite ?_ ?_ | with_reducible refine inv_ite_fst ?_ ?_
    | with_reducible refine inv_ite_snd ?_ ?_ | split | intro

theorem inv_hostCached {P : State → Prop} {s : State} {ctx off n : Nat} {ring : Option Nat} {handle : Nat} (hc : Closed 0xA02 P) (hk0 : P s) :
    P (State.hostCached s ctx off n ring handle) := by
  unfold State.hostCached
  try dsimp only
  repeat' first
    | with_reducible assumption | exact hc.mono rfl | with_reducible apply inv_mdReadFor | split | intro

theorem inv_mdRead {P : State → Prop} {s : State} {g n : Nat} (hc : Closed 0xA02 P) (hk0 : P s) :
    P (State.mdRead s g n) := by
  unfold State.mdRead
  try dsimp only
  repeat' first
    | with_reducible assumption | exact hc.mono rfl | with_reducible apply inv_mdReadFor | split | intro

theorem inv_unstall {P : State → Prop} {s : State} (hc : Closed 0x4402 P) (hk0 : P s) :
    P (State.unstall s) := by
  unfold State.unstall
  try dsimp only
  repeat' first
    | with_reducible assumption | exact hc.mono rfl | with_reducible apply inv_upFab | with_reducible apply inv_post
    | with_reducible refine inv_foldl ?_ ?_ | with_reducible refine inv_foldl_fst ?_ ?_ | split | intro

theorem inv_free {P : State → Prop} {s : State} {tier base : Nat} (hc : Closed 0x100 P) (hk0 : P s) :
    P (State.free s tier base) := by
  unfold State.free
  try dsimp only
  repeat' first
    | with_reducible assumption | exact hc.mono rfl | with_reducible apply inv_upTab | split | intro

theorem inv_askTk {P : State → Prop} {s : State} {dst handle : Nat} {kind : XKind} {b : TkBody} (hc : Closed 0x4402 P) (hk0 : P s) :
    P (State.askTk s dst handle kind b) := by
  unfold State.askTk
  try dsimp only
  repeat' first
    | with_reducible assumption | exact hc.mono rfl | with_reducible apply inv_request | split | intro

theorem inv_mdStale {P : State → Prop} {s : State} {k n : Nat} (hc : Closed 0x200 P) (hk0 : P s) :
    P (State.mdStale s k n) := by
  unfold State.mdStale
  try dsimp only
  repeat' first
    | with_reducible assumption | exact hc.mono rfl | with_reducible apply inv_upCache | with_reducible refine inv_ite ?_ ?_
    | with_reducible refine inv_ite_fst ?_ ?_ | with_reducible refine inv_ite_snd ?_ ?_ | split | intro

theorem inv_putData {P : State → Prop} {s : State} {k : Nat} {bs : List Byte} (hc : Closed 0x204 P) (hk0 : P s) :
    P (State.putData s k bs) := by
  unfold State.putData
  try dsimp only
  repeat' first
    | with_reducible assumption | exact hc.mono rfl | with_reducible apply inv_store | with_reducible apply inv_mdStale | split | intro

theorem inv_hostWrite {P : State → Prop} {s : State} {ctx addr : Nat} {bs : List Byte} {ring : Option Nat} {handle : Nat} (hc : Closed 0xA04 P) (hk0 : P s) :
    P (State.hostWrite s ctx addr bs ring handle) := by
  unfold State.hostWrite
  try dsimp only
  repeat' first
    | with_reducible assumption | exact hc.mono rfl | with_reducible apply inv_putData | with_reducible apply inv_hostPackets
    | with_reducible refine inv_ite ?_ ?_ | with_reducible refine inv_ite_fst ?_ ?_ | with_reducible refine inv_ite_snd ?_ ?_ | split
    | intro

theorem inv_hotRecord {P : State → Prop} {s : State} {ctx vpn count : Nat} (hc : Closed 0xA06 P) (hk0 : P s) :
    P (State.hotRecord s ctx vpn count) := by
  unfold State.hotRecord
  try dsimp only
  repeat' first
    | with_reducible assumption | exact hc.mono rfl | with_reducible apply inv_hostWrite | with_reducible apply inv_bump
    | with_reducible apply inv_setFld | with_reducible refine inv_ite ?_ ?_ | with_reducible refine inv_ite_fst ?_ ?_
    | with_reducible refine inv_ite_snd ?_ ?_ | split | intro

theorem inv_countHot {P : State → Prop} {s : State} {ctx vpn : Nat} (hc : Closed 0xA06 P) (hk0 : P s) :
    P (State.countHot s ctx vpn) := by
  unfold State.countHot
  try dsimp only
  repeat' first
    | with_reducible assumption | exact hc.mono rfl | with_reducible apply inv_upTu | with_reducible apply inv_hotRecord
    | with_reducible refine inv_ite ?_ ?_ | with_reducible refine inv_ite_fst ?_ ?_ | with_reducible refine inv_ite_snd ?_ ?_ | split
    | intro

theorem inv_reachPhys {P : State → Prop} {s : State} {ctx vpn pa n : Nat} (hc : Closed 0xA06 P) (hk0 : P s) :
    P (State.reachPhys s ctx vpn pa n).1 := by
  unfold State.reachPhys
  try dsimp only
  repeat' first
    | with_reducible assumption | exact hc.mono rfl | with_reducible apply inv_countHot | with_reducible apply inv_reachTier
    | with_reducible apply inv_reachHost | with_reducible apply inv_bump | with_reducible refine inv_ite ?_ ?_
    | with_reducible refine inv_ite_fst ?_ ?_ | with_reducible refine inv_ite_snd ?_ ?_ | split | intro

theorem inv_markLeaf {P : State → Prop} {s : State} {e : Tlb} {write : Bool} (hc : Closed 0xA06 P) (hk0 : P s) :
    P (State.markLeaf s e write) := by
  unfold State.markLeaf
  try dsimp only
  repeat' first
    | with_reducible assumption | exact hc.mono rfl | with_reducible apply inv_upTu | with_reducible apply inv_hostPacket
    | with_reducible apply inv_putMeta | with_reducible refine inv_ite ?_ ?_ | with_reducible refine inv_ite_fst ?_ ?_
    | with_reducible refine inv_ite_snd ?_ ?_ | split | intro

theorem inv_useLeaf {P : State → Prop} {s : State} {e : Tlb} {va n : Nat} {write : Bool} (hc : Closed 0xA06 P) (hk0 : P s) :
    P (State.useLeaf s e va n write).1 := by
  unfold State.useLeaf
  try dsimp only
  repeat' first
    | with_reducible assumption | exact hc.mono rfl | with_reducible apply inv_markLeaf | with_reducible apply inv_reachPhys
    | with_reducible apply inv_bump | with_reducible refine inv_ite ?_ ?_ | with_reducible refine inv_ite_fst ?_ ?_
    | with_reducible refine inv_ite_snd ?_ ?_ | split | intro

theorem inv_readPte {P : State → Prop} {s : State} {ctx a : Nat} (hc : Closed 0xA02 P) (hk0 : P s) :
    P (State.readPte s ctx a).1 := by
  unfold State.readPte
  try dsimp only
  repeat' first
    | with_reducible assumption | exact hc.mono rfl | with_reducible apply inv_hostCached | split | intro

theorem inv_keepWalk {P : State → Prop} {s : State} {ctx lvl pre next : Nat} (hc : Closed 0x800 P) (hk0 : P s) :
    P (State.keepWalk s ctx lvl pre next) := by
  unfold State.keepWalk
  try dsimp only
  repeat' first
    | with_reducible assumption | exact hc.mono rfl | with_reducible apply inv_upTu | split | intro

theorem inv_walkFrom {P : State → Prop} {ctx va : Nat} {lvl : Nat} (hc : Closed 0xA02 P) : ∀ {s : State} {table : Nat}, P s → P (s.walkFrom ctx va table lvl).1 := by
  induction lvl with
  | zero =>
    intro s table h
    unfold State.walkFrom
    try dsimp only
    (repeat' first
      | with_reducible assumption | exact hc.mono rfl | with_reducible apply inv_readPte | exact fun _ => Nat.le_refl _
      | exact fun _ => Or.inl rfl | with_reducible refine inv_ite ?_ ?_ | dsimp only | split | intro)
  | succ n ih =>
    intro s table h
    unfold State.walkFrom
    try dsimp only
    repeat' first
      | with_reducible assumption | exact hc.mono rfl | with_reducible apply ih | with_reducible apply inv_keepWalk
      | with_reducible apply inv_readPte | exact fun _ => Nat.le_refl _ | exact fun _ => Or.inl rfl | with_reducible refine inv_ite ?_ ?_
      | dsimp only | split | intro

theorem inv_walk {P : State → Prop} {s : State} {ctx va : Nat} (hc : Closed 0xA02 P) (hk0 : P s) :
    P (State.walk s ctx va).1 := by
  unfold State.walk
  try dsimp only
  repeat' first
    | with_reducible assumption | exact hc.mono rfl | with_reducible apply inv_upTu | with_reducible apply inv_walkFrom
    | with_reducible apply inv_bump | split | intro

theorem inv_askMigration {P : State → Prop} {s : State} {ctx vpn : Nat} {pull : Bool} (hc : Closed 0x800 P) (hk0 : P s) :
    P (State.askMigration s ctx vpn pull) := by
  unfold State.askMigration
  try dsimp only
  repeat' first
    | with_reducible assumption | exact hc.mono rfl | with_reducible apply inv_upTu | with_reducible refine inv_ite ?_ ?_
    | with_reducible refine inv_ite_fst ?_ ?_ | with_reducible refine inv_ite_snd ?_ ?_ | split | intro

theorem inv_reachVirt {P : State → Prop} {s : State} {ctx va n : Nat} {write : Bool} (hc : Closed 0xA06 P) (hk0 : P s) :
    P (State.reachVirt s ctx va n write).1 := by
  unfold State.reachVirt
  try dsimp only
  repeat' first
    | with_reducible assumption | exact hc.mono rfl | with_reducible apply inv_upTu | with_reducible apply inv_askMigration
    | with_reducible apply inv_walk | with_reducible apply inv_useLeaf | with_reducible apply inv_bump
    | with_reducible refine inv_ite ?_ ?_ | with_reducible refine inv_ite_fst ?_ ?_ | with_reducible refine inv_ite_snd ?_ ?_ | split
    | intro

theorem inv_reach {P : State → Prop} {s : State} {global : Bool} {ctx a n : Nat} {write : Bool} (hc : Closed 0xA06 P) (hk0 : P s) :
    P (State.reach s global ctx a n write).1 := by
  unfold State.reach
  try dsimp only
  repeat' first
    | with_reducible assumption | exact hc.mono rfl | with_reducible apply inv_reachVirt | with_reducible apply inv_reachGlobal
    | with_reducible refine inv_ite ?_ ?_ | with_reducible refine inv_ite_fst ?_ ?_ | with_reducible refine inv_ite_snd ?_ ?_ | split
    | intro

theorem inv_charge {P : State → Prop} {s : State} {tier part n : Nat} {write : Bool} (hc : Closed 0x8002 P) (hk0 : P s) :
    P (State.charge s tier part n write) := by
  unfold State.charge
  try dsimp only
  repeat' first
    | with_reducible assumption | exact hc.mono rfl | with_reducible apply inv_upSpine | with_reducible apply inv_bump
    | with_reducible refine inv_ite ?_ ?_ | with_reducible refine inv_ite_fst ?_ ?_ | with_reducible refine inv_ite_snd ?_ ?_ | split
    | intro

theorem inv_prefetchPage {P : State → Prop} {s : State} {ctx va : Nat} (hc : Closed 0xA02 P) (hk0 : P s) :
    P (State.prefetchPage s ctx va) := by
  unfold State.prefetchPage
  try dsimp only
  repeat' first
    | with_reducible assumption | exact hc.mono rfl | with_reducible apply inv_upTu | with_reducible apply inv_walk
    | with_reducible apply inv_bump | with_reducible refine inv_ite ?_ ?_ | with_reducible refine inv_ite_fst ?_ ?_
    | with_reducible refine inv_ite_snd ?_ ?_ | split | intro

theorem inv_prefetch {P : State → Prop} {s : State} {ctx va stop_ : Nat} (hc : Closed 0xA02 P) (hk0 : P s) :
    P (State.prefetch s ctx va stop_) := by
  unfold State.prefetch
  try dsimp only
  repeat' first
    | with_reducible assumption | exact hc.mono rfl | with_reducible apply inv_prefetchPage | with_reducible refine inv_foldl ?_ ?_
    | with_reducible refine inv_foldl_fst ?_ ?_ | with_reducible refine inv_ite ?_ ?_ | with_reducible refine inv_ite_fst ?_ ?_
    | with_reducible refine inv_ite_snd ?_ ?_ | split | intro

theorem inv_draw {P : State → Prop} {s : State} (hc : Closed 0x1 P) (hk0 : P s) :
    P (State.draw s).2 := by
  unfold State.draw
  try dsimp only
  repeat' first
    | with_reducible assumption | exact hc.mono rfl | with_reducible apply inv_upCtl | exact fun _ => Nat.le_refl _
    | exact fun _ => Nat.le_max_left _ _ | exact fun _ => Or.inl rfl | exact fun _ => Or.inr rfl | split | intro

theorem inv_metaRead {P : State → Prop} {s : State} {part g n : Nat} (hc : Closed 0x8A02 P) (hk0 : P s) :
    P (State.metaRead s part g n).1 := by
  unfold State.metaRead
  try dsimp only
  repeat' first
    | with_reducible assumption | exact hc.mono rfl | with_reducible apply inv_charge | with_reducible apply inv_mdRead | split | intro

theorem inv_readEntries {P : State → Prop} {s : State} {pmap part : Nat} {gs : List Nat} (hc : Closed 0x8A02 P) (hk0 : P s) :
    P (State.readEntries s pmap part gs).1 := by
  unfold State.readEntries
  try dsimp only
  repeat' first
    | with_reducible assumption | exact hc.mono rfl | with_reducible apply inv_metaRead | with_reducible refine inv_foldl ?_ ?_
    | with_reducible refine inv_foldl_fst ?_ ?_ | with_reducible refine inv_ite ?_ ?_ | with_reducible refine inv_ite_fst ?_ ?_
    | with_reducible refine inv_ite_snd ?_ ?_ | split | intro

theorem inv_resolveRows {P : State → Prop} {s : State} {r : TableRec} {v : Version} {part : Nat} {l : List Nat} (hc : Closed 0x8A02 P) (hk0 : P s) :
    P (State.resolveRows s r v part l).1 := by
  unfold State.resolveRows
  try dsimp only
  repeat' first
    | with_reducible assumption | exact hc.mono rfl | with_reducible apply inv_readEntries | with_reducible refine inv_ite ?_ ?_
    | with_reducible refine inv_ite_fst ?_ ?_ | with_reducible refine inv_ite_snd ?_ ?_ | split | intro

theorem inv_readEntry {P : State → Prop} {s : State} {x : Group} {part : Nat} (hc : Closed 0x8A02 P) (hk0 : P s) :
    P (State.readEntry s x part).1 := by
  unfold State.readEntry
  try dsimp only
  repeat' first
    | with_reducible assumption | exact hc.mono rfl | with_reducible apply inv_metaRead | split | intro

theorem inv_setWay {P : State → Prop} {s : State} {sl st w : Nat} {l : Option RcLine} (hc : Closed 0x200 P) (hk0 : P s) :
    P (State.setWay s sl st w l) := by
  unfold State.setWay
  try dsimp only
  repeat' first
    | with_reducible assumption | exact hc.mono rfl | with_reducible apply inv_upCache | split | intro

theorem inv_claimWay {P : State → Prop} {s : State} {sl a part : Nat} (hc : Closed 0x202 P) (hk0 : P s) :
    P (State.claimWay s sl a part).1 := by
  unfold State.claimWay
  try dsimp only
  repeat' first
    | with_reducible assumption | exact hc.mono rfl | with_reducible apply inv_upCache | with_reducible apply inv_setWay
    | with_reducible apply inv_bump | with_reducible refine inv_ite ?_ ?_ | with_reducible refine inv_ite_fst ?_ ?_
    | with_reducible refine inv_ite_snd ?_ ?_ | split | intro

theorem inv_rescue {P : State → Prop} {s : State} {l : RcLine} (hc : Closed 0x202 P) (hk0 : P s) :
    P (State.rescue s l) := by
  unfold State.rescue
  try dsimp only
  repeat' first
    | with_reducible assumption | exact hc.mono rfl | with_reducible apply inv_upCache | with_reducible apply inv_claimWay
    | with_reducible apply inv_setWay | with_reducible apply inv_bump | with_reducible refine inv_ite ?_ ?_
    | with_reducible refine inv_ite_fst ?_ ?_ | with_reducible refine inv_ite_snd ?_ ?_ | split | intro

theorem inv_fetch {P : State → Prop} {s : State} {sl a part : Nat} {way : Option Nat} {want : Nat} (hc : Closed 0x200 P) (hk0 : P s) :
    P (State.fetch s sl a part way want) := by
  unfold State.fetch
  try dsimp only
  repeat' first
    | with_reducible assumption | exact hc.mono rfl | with_reducible apply inv_upCache | with_reducible refine inv_ite ?_ ?_
    | with_reducible refine inv_ite_fst ?_ ?_ | with_reducible refine inv_ite_snd ?_ ?_ | split | intro

theorem inv_miss {P : State → Prop} {s : State} {sl a part want : Nat} {way : Option Nat} (hc : Closed 0x202 P) (hk0 : P s) :
    P (State.miss s sl a part want way) := by
  unfold State.miss
  try dsimp only
  repeat' first
    | with_reducible assumption | exact hc.mono rfl | with_reducible apply inv_upCache | with_reducible apply inv_fetch
    | with_reducible apply inv_claimWay | with_reducible apply inv_bump | with_reducible refine inv_ite ?_ ?_
    | with_reducible refine inv_ite_fst ?_ ?_ | with_reducible refine inv_ite_snd ?_ ?_ | split | intro

theorem inv_rcRequest {P : State → Prop} {s : State} {a part want : Nat} (hc : Closed 0x202 P) (hk0 : P s) :
    P (State.rcRequest s a part want).1 := by
  unfold State.rcRequest
  try dsimp only
  repeat' first
    | with_reducible assumption | exact hc.mono rfl | with_reducible apply inv_miss | with_reducible apply inv_rescue
    | with_reducible apply inv_setWay | with_reducible apply inv_bump | with_reducible refine inv_ite ?_ ?_
    | with_reducible refine inv_ite_fst ?_ ?_ | with_reducible refine inv_ite_snd ?_ ?_ | split | intro

theorem inv_rcRead {P : State → Prop} {s : State} {tier off n part : Nat} (hc : Closed 0x8202 P) (hk0 : P s) :
    P (State.rcRead s tier off n part).1 := by
  unfold State.rcRead
  try dsimp only
  repeat' first
    | with_reducible assumption | exact hc.mono rfl | with_reducible apply inv_rcRequest | with_reducible apply inv_charge
    | with_reducible refine inv_foldl ?_ ?_ | with_reducible refine inv_foldl_fst ?_ ?_ | split | intro

theorem inv_readRow {P : State → Prop} {s : State} {g : Group} {f : Fmt} {p part : Nat} (hc : Closed 0x8202 P) (hk0 : P s) :
    P (State.readRow s g f p part).1 := by
  unfold State.readRow
  try dsimp only
  repeat' first
    | with_reducible assumption | exact hc.mono rfl | with_reducible apply inv_rcRead | with_reducible refine inv_ite ?_ ?_
    | with_reducible refine inv_ite_fst ?_ ?_ | with_reducible refine inv_ite_snd ?_ ?_ | split | intro

theorem inv_readAux {P : State → Prop} {s : State} {f : Fmt} {row : List Byte} {part : Nat} (hc : Closed 0x8202 P) (hk0 : P s) :
    P (State.readAux s f row part).1 := by
  unfold State.readAux
  try dsimp only
  repeat' first
    | with_reducible assumption | exact hc.mono rfl | with_reducible apply inv_rcRead | with_reducible refine inv_foldl ?_ ?_
    | with_reducible refine inv_foldl_fst ?_ ?_ | with_reducible refine inv_ite ?_ ?_ | with_reducible refine inv_ite_fst ?_ ?_
    | with_reducible refine inv_ite_snd ?_ ?_ | split | intro

theorem inv_rowLocal {P : State → Prop} {s : State} {g : Group} {f : Fmt} {p part : Nat} (hc : Closed 0x8202 P) (hk0 : P s) :
    P (State.rowLocal s g f p part).1 := by
  unfold State.rowLocal
  try dsimp only
  repeat' first
    | with_reducible assumption | exact hc.mono rfl | with_reducible apply inv_readAux | with_reducible apply inv_readRow | split | intro

theorem inv_upGroup {P : State → Prop} {s : State} {t v g : Nat} {f : Group → Group} (hc : Closed 0x100 P) (hk0 : P s) :
    P (State.upGroup s t v g f) := by
  unfold State.upGroup
  try dsimp only
  repeat' first
    | with_reducible assumption | exact hc.mono rfl | with_reducible apply inv_upTab | split | intro

theorem inv_touch {P : State → Prop} {s : State} {t v g n : Nat} (hc : Closed 0x100 P) (hk0 : P s) :
    P (State.touch s t v g n) := by
  unfold State.touch
  try dsimp only
  repeat' first
    | with_reducible assumption | exact hc.mono rfl | with_reducible apply inv_upGroup | with_reducible refine inv_ite ?_ ?_
    | with_reducible refine inv_ite_fst ?_ ?_ | with_reducible refine inv_ite_snd ?_ ?_ | split | intro

theorem inv_alloc {P : State → Prop} {t0 : Nat × State} {s : State} {tier n align : Nat} (hc : Closed 0x100 P) (hk0 : P s) (e0 : s.alloc tier n align = some t0) :
    P t0.2 := by
  unfold State.alloc at e0
  simp only [Option.map_eq_some_iff] at e0
  obtain ⟨b, _, rfl⟩ := e0
  dsimp only
  exact inv_upTab (hc.mono rfl) hk0

theorem inv_invalidateSectors {P : State → Prop} {s : State} {tier off n : Nat} (hc : Closed 0x200 P) (hk0 : P s) :
    P (State.invalidateSectors s tier off n) := by
  unfold State.invalidateSectors
  try dsimp only
  repeat' first
    | with_reducible assumption | exact hc.mono rfl | with_reducible apply inv_upCache | with_reducible refine inv_foldl ?_ ?_
    | with_reducible refine inv_foldl_fst ?_ ?_ | with_reducible refine inv_ite ?_ ?_ | with_reducible refine inv_ite_fst ?_ ?_
    | with_reducible refine inv_ite_snd ?_ ?_ | split | intro

theorem inv_answerTk {P : State → Prop} {s : State} {h : TkHdr} {b : TkBody} {status : Nat} {a : TkAnswer} (hc : Closed 0x4402 P) (hk0 : P s) :
    P (State.answerTk s h b status a) := by
  unfold State.answerTk
  try dsimp only
  repeat' first
    | with_reducible assumption | exact hc.mono rfl | with_reducible apply inv_send | split | intro

theorem inv_dropLines {P : State → Prop} {s : State} {p : RcLine → Bool} (hc : Closed 0x200 P) (hk0 : P s) :
    P (State.dropLines s p) := by
  unfold State.dropLines
  try dsimp only
  repeat' first
    | with_reducible assumption | exact hc.mono rfl | with_reducible apply inv_upCache | with_reducible refine inv_ite ?_ ?_
    | with_reducible refine inv_ite_fst ?_ ?_ | with_reducible refine inv_ite_snd ?_ ?_ | split | intro

theorem inv_flushRange {P : State → Prop} {s : State} {tier off n : Nat} (hc : Closed 0x200 P) (hk0 : P s) :
    P (State.flushRange s tier off n).1 := by
  unfold State.flushRange
  try dsimp only
  repeat' first
    | with_reducible assumption | exact hc.mono rfl | with_reducible apply inv_upCache | with_reducible apply inv_dropLines
    | with_reducible refine inv_ite ?_ ?_ | with_reducible refine inv_ite_fst ?_ ?_ | with_reducible refine inv_ite_snd ?_ ?_ | split
    | intro

theorem inv_freeMeta {P : State → Prop} {s : State} {a : Nat} (hc : Closed 0x100 P) (hk0 : P s) :
    P (State.freeMeta s a) := by
  unfold State.freeMeta
  try dsimp only
  repeat' first
    | with_reducible assumption | exact hc.mono rfl | with_reducible apply inv_free | with_reducible refine inv_ite ?_ ?_
    | with_reducible refine inv_ite_fst ?_ ?_ | with_reducible refine inv_ite_snd ?_ ?_ | split | intro

theorem inv_setPentry {P : State → Prop} {s : State} {pmap g : Nat} {e : PEntry} (hc : Closed 0x206 P) (hk0 : P s) :
    P (State.setPentry s pmap g e) := by
  unfold State.setPentry
  try dsimp only
  repeat' first
    | with_reducible assumption | exact hc.mono rfl | with_reducible apply inv_putMeta | split | intro

theorem inv_allocMeta {P : State → Prop} {t0 : Nat × State} {s : State} {n : Nat} {tiers : List Nat} (hc : Closed 0x108 P) (hk0 : P s)
    (e0 : s.allocMeta n tiers = some t0) : P t0.2 := by
  unfold State.allocMeta at e0
  obtain ⟨a, _, hx⟩ := List.exists_of_findSome?_eq_some e0
  simp only [Option.map_eq_some_iff] at hx
  obtain ⟨r, hr, rfl⟩ := hx
  exact inv_wipe (hc.mono rfl) (inv_alloc (hc.mono rfl) hk0 hr)

theorem inv_upVer {P : State → Prop} {s : State} {t v : Nat} {f : Version → Version} (hc : Closed 0x100 P) (hk0 : P s) :
    P (State.upVer s t v f) := by
  unfold State.upVer
  try dsimp only
  repeat' first
    | with_reducible assumption | exact hc.mono rfl | with_reducible apply inv_upTab | split | intro

theorem inv_zeroLine {P : State → Prop} {s : State} {line : Nat} (hc : Closed 0x202 P) (hk0 : P s) :
    P (State.zeroLine s line) := by
  unfold State.zeroLine
  try dsimp only
  repeat' first
    | with_reducible assumption | exact hc.mono rfl | with_reducible apply inv_upCache | with_reducible apply inv_mdVictim
    | with_reducible apply inv_mbLine | with_reducible refine inv_ite ?_ ?_ | with_reducible refine inv_ite_fst ?_ ?_
    | with_reducible refine inv_ite_snd ?_ ?_ | split | intro

theorem inv_zeroLines {P : State → Prop} {s : State} {g n : Nat} (hc : Closed 0x202 P) (hk0 : P s) :
    P (State.zeroLines s g n) := by
  unfold State.zeroLines
  try dsimp only
  repeat' first
    | with_reducible assumption | exact hc.mono rfl | with_reducible apply inv_zeroLine | with_reducible refine inv_foldl ?_ ?_
    | with_reducible refine inv_foldl_fst ?_ ?_ | split | intro

theorem inv_upRec {P : State → Prop} {s : State} {t : Nat} {f : TableRec → TableRec} (hc : Closed 0x100 P) (hk0 : P s) :
    P (State.upRec s t f) := by
  unfold State.upRec
  try dsimp only
  repeat' first
    | with_reducible assumption | exact hc.mono rfl | with_reducible apply inv_upTab | split | intro

theorem inv_spoil {P : State → Prop} {s : State} {k : Nat} {l : List Nat} (hc : Closed 0x10 P) (hk0 : P s) :
    P (State.spoil s k l) := by
  unfold State.spoil
  try dsimp only
  repeat' first
    | with_reducible assumption | exact hc.mono rfl | with_reducible apply inv_addPoison | with_reducible refine inv_foldl ?_ ?_
    | with_reducible refine inv_foldl_fst ?_ ?_ | split | intro

theorem inv_copyRun {P : State → Prop} {s : State} {src dst n : Nat} (hc : Closed 0x214 P) (hk0 : P s) :
    P (State.copyRun s src dst n) := by
  unfold State.copyRun
  try dsimp only
  repeat' first
    | with_reducible assumption | exact hc.mono rfl | with_reducible apply inv_spoil | with_reducible apply inv_putData | split | intro

theorem inv_keepEntry {P : State → Prop} {s : State} {t v g : Nat} (hc : Closed 0x206 P) (hk0 : P s) :
    P (State.keepEntry s t v g) := by
  unfold State.keepEntry
  try dsimp only
  repeat' first
    | with_reducible assumption | exact hc.mono rfl | with_reducible apply inv_putMeta | split | intro

theorem inv_ownWrite {P : State → Prop} {s : State} {a : Nat} {bs : List Byte} (hc : Closed 0x4E06 P) (hk0 : P s) :
    P (State.ownWrite s a bs) := by
  unfold State.ownWrite
  try dsimp only
  repeat' first
    | with_reducible assumption | exact hc.mono rfl | with_reducible apply inv_memWriteTo | with_reducible apply inv_hostRecord
    | with_reducible apply inv_putRecord | with_reducible refine inv_ite ?_ ?_ | with_reducible refine inv_ite_fst ?_ ?_
    | with_reducible refine inv_ite_snd ?_ ?_ | split | intro

theorem inv_owedNotify {P : State → Prop} {s : State} (hc : Closed 0xCE06 P) (hk0 : P s) :
    P (State.owedNotify s) := by
  unfold State.owedNotify
  try dsimp only
  repeat' first
    | with_reducible assumption | exact hc.mono rfl | with_reducible apply inv_upSpine | with_reducible apply inv_ownWrite
    | with_reducible refine inv_ite ?_ ?_ | with_reducible refine inv_ite_fst ?_ ?_ | with_reducible refine inv_ite_snd ?_ ?_ | split
    | intro

theorem inv_pushFault {P : State → Prop} {s : State} {r : FaultRec} (hc : Closed 0xEE06 P) (hk0 : P s) :
    P (State.pushFault s r) := by
  unfold State.pushFault
  try dsimp only
  repeat' first
    | with_reducible assumption | exact hc.mono rfl | with_reducible apply inv_upSpine | with_reducible apply inv_setReg
    | with_reducible apply inv_upFlash | with_reducible apply inv_owedNotify | with_reducible apply inv_bump
    | with_reducible apply inv_setFld | with_reducible refine inv_ite ?_ ?_ | with_reducible refine inv_ite_fst ?_ ?_
    | with_reducible refine inv_ite_snd ?_ ?_ | split | intro

theorem inv_fault {P : State → Prop} {s : State} {cls source cause detail : Nat} (hc : Closed 0xEE06 P) (hk0 : P s) :
    P (State.fault s cls source cause detail) := by
  unfold State.fault
  try dsimp only
  repeat' first
    | with_reducible assumption | exact hc.mono rfl | with_reducible apply inv_upSpine | with_reducible apply inv_pushFault
    | with_reducible refine inv_ite ?_ ?_ | with_reducible refine inv_ite_fst ?_ ?_ | with_reducible refine inv_ite_snd ?_ ?_ | split
    | intro

theorem inv_addShoot {P : State → Prop} {s : State} {x : Shoot} (hc : Closed 0x802 P) (hk0 : P s) :
    P (State.addShoot s x) := by
  unfold State.addShoot
  try dsimp only
  repeat' first
    | with_reducible assumption | exact hc.mono rfl | with_reducible apply inv_upTu | with_reducible apply inv_setFld | split | intro

theorem inv_advance {P : State → Prop} {s : State} {t : Nat} (hc : Closed 0x1 P) (hk0 : P s) :
    P (State.advance s t) := by
  unfold State.advance
  try dsimp only
  repeat' first
    | with_reducible assumption | exact hc.mono rfl | with_reducible apply inv_upCtl | exact fun _ => Nat.le_refl _
    | exact fun _ => Nat.le_max_left _ _ | exact fun _ => Or.inl rfl | exact fun _ => Or.inr rfl | split | intro

theorem inv_answer {P : State → Prop} {s : State} {dst lane : Nat} {req : List Byte} {status : Nat} {body : List Byte} (hc : Closed 0x4402 P) (hk0 : P s) :
    P (State.answer s dst lane req status body) := by
  unfold State.answer
  try dsimp only
  repeat' first
    | with_reducible assumption | exact hc.mono rfl | with_reducible apply inv_send | split | intro

theorem inv_dropXchg {P : State → Prop} {s : State} {xid : Nat} (hc : Closed 0x400 P) (hk0 : P s) :
    P (State.dropXchg s xid) := by
  unfold State.dropXchg
  try dsimp only
  repeat' first
    | with_reducible assumption | exact hc.mono rfl | with_reducible apply inv_upFab | split | intro

theorem inv_setRouteBit {P : State → Prop} {s : State} {b i : Nat} {v : Bool} (hc : Closed 0x400 P) (hk0 : P s) :
    P (State.setRouteBit s b i v) := by
  unfold State.setRouteBit
  try dsimp only
  repeat' first
    | with_reducible assumption | exact hc.mono rfl | with_reducible apply inv_upFab | split | intro

theorem inv_clearWays {P : State → Prop} {s : State} {p : RcLine → Bool} (hc : Closed 0x200 P) (hk0 : P s) :
    P (State.clearWays s p) := by
  unfold State.clearWays
  try dsimp only
  repeat' first
    | with_reducible assumption | exact hc.mono rfl | with_reducible apply inv_upCache | split | intro

theorem inv_memReply {P : State → Prop} {s : State} {src lane : Nat} {msg : List Byte} {st : Nat} (hc : Closed 0x4402 P) (hk0 : P s) :
    P (State.memReply s src lane msg st) := by
  unfold State.memReply
  try dsimp only
  repeat' first
    | with_reducible assumption | exact hc.mono rfl | with_reducible apply inv_answer | with_reducible refine inv_ite ?_ ?_
    | with_reducible refine inv_ite_fst ?_ ?_ | with_reducible refine inv_ite_snd ?_ ?_ | split | intro

theorem inv_closeHost {P : State → Prop} {s : State} {id : Nat} (hc : Closed 0x4502 P) (hk0 : P s) :
    P (State.closeHost s id) := by
  unfold State.closeHost
  try dsimp only
  repeat' first
    | with_reducible assumption | exact hc.mono rfl | with_reducible apply inv_upTab | with_reducible apply inv_memReply
    | with_reducible refine inv_ite ?_ ?_ | with_reducible refine inv_ite_fst ?_ ?_ | with_reducible refine inv_ite_snd ?_ ?_ | split
    | intro

theorem inv_fatal {P : State → Prop} {s : State} {cause detail source : Nat} (hc : Closed 0xEE07 P) (hk0 : P s) :
    P (State.fatal s cause detail source) := by
  unfold State.fatal
  try dsimp only
  repeat' first
    | with_reducible assumption | exact hc.mono rfl | with_reducible apply inv_upCtl | with_reducible apply inv_upFab
    | with_reducible apply inv_fault | with_reducible apply inv_sendTk | with_reducible apply inv_setFlows
    | with_reducible apply inv_setFld | with_reducible refine inv_ite ?_ ?_ | with_reducible refine inv_ite_fst ?_ ?_
    | with_reducible refine inv_ite_snd ?_ ?_ | exact fun _ => Nat.le_refl _ | exact fun _ => Nat.le_max_left _ _
    | exact fun _ => Or.inl rfl | exact fun _ => Or.inr rfl | split | intro

theorem inv_upSlice {P : State → Prop} {s : State} {i : Nat} {f : SliceWays → SliceWays} (hc : Closed 0x200 P) (hk0 : P s) :
    P (State.upSlice s i f) := by
  unfold State.upSlice
  try dsimp only
  repeat' first
    | with_reducible assumption | exact hc.mono rfl | with_reducible apply inv_upCache | split | intro

theorem inv_dbErr {P : State → Prop} {s : State} {n : Nat} (hc : Closed 0x2 P) (hk0 : P s) :
    P (State.dbErr s n) := by
  unfold State.dbErr
  try dsimp only
  repeat' first
    | with_reducible assumption | exact hc.mono rfl | with_reducible apply inv_setFld | split | intro

theorem inv_drainShoots {P : State → Prop} {s : State} (hc : Closed 0x802 P) (hk0 : P s) :
    P (State.drainShoots s) := by
  unfold State.drainShoots
  try dsimp only
  repeat' first
    | with_reducible assumption | exact hc.mono rfl | with_reducible apply inv_upTu | with_reducible apply inv_bump
    | with_reducible apply inv_setFld | with_reducible refine inv_foldl ?_ ?_ | with_reducible refine inv_foldl_fst ?_ ?_
    | with_reducible refine inv_ite ?_ ?_ | with_reducible refine inv_ite_fst ?_ ?_ | with_reducible refine inv_ite_snd ?_ ?_ | split
    | intro

theorem inv_runWait {P : State → Prop} {s : State} {sl : Nat} (hc : Closed 0x202 P) (hk0 : P s) :
    P (State.runWait s sl) := by
  unfold State.runWait
  try dsimp only
  repeat' first
    | with_reducible assumption | exact hc.mono rfl | with_reducible apply inv_upCache | with_reducible apply inv_rcRequest
    | with_reducible refine inv_ite ?_ ?_ | with_reducible refine inv_ite_fst ?_ ?_ | with_reducible refine inv_ite_snd ?_ ?_ | split
    | intro

theorem inv_finish {P : State → Prop} {s : State} {h status : Nat} (hc : Closed 0x80 P) (hk0 : P s) :
    P (State.finish s h status) := by
  unfold State.finish
  try dsimp only
  repeat' first
    | with_reducible assumption | exact hc.mono rfl | with_reducible apply inv_upCmd | split | intro

theorem inv_take {P : State → Prop} {s : State} {src : Nat} {bytes : List Byte} (hc : Closed 0x400 P) (hk0 : P s) :
    P (State.take s src bytes) := by
  unfold State.take
  try dsimp only
  repeat' first
    | with_reducible assumption | exact hc.mono rfl | with_reducible apply inv_upFab | split | intro

theorem inv_serveHost {P : State → Prop} {s : State} {src lane : Nat} {msg : List Byte} {f : State → Nat → State} (hc : Closed 0x4502 P) (hk0 : P s) (hf_f : ∀ y0 y1, P y0 → P (f y0 y1)) :
    P (State.serveHost s src lane msg f) := by
  unfold State.serveHost
  try dsimp only
  repeat' first
    | with_reducible assumption | exact hc.mono rfl | with_reducible apply inv_upTab | with_reducible apply inv_closeHost
    | with_reducible apply hf_f | split | intro

theorem inv_whenAlive {P : State → Prop} {s : State} {f : State → State} (hc : Closed 0x0 P) (hk0 : P s) (hf_f : ∀ y0, P y0 → P (f y0)) :
    P (whenAlive s f) := by
  unfold whenAlive
  try dsimp only
  repeat' first
    | with_reducible assumption | with_reducible apply hf_f | with_reducible refine inv_ite ?_ ?_ | with_reducible refine inv_ite_fst ?_ ?_
    | with_reducible refine inv_ite_snd ?_ ?_ | split | intro

end Sys2Proof.Machine
end

