-- ==== Sys2Proof/Laws/InvRings.lean ====
section
/-! SUPPORT. The same of tables, rings, buffers and the row commands. -/

namespace Sys2Proof.Machine

theorem inv_syncPool {P : State → Prop} {s : State} (hc : Closed 0x2 P) (hk0 : P s) :
    P (State.syncPool s) := by
  unfold State.syncPool
  try dsimp only
  repeat' first
    | with_reducible assumption | exact hc.mono rfl | with_reducible apply inv_setFld | split | intro

theorem inv_freeSlots {P : State → Prop} {s : State} (hc : Closed 0x102 P) (hk0 : P s) :
    P (State.freeSlots s) := by
  unfold State.freeSlots
  try dsimp only
  repeat' first
    | with_reducible assumption | exact hc.mono rfl | with_reducible apply inv_upTab | with_reducible apply inv_syncPool | split | intro

theorem inv_releaseSlots {P : State → Prop} {s : State} {src handle : Nat} {now : Bool} (hc : Closed 0x102 P) (hk0 : P s) :
    P (State.releaseSlots s src handle now) := by
  unfold State.releaseSlots
  try dsimp only
  repeat' first
    | with_reducible assumption | exact hc.mono rfl | with_reducible apply inv_upTab | with_reducible apply inv_freeSlots
    | with_reducible refine inv_ite ?_ ?_ | with_reducible refine inv_ite_fst ?_ ?_ | with_reducible refine inv_ite_snd ?_ ?_ | split
    | intro

theorem inv_abandonSlots {P : State → Prop} {s : State} {c : Cmd} (hc : Closed 0x4502 P) (hk0 : P s) :
    P (State.abandonSlots s c) := by
  unfold State.abandonSlots
  try dsimp only
  repeat' first
    | with_reducible assumption | exact hc.mono rfl | with_reducible apply inv_sendTk | with_reducible apply inv_releaseSlots
    | with_reducible refine inv_foldl ?_ ?_ | with_reducible refine inv_foldl_fst ?_ ?_ | split | intro

theorem inv_ringReach {P : State → Prop} {s : State} {n a len : Nat} {write : Bool} (hc : Closed 0x2 P) (hk0 : P s) :
    P (State.ringReach s n a len write).1 := by
  unfold State.ringReach
  try dsimp only
  repeat' first
    | with_reducible assumption | exact hc.mono rfl | with_reducible apply inv_reachGlobal | with_reducible apply inv_reachTier
    | with_reducible apply inv_reachHost | with_reducible refine inv_ite ?_ ?_ | with_reducible refine inv_ite_fst ?_ ?_
    | with_reducible refine inv_ite_snd ?_ ?_ | split | intro

theorem inv_flushSlots {P : State → Prop} {s : State} {n slot nslots : Nat} (hc : Closed 0x202 P) (hk0 : P s) :
    P (State.flushSlots s n slot nslots) := by
  unfold State.flushSlots
  try dsimp only
  repeat' first
    | with_reducible assumption | exact hc.mono rfl | with_reducible apply inv_mdFlush | with_reducible apply inv_ringReach
    | with_reducible refine inv_foldl ?_ ?_ | with_reducible refine inv_foldl_fst ?_ ?_ | with_reducible refine inv_ite ?_ ?_
    | with_reducible refine inv_ite_fst ?_ ?_ | with_reducible refine inv_ite_snd ?_ ?_ | split | intro

theorem inv_dropSlots {P : State → Prop} {s : State} {n : Nat} (hc : Closed 0x420 P) (hk0 : P s) :
    P (State.dropSlots s n) := by
  unfold State.dropSlots
  try dsimp only
  repeat' first
    | with_reducible assumption | exact hc.mono rfl | with_reducible apply inv_upFab | with_reducible apply inv_upRing | split | intro

theorem inv_faultRing {P : State → Prop} {s : State} {n : Nat} (hc : Closed 0x4A2 P) (hk0 : P s) :
    P (State.faultRing s n) := by
  unfold State.faultRing
  try dsimp only
  repeat' first
    | with_reducible assumption | exact hc.mono rfl | with_reducible apply inv_upCmds | with_reducible apply inv_setRingState
    | with_reducible apply inv_dropSlots | with_reducible apply inv_upRing | with_reducible refine inv_ite ?_ ?_
    | with_reducible refine inv_ite_fst ?_ ?_ | with_reducible refine inv_ite_snd ?_ ?_ | split | intro

theorem inv_ringPut {P : State → Prop} {s : State} {n a : Nat} {bs : List Byte} (hc : Closed 0x4EA6 P) (hk0 : P s) :
    P (State.ringPut s n a bs).1 := by
  unfold State.ringPut
  try dsimp only
  repeat' first
    | with_reducible assumption | exact hc.mono rfl | with_reducible apply inv_faultRing | with_reducible apply inv_memWriteTo
    | with_reducible apply inv_hostRecord | with_reducible apply inv_putRecord | with_reducible apply inv_ringReach | split | intro

theorem inv_putAccept {P : State → Prop} {s : State} {n slot handle phase tag result reason cls bound : Nat} (hc : Closed 0x4EA6 P) (hk0 : P s) :
    P (State.putAccept s n slot handle phase tag result reason cls bound).1 := by
  unfold State.putAccept
  try dsimp only
  repeat' first
    | with_reducible assumption | exact hc.mono rfl | with_reducible apply inv_ringPut | split | intro

theorem inv_takeCmd {P : State → Prop} {s : State} {n : Nat} {cmd : Cmd} (hc : Closed 0x80A2 P) (hk0 : P s) :
    P (State.takeCmd s n cmd) := by
  unfold State.takeCmd
  try dsimp only
  repeat' first
    | with_reducible assumption | exact hc.mono rfl | with_reducible apply inv_upCmds | with_reducible apply inv_upSpine
    | with_reducible apply inv_upRing | with_reducible apply inv_bump | split | intro

theorem inv_syncJournal {P : State → Prop} {s : State} (hc : Closed 0x2 P) (hk0 : P s) :
    P (State.syncJournal s) := by
  unfold State.syncJournal
  try dsimp only
  repeat' first
    | with_reducible assumption | exact hc.mono rfl | with_reducible apply inv_setFld | split | intro

theorem inv_answerDesc {P : State → Prop} {s : State} {n slot handle phase nslots ref : Nat} {j : Judged} (hc : Closed 0xCEA6 P) (hk0 : P s) :
    P (State.answerDesc s n slot handle phase nslots ref j) := by
  unfold State.answerDesc
  try dsimp only
  repeat' first
    | with_reducible assumption | exact hc.mono rfl | with_reducible apply inv_upCmds | with_reducible apply inv_syncJournal
    | with_reducible apply inv_denyIf | with_reducible apply inv_takeCmd | with_reducible apply inv_putAccept
    | with_reducible apply inv_flushSlots | with_reducible apply inv_upRing | with_reducible apply inv_bump
    | with_reducible refine inv_ite ?_ ?_ | with_reducible refine inv_ite_fst ?_ ?_ | with_reducible refine inv_ite_snd ?_ ?_ | split
    | intro

theorem inv_showTadm {P : State → Prop} {s : State} (hc : Closed 0x2 P) (hk0 : P s) :
    P (State.showTadm s) := by
  unfold State.showTadm
  try dsimp only
  repeat' first
    | with_reducible assumption | exact hc.mono rfl | with_reducible apply inv_setFld | split | intro

theorem inv_narrowsDecides {P : State → Prop} {s : State} (hc : Closed 0x3 P) (hk0 : P s) :
    P (State.narrowsDecides s) := by
  unfold State.narrowsDecides
  try dsimp only
  repeat' first
    | with_reducible assumption | exact hc.mono rfl | with_reducible apply inv_upCtl | with_reducible apply inv_showTadm
    | with_reducible apply inv_setFld | with_reducible refine inv_ite ?_ ?_ | with_reducible refine inv_ite_fst ?_ ?_
    | with_reducible refine inv_ite_snd ?_ ?_ | exact fun _ => Nat.le_refl _ | exact fun _ => Nat.le_max_left _ _
    | exact fun _ => Or.inl rfl | exact fun _ => Or.inr rfl | split | intro

theorem inv_passHead {P : State → Prop} {s : State} {n nslots : Nat} (hc : Closed 0x20 P) (hk0 : P s) :
    P (State.passHead s n nslots) := by
  unfold State.passHead
  try dsimp only
  repeat' first
    | with_reducible assumption | exact hc.mono rfl | with_reducible apply inv_upRing | with_reducible refine inv_ite ?_ ?_
    | with_reducible refine inv_ite_fst ?_ ?_ | with_reducible refine inv_ite_snd ?_ ?_ | split | intro

theorem inv_acceptDesc {P : State → Prop} {s : State} {n : Nat} {bytes : List Byte} {good : Bool} {nslots ref : Nat} (hc : Closed 0xCEE7 P) (hk0 : P s) :
    P (State.acceptDesc s n bytes good nslots ref) := by
  unfold State.acceptDesc
  try dsimp only
  repeat' first
    | with_reducible assumption | exact hc.mono rfl | with_reducible apply inv_setLastRef | with_reducible apply inv_passHead
    | with_reducible apply inv_narrowsDecides | with_reducible apply inv_answerDesc | split | intro

theorem inv_readSlot {P : State → Prop} {s : State} {n idx : Nat} (hc : Closed 0x4E02 P) (hk0 : P s) :
    P (State.readSlot s n idx).1 := by
  unfold State.readSlot
  try dsimp only
  repeat' first
    | with_reducible assumption | exact hc.mono rfl | with_reducible apply inv_mdRead | with_reducible apply inv_hostCached
    | with_reducible apply inv_request | with_reducible apply inv_ringReach | with_reducible refine inv_ite ?_ ?_
    | with_reducible refine inv_ite_fst ?_ ?_ | with_reducible refine inv_ite_snd ?_ ?_ | split | intro

theorem inv_slotBytes {P : State → Prop} {s : State} {n idx : Nat} (hc : Closed 0x4E02 P) (hk0 : P s) :
    P (State.slotBytes s n idx).1 := by
  unfold State.slotBytes
  try dsimp only
  repeat' first
    | with_reducible assumption | exact hc.mono rfl | with_reducible apply inv_readSlot | with_reducible refine inv_ite ?_ ?_
    | with_reducible refine inv_ite_fst ?_ ?_ | with_reducible refine inv_ite_snd ?_ ?_ | split | intro

theorem inv_acceptNext {P : State → Prop} {s : State} {n : Nat} (hc : Closed 0xCEE7 P) (hk0 : P s) :
    P (State.acceptNext s n) := by
  unfold State.acceptNext
  try dsimp only
  repeat' first
    | with_reducible assumption | exact hc.mono rfl | with_reducible apply inv_slotBytes | with_reducible apply inv_acceptDesc
    | with_reducible apply inv_faultRing | with_reducible refine inv_ite ?_ ?_ | with_reducible refine inv_ite_fst ?_ ?_
    | with_reducible refine inv_ite_snd ?_ ?_ | split | intro

theorem inv_release {P : State → Prop} {s : State} {h : Nat} (hc : Closed 0xD00 P) (hk0 : P s) :
    P (State.release s h) := by
  unfold State.release
  try dsimp only
  repeat' first
    | with_reducible assumption | exact hc.mono rfl | with_reducible apply inv_upFab | with_reducible apply inv_upTu
    | with_reducible apply inv_free | with_reducible refine inv_foldl ?_ ?_ | with_reducible refine inv_foldl_fst ?_ ?_ | split | intro

theorem inv_endCmd {P : State → Prop} {s : State} {h status : Nat} {f : Cmd → Cmd} (hc : Closed 0xD80 P) (hk0 : P s) :
    P (State.endCmd s h status f) := by
  unfold State.endCmd
  try dsimp only
  repeat' first
    | with_reducible assumption | exact hc.mono rfl | with_reducible apply inv_upCmd | with_reducible apply inv_release | split | intro

theorem inv_endAt {P : State → Prop} {s : State} {h status block : Nat} (hc : Closed 0xD80 P) (hk0 : P s) :
    P (State.endAt s h status block) := by
  unfold State.endAt
  try dsimp only
  repeat' first
    | with_reducible assumption | exact hc.mono rfl | with_reducible apply inv_endCmd | split | intro

theorem inv_endWith {P : State → Prop} {s : State} {h status : Nat} (hc : Closed 0xD80 P) (hk0 : P s) :
    P (State.endWith s h status) := by
  unfold State.endWith
  try dsimp only
  repeat' first
    | with_reducible assumption | exact hc.mono rfl | with_reducible apply inv_endCmd | split | intro

theorem inv_fetchRecords {P : State → Prop} {s : State} {c : Cmd} {miss : List Nat} (hc : Closed 0x4D82 P) (hk0 : P s) :
    P (State.fetchRecords s c miss) := by
  unfold State.fetchRecords
  try dsimp only
  repeat' first
    | with_reducible assumption | exact hc.mono rfl | with_reducible apply inv_upCmd | with_reducible apply inv_upTab
    | with_reducible apply inv_askTk | with_reducible apply inv_endWith | with_reducible apply inv_endAt
    | with_reducible refine inv_foldl ?_ ?_ | with_reducible refine inv_foldl_fst ?_ ?_ | with_reducible refine inv_ite ?_ ?_
    | with_reducible refine inv_ite_fst ?_ ?_ | with_reducible refine inv_ite_snd ?_ ?_ | split | intro

theorem inv_checkLate {P : State → Prop} {s : State} {c : Cmd} {d : Desc} (hc : Closed 0xD82 P) (hk0 : P s) :
    P (State.checkLate s c d) := by
  unfold State.checkLate
  try dsimp only
  repeat' first
    | with_reducible assumption | exact hc.mono rfl | with_reducible apply inv_upCmd | with_reducible apply inv_endWith
    | with_reducible apply inv_syncJournal | with_reducible apply inv_denyIf | with_reducible refine inv_ite ?_ ?_
    | with_reducible refine inv_ite_fst ?_ ?_ | with_reducible refine inv_ite_snd ?_ ?_ | split | intro

theorem inv_begin_ {P : State → Prop} {s : State} {c : Cmd} (hc : Closed 0x4D82 P) (hk0 : P s) :
    P (State.begin_ s c).1 := by
  unfold State.begin_
  try dsimp only
  repeat' first
    | with_reducible assumption | exact hc.mono rfl | with_reducible apply inv_checkLate | with_reducible apply inv_fetchRecords
    | with_reducible refine inv_ite ?_ ?_ | with_reducible refine inv_ite_fst ?_ ?_ | with_reducible refine inv_ite_snd ?_ ?_ | split
    | intro

theorem inv_readAway {P : State → Prop} {s : State} {c : Cmd} {g n : Nat} (hc : Closed 0x4402 P) (hk0 : P s) :
    P (State.readAway s c g n).1 := by
  unfold State.readAway
  try dsimp only
  repeat' first
    | with_reducible assumption | exact hc.mono rfl | with_reducible apply inv_request | with_reducible refine inv_ite ?_ ?_
    | with_reducible refine inv_ite_fst ?_ ?_ | with_reducible refine inv_ite_snd ?_ ?_ | split | intro

theorem inv_readRun {P : State → Prop} {s : State} {c : Cmd} {cached : Bool} {a n : Nat} (hc : Closed 0xCE06 P) (hk0 : P s) :
    P (State.readRun s c cached a n).1 := by
  unfold State.readRun
  try dsimp only
  repeat' first
    | with_reducible assumption | exact hc.mono rfl | with_reducible apply inv_readAway | with_reducible apply inv_charge
    | with_reducible apply inv_reach | with_reducible apply inv_mdRead | with_reducible apply inv_hostCached
    | with_reducible apply inv_hostRead | with_reducible refine inv_ite ?_ ?_ | with_reducible refine inv_ite_fst ?_ ?_
    | with_reducible refine inv_ite_snd ?_ ?_ | split | intro

theorem inv_readBuf {P : State → Prop} {s : State} {c : Cmd} {cached : Bool} {a n : Nat} (hc : Closed 0xCE06 P) (hk0 : P s) :
    P (State.readBuf s c cached a n).1 := by
  unfold State.readBuf
  try dsimp only
  repeat' first
    | with_reducible assumption | exact hc.mono rfl | with_reducible apply inv_prefetch | with_reducible apply inv_readRun
    | with_reducible refine inv_foldl ?_ ?_ | with_reducible refine inv_foldl_fst ?_ ?_ | with_reducible refine inv_ite ?_ ?_
    | with_reducible refine inv_ite_fst ?_ ?_ | with_reducible refine inv_ite_snd ?_ ?_ | split | intro

theorem inv_readBufs {P : State → Prop} {s : State} {c : Cmd} {cached : Bool} {l : List (Nat × Nat)} (hc : Closed 0xCE06 P) (hk0 : P s) :
    P (State.readBufs s c cached l).1 := by
  unfold State.readBufs
  try dsimp only
  repeat' first
    | with_reducible assumption | exact hc.mono rfl | with_reducible apply inv_readBuf | with_reducible refine inv_foldl ?_ ?_
    | with_reducible refine inv_foldl_fst ?_ ?_ | with_reducible refine inv_ite ?_ ?_ | with_reducible refine inv_ite_fst ?_ ?_
    | with_reducible refine inv_ite_snd ?_ ?_ | split | intro

theorem inv_freeBytes {P : State → Prop} {s : State} {n : Nat} (hc : Closed 0x1 P) (hk0 : P s) :
    P (State.freeBytes s n).2 := by
  unfold State.freeBytes
  try dsimp only
  repeat' first
    | with_reducible assumption | exact hc.mono rfl | with_reducible apply inv_draw | split | intro

theorem inv_scribble {P : State → Prop} {s : State} {c : Cmd} {a n : Nat} (hc : Closed 0xA07 P) (hk0 : P s) :
    P (State.scribble s c a n) := by
  unfold State.scribble
  try dsimp only
  repeat' first
    | with_reducible assumption | exact hc.mono rfl | with_reducible apply inv_freeBytes | with_reducible apply inv_reach
    | with_reducible apply inv_putData | with_reducible refine inv_foldl ?_ ?_ | with_reducible refine inv_foldl_fst ?_ ?_ | split | intro

theorem inv_freeDest {P : State → Prop} {s : State} {h status : Nat} (hc : Closed 0xA07 P) (hk0 : P s) :
    P (State.freeDest s h status) := by
  unfold State.freeDest
  try dsimp only
  repeat' first
    | with_reducible assumption | exact hc.mono rfl | with_reducible apply inv_scribble | with_reducible refine inv_foldl ?_ ?_
    | with_reducible refine inv_foldl_fst ?_ ?_ | with_reducible refine inv_ite ?_ ?_ | with_reducible refine inv_ite_fst ?_ ?_
    | with_reducible refine inv_ite_snd ?_ ?_ | split | intro

theorem inv_endFault {P : State → Prop} {s : State} {h status addr : Nat} (hc : Closed 0xD80 P) (hk0 : P s) :
    P (State.endFault s h status addr) := by
  unfold State.endFault
  try dsimp only
  repeat' first
    | with_reducible assumption | exact hc.mono rfl | with_reducible apply inv_endCmd | with_reducible refine inv_ite ?_ ?_
    | with_reducible refine inv_ite_fst ?_ ?_ | with_reducible refine inv_ite_snd ?_ ?_ | split | intro

theorem inv_endResume {P : State → Prop} {s : State} {h residx : Nat} (hc : Closed 0xD80 P) (hk0 : P s) :
    P (State.endResume s h residx) := by
  unfold State.endResume
  try dsimp only
  repeat' first
    | with_reducible assumption | exact hc.mono rfl | with_reducible apply inv_endCmd | split | intro

theorem inv_waitOn {P : State → Prop} {s : State} {h a : Nat} (hc : Closed 0x880 P) (hk0 : P s) :
    P (State.waitOn s h a) := by
  unfold State.waitOn
  try dsimp only
  repeat' first
    | with_reducible assumption | exact hc.mono rfl | with_reducible apply inv_upCmd | with_reducible apply inv_upTu | split | intro

theorem inv_meet {P : State → Prop} {s : State} {c : Cmd} {b : Buf} {residx : Nat} (hc : Closed 0xF87 P) (hk0 : P s) :
    P (State.meet s c b residx) := by
  unfold State.meet
  try dsimp only
  repeat' first
    | with_reducible assumption | exact hc.mono rfl | with_reducible apply inv_upCmd | with_reducible apply inv_waitOn
    | with_reducible apply inv_endResume | with_reducible apply inv_endFault | with_reducible apply inv_freeDest
    | with_reducible apply inv_endAt | with_reducible refine inv_ite ?_ ?_ | with_reducible refine inv_ite_fst ?_ ?_
    | with_reducible refine inv_ite_snd ?_ ?_ | split | intro

theorem inv_readLists {P : State → Prop} {s : State} {c : Cmd} {d : Desc} (hc : Closed 0xCF87 P) (hk0 : P s) :
    P (State.readLists s c d).1 := by
  unfold State.readLists
  try dsimp only
  repeat' first
    | with_reducible assumption | exact hc.mono rfl | with_reducible apply inv_meet | with_reducible apply inv_readBufs
    | with_reducible refine inv_ite ?_ ?_ | with_reducible refine inv_ite_fst ?_ ?_ | with_reducible refine inv_ite_snd ?_ ?_ | split
    | intro

theorem inv_readMapByte {P : State → Prop} {s : State} {c : Cmd} {d : Desc} {n : Nat} (hc : Closed 0xCF87 P) (hk0 : P s) :
    P (State.readMapByte s c d n).1 := by
  unfold State.readMapByte
  try dsimp only
  repeat' first
    | with_reducible assumption | exact hc.mono rfl | with_reducible apply inv_meet | with_reducible apply inv_readBuf
    | with_reducible apply inv_reach | with_reducible refine inv_ite ?_ ?_ | with_reducible refine inv_ite_fst ?_ ?_
    | with_reducible refine inv_ite_snd ?_ ?_ | split | intro

theorem inv_fetchLocal {P : State → Prop} {s : State} {t ver part : Nat} {f : Fmt} {l : List Nat} (hc : Closed 0x8B02 P) (hk0 : P s) :
    P (State.fetchLocal s t ver part f l).1 := by
  unfold State.fetchLocal
  try dsimp only
  repeat' first
    | with_reducible assumption | exact hc.mono rfl | with_reducible apply inv_touch | with_reducible apply inv_rowLocal
    | with_reducible apply inv_readEntry | with_reducible refine inv_foldl ?_ ?_ | with_reducible refine inv_foldl_fst ?_ ?_
    | with_reducible refine inv_ite ?_ ?_ | with_reducible refine inv_ite_fst ?_ ?_ | with_reducible refine inv_ite_snd ?_ ?_ | split
    | intro

theorem inv_resolveAll {P : State → Prop} {s : State} {r : TableRec} {v : Version} {part : Nat} {idx : List Nat} {w : List F32} (hc : Closed 0x8B02 P) (hk0 : P s) :
    P (State.resolveAll s r v part idx w).1 := by
  unfold State.resolveAll
  try dsimp only
  repeat' first
    | with_reducible assumption | exact hc.mono rfl | with_reducible apply inv_fetchLocal | with_reducible apply inv_resolveRows
    | with_reducible refine inv_ite ?_ ?_ | with_reducible refine inv_ite_fst ?_ ?_ | with_reducible refine inv_ite_snd ?_ ?_ | split
    | intro

theorem inv_loadMatrix {P : State → Prop} {s : State} {c : Cmd} {d : Desc} {dim : Nat} (hc : Closed 0x8B02 P) (hk0 : P s) :
    P (State.loadMatrix s c d dim).1 := by
  unfold State.loadMatrix
  try dsimp only
  repeat' first
    | with_reducible assumption | exact hc.mono rfl | with_reducible apply inv_resolveAll | with_reducible apply inv_bump
    | with_reducible refine inv_ite ?_ ?_ | with_reducible refine inv_ite_fst ?_ ?_ | with_reducible refine inv_ite_snd ?_ ?_ | split
    | intro

theorem inv_prefetchRows {P : State → Prop} {s : State} {c : Cmd} {dstp stride n : Nat} {pos : List (Nat × Nat)} (hc : Closed 0xA02 P) (hk0 : P s) :
    P (State.prefetchRows s c dstp stride n pos) := by
  unfold State.prefetchRows
  try dsimp only
  repeat' first
    | with_reducible assumption | exact hc.mono rfl | with_reducible apply inv_prefetchPage | with_reducible refine inv_foldl ?_ ?_
    | with_reducible refine inv_foldl_fst ?_ ?_ | with_reducible refine inv_ite ?_ ?_ | with_reducible refine inv_ite_fst ?_ ?_
    | with_reducible refine inv_ite_snd ?_ ?_ | split | intro

theorem inv_sendReads {P : State → Prop} {s : State} {c : Cmd} {o tbl ver ofmt : Nat} {comp degr : Bool} {kind : XKind} {rows : List Nat} (hc : Closed 0x4482 P) (hk0 : P s) :
    P (State.sendReads s c o tbl ver ofmt comp degr kind rows) := by
  unfold State.sendReads
  try dsimp only
  repeat' first
    | with_reducible assumption | exact hc.mono rfl | with_reducible apply inv_upCmd | with_reducible apply inv_request
    | with_reducible apply inv_newXid | with_reducible refine inv_foldl ?_ ?_ | with_reducible refine inv_foldl_fst ?_ ?_
    | with_reducible refine inv_ite ?_ ?_ | with_reducible refine inv_ite_fst ?_ ?_ | with_reducible refine inv_ite_snd ?_ ?_ | split
    | intro

theorem inv_stageList {P : State → Prop} {t0 : Nat × State} {s : State} {h : Nat} {bs : List Byte} (hc : Closed 0x704 P) (hk0 : P s) (e0 : State.stageList s h bs = some t0) :
    P t0.2 := by
  revert e0
  unfold State.stageList
  try dsimp only
  repeat' first
    | with_reducible assumption | exact hc.mono rfl | with_reducible apply inv_upFab | with_reducible apply inv_putData
    | with_reducible refine inv_ite ?_ ?_ | with_reducible refine inv_ite_fst ?_ ?_ | with_reducible refine inv_ite_snd ?_ ?_
    | with_reducible refine inv_alloc ?_ ?_ (by with_reducible assumption) | (intro e0; cases e0; done) | (intro e0; cases e0; skip)
    | (intro e0; obtain ⟨_, _, rfl⟩ := Option.map_eq_some_iff.mp e0; skip) | split | intro

theorem inv_bagEntry {P : State → Prop} {t0 : List Byte × State} {s : State} {h bag : Nat} {weighted : Bool} {ps : List Pos} (hc : Closed 0x704 P) (hk0 : P s) (e0 : State.bagEntry s h bag weighted ps = some t0) :
    P t0.2 := by
  revert e0
  unfold State.bagEntry
  try dsimp only
  repeat' first
    | with_reducible assumption | exact hc.mono rfl | with_reducible refine inv_ite ?_ ?_ | with_reducible refine inv_ite_fst ?_ ?_
    | with_reducible refine inv_ite_snd ?_ ?_ | with_reducible refine inv_stageList ?_ ?_ (by with_reducible assumption)
    | (intro e0; cases e0; done) | (intro e0; cases e0; skip) | (intro e0; obtain ⟨_, _, rfl⟩ := Option.map_eq_some_iff.mp e0; skip)
    | split | intro

theorem inv_bagFold {P : State → Prop} {h : Nat} {w : Bool} {l : List (Nat × List Pos)} (hc : Closed 0x704 P) :
    ∀ {i : Option (List (List Byte) × State)} {t : List (List Byte) × State}, (∀ x, i = some x → P x.2) →
    l.foldl (fun (acc : Option (List (List Byte) × State)) b =>
      acc.bind (fun a => (a.2.bagEntry h b.1 w b.2).map (fun e => (a.1 ++ [e.1], e.2)))) i = some t → P t.2 := by
  induction l with
  | nil => intro i t hi e; exact hi t e
  | cons b l ih =>
    intro i t hi e
    refine ih (i := _) ?_ e
    intro x ex
    obtain ⟨a, ha, hb⟩ := Option.bind_eq_some_iff.mp ex
    obtain ⟨r, hr, rfl⟩ := Option.map_eq_some_iff.mp hb
    exact inv_bagEntry (hc.mono rfl) (hi a ha) hr

theorem inv_sendPools {P : State → Prop} {t0 : State} {s : State} {cm : Cmd} {d : Desc} {o : Nat} (hc : Closed 0x4786 P) (hk0 : P s)
    (e0 : State.sendPools s cm d o = some t0) : P t0 := by
  unfold State.sendPools at e0
  obtain ⟨a, ha, rfl⟩ := Option.map_eq_some_iff.mp e0
  have h1 := inv_bagFold (hc.mono rfl) (fun x ex => by cases ex; exact hk0) ha
  exact inv_foldl h1 (fun s x h => inv_request (hc.mono rfl) (inv_upCmd (hc.mono rfl) h))

theorem inv_sendBundle {P : State → Prop} {s : State} {c : Cmd} {d : Desc} {o : Nat} (hc : Closed 0x4786 P) (hk0 : P s) :
    P (State.sendBundle s c d o) := by
  unfold State.sendBundle
  try dsimp only
  repeat' first
    | with_reducible assumption | exact hc.mono rfl | with_reducible apply inv_upCmd | with_reducible apply inv_sendReads
    | with_reducible refine inv_ite ?_ ?_ | with_reducible refine inv_ite_fst ?_ ?_ | with_reducible refine inv_ite_snd ?_ ?_
    | with_reducible refine inv_sendPools ?_ ?_ (by with_reducible assumption) | split | intro

theorem inv_sendBundles {P : State → Prop} {s : State} {c : Cmd} {d : Desc} (hc : Closed 0x4786 P) (hk0 : P s) :
    P (State.sendBundles s c d) := by
  unfold State.sendBundles
  try dsimp only
  repeat' first
    | with_reducible assumption | exact hc.mono rfl | with_reducible apply inv_sendBundle | with_reducible refine inv_foldl ?_ ?_
    | with_reducible refine inv_foldl_fst ?_ ?_ | split | intro

theorem inv_gatherStart {P : State → Prop} {s : State} {c : Cmd} {d : Desc} {l : Lists} {mapByte : Nat} (hc : Closed 0xCF87 P) (hk0 : P s) :
    P (State.gatherStart s c d l mapByte) := by
  unfold State.gatherStart
  try dsimp only
  repeat' first
    | with_reducible assumption | exact hc.mono rfl | with_reducible apply inv_upCmd | with_reducible apply inv_sendBundles
    | with_reducible apply inv_prefetchRows | with_reducible apply inv_loadMatrix | with_reducible apply inv_resolveAll
    | with_reducible apply inv_freeDest | with_reducible apply inv_endWith | with_reducible apply inv_bump
    | with_reducible refine inv_ite ?_ ?_ | with_reducible refine inv_ite_fst ?_ ?_ | with_reducible refine inv_ite_snd ?_ ?_ | split
    | intro

theorem inv_loadedMatrix {P : State → Prop} {s : State} {c : Cmd} {home : Nat} (hc : Closed 0x2 P) (hk0 : P s) :
    P (State.loadedMatrix s c home) := by
  unfold State.loadedMatrix
  try dsimp only
  repeat' first
    | with_reducible assumption | exact hc.mono rfl | with_reducible apply inv_bump | with_reducible refine inv_ite ?_ ?_
    | with_reducible refine inv_ite_fst ?_ ?_ | with_reducible refine inv_ite_snd ?_ ?_ | split | intro

theorem inv_freeUnits {P : State → Prop} {s : State} {open_ : Nat → Bool} {outs : List OutUnit} (hc : Closed 0x1 P) (hk0 : P s) :
    P (State.freeUnits s open_ outs).2 := by
  unfold State.freeUnits
  try dsimp only
  repeat' first
    | with_reducible assumption | exact hc.mono rfl | with_reducible apply inv_freeBytes | with_reducible refine inv_foldl ?_ ?_
    | with_reducible refine inv_foldl_fst ?_ ?_ | with_reducible refine inv_foldl_snd ?_ ?_ | with_reducible refine inv_ite ?_ ?_
    | with_reducible refine inv_ite_fst ?_ ?_ | with_reducible refine inv_ite_snd ?_ ?_ | split | intro

theorem inv_countClamps {P : State → Prop} {s : State} {c : Cmd} {d : Desc} {us : List UnitOut} (hc : Closed 0x2 P) (hk0 : P s) :
    P (State.countClamps s c d us) := by
  unfold State.countClamps
  try dsimp only
  repeat' first
    | with_reducible assumption | exact hc.mono rfl | with_reducible apply inv_bump | with_reducible refine inv_foldl ?_ ?_
    | with_reducible refine inv_foldl_fst ?_ ?_ | split | intro

theorem inv_reachUnits {P : State → Prop} {s : State} {c : Cmd} {first : Nat} {units : List OutUnit} (hc : Closed 0xA06 P) (hk0 : P s) :
    P (State.reachUnits s c first units).1 := by
  unfold State.reachUnits
  try dsimp only
  repeat' first
    | with_reducible assumption | exact hc.mono rfl | with_reducible apply inv_prefetch | with_reducible apply inv_reach
    | with_reducible refine inv_foldl ?_ ?_ | with_reducible refine inv_foldl_fst ?_ ?_ | with_reducible refine inv_ite ?_ ?_
    | with_reducible refine inv_ite_fst ?_ ?_ | with_reducible refine inv_ite_snd ?_ ?_ | split | intro

theorem inv_put {P : State → Prop} {s : State} {c : Cmd} {r : Reach} {kind : XKind} {lane : Nat} {bs : List Byte} (hc : Closed 0xCE06 P) (hk0 : P s) :
    P (State.put s c r kind lane bs) := by
  unfold State.put
  try dsimp only
  repeat' first
    | with_reducible assumption | exact hc.mono rfl | with_reducible apply inv_charge | with_reducible apply inv_hostWrite
    | with_reducible apply inv_putData | with_reducible apply inv_memWriteTo | split | intro

theorem inv_writeUnits {P : State → Prop} {s : State} {c : Cmd} {first : Nat} {units : List OutUnit} {kind : XKind} {lane : Nat} (hc : Closed 0xCE06 P) (hk0 : P s) :
    P (State.writeUnits s c first units kind lane).1 := by
  unfold State.writeUnits
  try dsimp only
  repeat' first
    | with_reducible assumption | exact hc.mono rfl | with_reducible apply inv_put | with_reducible apply inv_reachUnits
    | with_reducible refine inv_foldl ?_ ?_ | with_reducible refine inv_foldl_fst ?_ ?_ | split | intro

theorem inv_finishGather {P : State → Prop} {s : State} {c : Cmd} {d : Desc} (hc : Closed 0xCF87 P) (hk0 : P s) :
    P (State.finishGather s c d) := by
  unfold State.finishGather
  try dsimp only
  repeat' first
    | with_reducible assumption | exact hc.mono rfl | with_reducible apply inv_writeUnits | with_reducible apply inv_countClamps
    | with_reducible apply inv_freeUnits | with_reducible apply inv_loadedMatrix | with_reducible apply inv_waitOn
    | with_reducible apply inv_scribble | with_reducible apply inv_freeBytes | with_reducible apply inv_endWith
    | with_reducible apply inv_endCmd | with_reducible apply inv_bump | with_reducible refine inv_foldl ?_ ?_
    | with_reducible refine inv_foldl_fst ?_ ?_ | with_reducible refine inv_ite ?_ ?_ | with_reducible refine inv_ite_fst ?_ ?_
    | with_reducible refine inv_ite_snd ?_ ?_ | split | intro

theorem inv_runGather {P : State → Prop} {s : State} {h : Nat} (hc : Closed 0xCF87 P) (hk0 : P s) :
    P (State.runGather s h) := by
  unfold State.runGather
  try dsimp only
  repeat' first
    | with_reducible assumption | exact hc.mono rfl | with_reducible apply inv_upCmd | with_reducible apply inv_finishGather
    | with_reducible apply inv_gatherStart | with_reducible apply inv_readMapByte | with_reducible apply inv_readLists
    | with_reducible apply inv_begin_ | with_reducible refine inv_ite ?_ ?_ | with_reducible refine inv_ite_fst ?_ ?_
    | with_reducible refine inv_ite_snd ?_ ?_ | split | intro

theorem inv_scatterStart {P : State → Prop} {s : State} {c : Cmd} {d : Desc} {l : Lists} (hc : Closed 0x8F82 P) (hk0 : P s) :
    P (State.scatterStart s c d l) := by
  unfold State.scatterStart
  try dsimp only
  repeat' first
    | with_reducible assumption | exact hc.mono rfl | with_reducible apply inv_upCmd | with_reducible apply inv_prefetchRows
    | with_reducible apply inv_resolveRows | with_reducible apply inv_endWith | with_reducible apply inv_bump
    | with_reducible refine inv_ite ?_ ?_ | with_reducible refine inv_ite_fst ?_ ?_ | with_reducible refine inv_ite_snd ?_ ?_ | split
    | intro

theorem inv_homeMatrix {P : State → Prop} {s : State} {c : Cmd} {f : Fmt} (hc : Closed 0x8202 P) (hk0 : P s) :
    P (State.homeMatrix s c f).1 := by
  unfold State.homeMatrix
  try dsimp only
  repeat' first
    | with_reducible assumption | exact hc.mono rfl | with_reducible apply inv_readAux | split | intro

theorem inv_scatterGrads {P : State → Prop} {s : State} {c : Cmd} {d : Desc} (hc : Closed 0xCF87 P) (hk0 : P s) :
    P (State.scatterGrads s c d) := by
  unfold State.scatterGrads
  try dsimp only
  repeat' first
    | with_reducible assumption | exact hc.mono rfl | with_reducible apply inv_upCmd | with_reducible apply inv_homeMatrix
    | with_reducible apply inv_meet | with_reducible apply inv_readBufs | with_reducible refine inv_ite ?_ ?_
    | with_reducible refine inv_ite_fst ?_ ?_ | with_reducible refine inv_ite_snd ?_ ?_ | split | intro

theorem inv_reserveHere {P : State → Prop} {s : State} {src handle t v nel : Nat} {rows : List (Nat × Bool)} (hc : Closed 0x102 P) (hk0 : P s) :
    P (State.reserveHere s src handle t v nel rows).1 := by
  unfold State.reserveHere
  try dsimp only
  repeat' first
    | with_reducible assumption | exact hc.mono rfl | with_reducible apply inv_upTab | with_reducible apply inv_bump
    | with_reducible apply inv_syncPool | with_reducible refine inv_ite ?_ ?_ | with_reducible refine inv_ite_fst ?_ ?_
    | with_reducible refine inv_ite_snd ?_ ?_ | split | intro

theorem inv_askSlots {P : State → Prop} {s : State} {c : Cmd} {d : Desc} {r : TableRec} (hc : Closed 0x4D82 P) (hk0 : P s) :
    P (State.askSlots s c d r) := by
  unfold State.askSlots
  try dsimp only
  repeat' first
    | with_reducible assumption | exact hc.mono rfl | with_reducible apply inv_upCmd | with_reducible apply inv_reserveHere
    | with_reducible apply inv_endResume | with_reducible apply inv_askTk | with_reducible apply inv_releaseSlots
    | with_reducible refine inv_foldl ?_ ?_ | with_reducible refine inv_foldl_fst ?_ ?_ | with_reducible refine inv_ite ?_ ?_
    | with_reducible refine inv_ite_fst ?_ ?_ | with_reducible refine inv_ite_snd ?_ ?_ | split | intro

theorem inv_sendAdds {P : State → Prop} {s : State} {redelivered : Bool} {relcut : Nat} {l : List JEntry} (hc : Closed 0x4502 P) (hk0 : P s) :
    P (State.sendAdds s redelivered relcut l) := by
  unfold State.sendAdds
  try dsimp only
  repeat' first
    | with_reducible assumption | exact hc.mono rfl | with_reducible apply inv_upTab | with_reducible apply inv_request
    | with_reducible refine inv_foldl ?_ ?_ | with_reducible refine inv_foldl_fst ?_ ?_ | with_reducible refine inv_ite ?_ ?_
    | with_reducible refine inv_ite_fst ?_ ?_ | with_reducible refine inv_ite_snd ?_ ?_ | split | intro

theorem inv_openWait {P : State → Prop} {s : State} {x : AddWait} (hc : Closed 0x100 P) (hk0 : P s) :
    P (State.openWait s x).2 := by
  unfold State.openWait
  try dsimp only
  repeat' first
    | with_reducible assumption | exact hc.mono rfl | with_reducible apply inv_upTab | split | intro

theorem inv_answerWait {P : State → Prop} {s : State} {x : AddWait} (hc : Closed 0x4482 P) (hk0 : P s) :
    P (State.answerWait s x) := by
  unfold State.answerWait
  try dsimp only
  repeat' first
    | with_reducible assumption | exact hc.mono rfl | with_reducible apply inv_upCmd | with_reducible apply inv_send
    | with_reducible refine inv_ite ?_ ?_ | with_reducible refine inv_ite_fst ?_ ?_ | with_reducible refine inv_ite_snd ?_ ?_ | split
    | intro

theorem inv_settleWait {P : State → Prop} {s : State} {w : Nat} (hc : Closed 0x4582 P) (hk0 : P s) :
    P (State.settleWait s w) := by
  unfold State.settleWait
  try dsimp only
  repeat' first
    | with_reducible assumption | exact hc.mono rfl | with_reducible apply inv_upTab | with_reducible apply inv_answerWait
    | with_reducible refine inv_ite ?_ ?_ | with_reducible refine inv_ite_fst ?_ ?_ | with_reducible refine inv_ite_snd ?_ ?_ | split
    | intro

theorem inv_logAdd {P : State → Prop} {s : State} {a : AddIn} (hc : Closed 0x100 P) (hk0 : P s) :
    P (State.logAdd s a) := by
  unfold State.logAdd
  try dsimp only
  repeat' first
    | with_reducible assumption | exact hc.mono rfl | with_reducible apply inv_upTab | split | intro

theorem inv_holdPartial {P : State → Prop} {s : State} {h : HeldData} {mirror : Bool} {user : Option (Nat × Nat)} (hc : Closed 0x102 P) (hk0 : P s) :
    P (State.holdPartial s h mirror user) := by
  unfold State.holdPartial
  try dsimp only
  repeat' first
    | with_reducible assumption | exact hc.mono rfl | with_reducible apply inv_upTab | with_reducible apply inv_syncPool
    | with_reducible refine inv_ite ?_ ?_ | with_reducible refine inv_ite_fst ?_ ?_ | with_reducible refine inv_ite_snd ?_ ?_ | split
    | intro

theorem inv_foldAdd {P : State → Prop} {s : State} {r : TableRec} {a : AddIn} (hc : Closed 0x102 P) (hk0 : P s) :
    P (State.foldAdd s r a).1 := by
  unfold State.foldAdd
  try dsimp only
  repeat' first
    | with_reducible assumption | exact hc.mono rfl | with_reducible apply inv_holdPartial | with_reducible apply inv_logAdd
    | with_reducible refine inv_foldl ?_ ?_ | with_reducible refine inv_foldl_fst ?_ ?_ | split | intro

theorem inv_upWait {P : State → Prop} {s : State} {w : Nat} {f : AddWait → AddWait} (hc : Closed 0x100 P) (hk0 : P s) :
    P (State.upWait s w f) := by
  unfold State.upWait
  try dsimp only
  repeat' first
    | with_reducible assumption | exact hc.mono rfl | with_reducible apply inv_upTab | split | intro

theorem inv_mirrorTo {P : State → Prop} {s : State} {w dst : Nat} {d : CopyData} (hc : Closed 0x4502 P) (hk0 : P s) :
    P (State.mirrorTo s w dst d) := by
  unfold State.mirrorTo
  try dsimp only
  repeat' first
    | with_reducible assumption | exact hc.mono rfl | with_reducible apply inv_upWait | with_reducible apply inv_askTk | split | intro

theorem inv_mirrorAdd {P : State → Prop} {s : State} {w : Nat} {x : Group} {d : CopyData} (hc : Closed 0x4502 P) (hk0 : P s) :
    P (State.mirrorAdd s w x d) := by
  unfold State.mirrorAdd
  try dsimp only
  repeat' first
    | with_reducible assumption | exact hc.mono rfl | with_reducible apply inv_mirrorTo | with_reducible refine inv_ite ?_ ?_
    | with_reducible refine inv_ite_fst ?_ ?_ | with_reducible refine inv_ite_snd ?_ ?_ | split | intro

theorem inv_holdLate {P : State → Prop} {s : State} {w : Nat} {r : TableRec} {a : AddIn} (hc : Closed 0x4502 P) (hk0 : P s) :
    P (State.holdLate s w r a).1 := by
  unfold State.holdLate
  try dsimp only
  repeat' first
    | with_reducible assumption | exact hc.mono rfl | with_reducible apply inv_mirrorAdd | with_reducible apply inv_foldAdd | split | intro

theorem inv_launch {P : State → Prop} {s : State} {e : JEntry} (hc : Closed 0x4502 P) (hk0 : P s) :
    P (State.launch s e) := by
  unfold State.launch
  try dsimp only
  repeat' first
    | with_reducible assumption | exact hc.mono rfl | with_reducible apply inv_upTab | with_reducible apply inv_sendAdds
    | with_reducible apply inv_syncJournal | with_reducible refine inv_ite ?_ ?_ | with_reducible refine inv_ite_fst ?_ ?_
    | with_reducible refine inv_ite_snd ?_ ?_ | split | intro

theorem inv_carryOut {P : State → Prop} {s : State} {e : JEntry} (hc : Closed 0x4502 P) (hk0 : P s) :
    P (State.carryOut s e) := by
  unfold State.carryOut
  try dsimp only
  repeat' first
    | with_reducible assumption | exact hc.mono rfl | with_reducible apply inv_upTab | with_reducible apply inv_launch
    | with_reducible refine inv_ite ?_ ?_ | with_reducible refine inv_ite_fst ?_ ?_ | with_reducible refine inv_ite_snd ?_ ?_ | split
    | intro

theorem inv_passOn {P : State → Prop} {s : State} {w owner ver : Nat} {carried : Bool} {a : AddIn} (hc : Closed 0x4502 P) (hk0 : P s) :
    P (State.passOn s w owner ver carried a) := by
  unfold State.passOn
  try dsimp only
  repeat' first
    | with_reducible assumption | exact hc.mono rfl | with_reducible apply inv_carryOut | with_reducible apply inv_upWait | split | intro

theorem inv_applyRow {P : State → Prop} {s : State} {r : TableRec} {x : Group} {recipe row kcmd src seqn part : Nat} {commit : Bool} {g : List F32} (hc : Closed 0x8306 P) (hk0 : P s) :
    P (State.applyRow s r x recipe row kcmd src seqn part commit g).1 := by
  unfold State.applyRow
  try dsimp only
  repeat' first
    | with_reducible assumption | exact hc.mono rfl | with_reducible apply inv_invalidateSectors | with_reducible apply inv_touch
    | with_reducible apply inv_charge | with_reducible apply inv_putData | with_reducible apply inv_bump
    | with_reducible refine inv_ite ?_ ?_ | with_reducible refine inv_ite_fst ?_ ?_ | with_reducible refine inv_ite_snd ?_ ?_ | split
    | intro

theorem inv_addHere {P : State → Prop} {s : State} {w part : Nat} {r : TableRec} {x : Group} {a : AddIn} (hc : Closed 0xC706 P) (hk0 : P s) :
    P (State.addHere s w part r x a).1 := by
  unfold State.addHere
  try dsimp only
  repeat' first
    | with_reducible assumption | exact hc.mono rfl | with_reducible apply inv_applyRow | with_reducible apply inv_mirrorAdd
    | with_reducible apply inv_foldAdd | with_reducible apply inv_logAdd | with_reducible refine inv_ite ?_ ?_
    | with_reducible refine inv_ite_fst ?_ ?_ | with_reducible refine inv_ite_snd ?_ ?_ | split | intro

theorem inv_addAtGroup {P : State → Prop} {s : State} {w part : Nat} {r : TableRec} {v : Version} {a : AddIn} (hc : Closed 0xC706 P) (hk0 : P s) :
    P (State.addAtGroup s w part r v a).1 := by
  unfold State.addAtGroup
  try dsimp only
  repeat' first
    | with_reducible assumption | exact hc.mono rfl | with_reducible apply inv_upTab | with_reducible apply inv_addHere
    | with_reducible apply inv_passOn | with_reducible apply inv_upWait | with_reducible apply inv_syncJournal
    | with_reducible refine inv_ite ?_ ?_ | with_reducible refine inv_ite_fst ?_ ?_ | with_reducible refine inv_ite_snd ?_ ?_ | split
    | intro

theorem inv_carryAdd {P : State → Prop} {s : State} {w part : Nat} {r : TableRec} {a : AddIn} (hc : Closed 0xC706 P) (hk0 : P s) :
    P (State.carryAdd s w part r a).1 := by
  unfold State.carryAdd
  try dsimp only
  repeat' first
    | with_reducible assumption | exact hc.mono rfl | with_reducible apply inv_addAtGroup | with_reducible apply inv_passOn
    | with_reducible apply inv_bump | with_reducible refine inv_ite ?_ ?_ | with_reducible refine inv_ite_fst ?_ ?_
    | with_reducible refine inv_ite_snd ?_ ?_ | split | intro

theorem inv_takeAdd {P : State → Prop} {s : State} {w part : Nat} {a : AddIn} (hc : Closed 0xC706 P) (hk0 : P s) :
    P (State.takeAdd s w part a).1 := by
  unfold State.takeAdd
  try dsimp only
  repeat' first
    | with_reducible assumption | exact hc.mono rfl | with_reducible apply inv_carryAdd | with_reducible apply inv_addAtGroup
    | with_reducible apply inv_holdLate | with_reducible apply inv_bump | with_reducible refine inv_ite ?_ ?_
    | with_reducible refine inv_ite_fst ?_ ?_ | with_reducible refine inv_ite_snd ?_ ?_ | split | intro

theorem inv_takeAdds {P : State → Prop} {s : State} {w part : Nat} {l : List AddIn} (hc : Closed 0xC706 P) (hk0 : P s) :
    P (State.takeAdds s w part l) := by
  unfold State.takeAdds
  try dsimp only
  repeat' first
    | with_reducible assumption | exact hc.mono rfl | with_reducible apply inv_takeAdd | with_reducible apply inv_upWait
    | with_reducible refine inv_foldl ?_ ?_ | with_reducible refine inv_foldl_fst ?_ ?_ | split | intro

theorem inv_handOff {P : State → Prop} {s : State} {c : Cmd} {d : Desc} {r : TableRec} (hc : Closed 0xCF86 P) (hk0 : P s) :
    P (State.handOff s c d r) := by
  unfold State.handOff
  try dsimp only
  repeat' first
    | with_reducible assumption | exact hc.mono rfl | with_reducible apply inv_upCmd | with_reducible apply inv_takeAdds
    | with_reducible apply inv_settleWait | with_reducible apply inv_openWait | with_reducible apply inv_sendAdds
    | with_reducible apply inv_endCmd | with_reducible apply inv_syncJournal | with_reducible apply inv_abandonSlots
    | with_reducible apply inv_bump | with_reducible refine inv_ite ?_ ?_ | with_reducible refine inv_ite_fst ?_ ?_
    | with_reducible refine inv_ite_snd ?_ ?_ | split | intro

theorem inv_finishScatter {P : State → Prop} {s : State} {c : Cmd} {d : Desc} (hc : Closed 0xD80 P) (hk0 : P s) :
    P (State.finishScatter s c d) := by
  unfold State.finishScatter
  try dsimp only
  repeat' first
    | with_reducible assumption | exact hc.mono rfl | with_reducible apply inv_endCmd | with_reducible refine inv_ite ?_ ?_
    | with_reducible refine inv_ite_fst ?_ ?_ | with_reducible refine inv_ite_snd ?_ ?_ | split | intro

theorem inv_runScatter {P : State → Prop} {s : State} {h : Nat} (hc : Closed 0xCF87 P) (hk0 : P s) :
    P (State.runScatter s h) := by
  unfold State.runScatter
  try dsimp only
  repeat' first
    | with_reducible assumption | exact hc.mono rfl | with_reducible apply inv_upCmd | with_reducible apply inv_finishScatter
    | with_reducible apply inv_handOff | with_reducible apply inv_askSlots | with_reducible apply inv_scatterGrads
    | with_reducible apply inv_scatterStart | with_reducible apply inv_readLists | with_reducible apply inv_begin_
    | with_reducible refine inv_ite ?_ ?_ | with_reducible refine inv_ite_fst ?_ ?_ | with_reducible refine inv_ite_snd ?_ ?_ | split
    | intro

theorem inv_sendUpdate {P : State → Prop} {s : State} {t : Nat} {u : TkUpdate} (hc : Closed 0x4402 P) (hk0 : P s) :
    P (State.sendUpdate s t u) := by
  unfold State.sendUpdate
  try dsimp only
  repeat' first
    | with_reducible assumption | exact hc.mono rfl | with_reducible apply inv_askTk | with_reducible refine inv_foldl ?_ ?_
    | with_reducible refine inv_foldl_fst ?_ ?_ | split | intro

theorem inv_applyEntry {P : State → Prop} {s : State} {t v g : Nat} {e : PEntry} (hc : Closed 0x206 P) (hk0 : P s) :
    P (State.applyEntry s t v g e) := by
  unfold State.applyEntry
  try dsimp only
  repeat' first
    | with_reducible assumption | exact hc.mono rfl | with_reducible apply inv_setPentry | split | intro

theorem inv_upReg {P : State → Prop} {s : State} {t : Nat} {f : RegEntry → RegEntry} (hc : Closed 0x100 P) (hk0 : P s) :
    P (State.upReg s t f) := by
  unfold State.upReg
  try dsimp only
  repeat' first
    | with_reducible assumption | exact hc.mono rfl | with_reducible apply inv_upTab | split | intro

theorem inv_lessWait {P : State → Prop} {s : State} {w : Nat} {drop : Option (Nat × Nat)} {findings : Nat} (hc : Closed 0x4582 P) (hk0 : P s) :
    P (State.lessWait s w drop findings) := by
  unfold State.lessWait
  try dsimp only
  repeat' first
    | with_reducible assumption | exact hc.mono rfl | with_reducible apply inv_upWait | with_reducible apply inv_settleWait
    | with_reducible refine inv_ite ?_ ?_ | with_reducible refine inv_ite_fst ?_ ?_ | with_reducible refine inv_ite_snd ?_ ?_ | split
    | intro

theorem inv_resend {P : State → Prop} {s : State} {t v g : Nat} {redelivered : Bool} {l : JEntry → Bool} (hc : Closed 0x4502 P) (hk0 : P s) :
    P (State.resend s t v g redelivered l) := by
  unfold State.resend
  try dsimp only
  repeat' first
    | with_reducible assumption | exact hc.mono rfl | with_reducible apply inv_upTab | with_reducible apply inv_upFab
    | with_reducible apply inv_sendAdds | with_reducible apply inv_bump | with_reducible refine inv_ite ?_ ?_
    | with_reducible refine inv_ite_fst ?_ ?_ | with_reducible refine inv_ite_snd ?_ ?_ | split | intro

theorem inv_refetch {P : State → Prop} {s : State} {t v g : Nat} (hc : Closed 0x4402 P) (hk0 : P s) :
    P (State.refetch s t v g) := by
  unfold State.refetch
  try dsimp only
  repeat' first
    | with_reducible assumption | exact hc.mono rfl | with_reducible apply inv_askTk | with_reducible refine inv_ite ?_ ?_
    | with_reducible refine inv_ite_fst ?_ ?_ | with_reducible refine inv_ite_snd ?_ ?_ | split | intro

theorem inv_dropUnused {P : State → Prop} {s : State} {t : Nat} (hc : Closed 0x102 P) (hk0 : P s) :
    P (State.dropUnused s t) := by
  unfold State.dropUnused
  try dsimp only
  repeat' first
    | with_reducible assumption | exact hc.mono rfl | with_reducible apply inv_upTab | with_reducible apply inv_freeSlots
    | with_reducible refine inv_ite ?_ ?_ | with_reducible refine inv_ite_fst ?_ ?_ | with_reducible refine inv_ite_snd ?_ ?_ | split
    | intro

theorem inv_commitKind {P : State → Prop} {s : State} {w part leader kcmd : Nat} {r : TableRec} {x : Group} {row : Nat} {plain : Bool} {l : List Slot} (hc : Closed 0x8306 P) (hk0 : P s) :
    P (State.commitKind s w part leader kcmd r x row plain l) := by
  unfold State.commitKind
  try dsimp only
  repeat' first
    | with_reducible assumption | exact hc.mono rfl | with_reducible apply inv_applyRow | with_reducible apply inv_upWait
    | with_reducible refine inv_ite ?_ ?_ | with_reducible refine inv_ite_fst ?_ ?_ | with_reducible refine inv_ite_snd ?_ ?_ | split
    | intro

theorem inv_takeSlots {P : State → Prop} {s : State} {taken : Slot → Bool} {hold : Option Nat} (hc : Closed 0x102 P) (hk0 : P s) :
    P (State.takeSlots s taken hold) := by
  unfold State.takeSlots
  try dsimp only
  repeat' first
    | with_reducible assumption | exact hc.mono rfl | with_reducible apply inv_upTab | with_reducible apply inv_freeSlots
    | with_reducible refine inv_ite ?_ ?_ | with_reducible refine inv_ite_fst ?_ ?_ | with_reducible refine inv_ite_snd ?_ ?_ | split
    | intro

theorem inv_commitRow {P : State → Prop} {s : State} {w part leader kcmd : Nat} {r : TableRec} {x : Group} {row : Nat} (hc : Closed 0xC706 P) (hk0 : P s) :
    P (State.commitRow s w part leader kcmd r x row) := by
  unfold State.commitRow
  try dsimp only
  repeat' first
    | with_reducible assumption | exact hc.mono rfl | with_reducible apply inv_takeSlots | with_reducible apply inv_commitKind
    | with_reducible apply inv_mirrorAdd | with_reducible apply inv_upWait | split | intro

theorem inv_commitRetired {P : State → Prop} {s : State} {w part leader kcmd ctx : Nat} {r : TableRec} {z : Slot} (hc : Closed 0xC706 P) (hk0 : P s) :
    P (State.commitRetired s w part leader kcmd ctx r z) := by
  unfold State.commitRetired
  try dsimp only
  repeat' first
    | with_reducible assumption | exact hc.mono rfl | with_reducible apply inv_upTab | with_reducible apply inv_takeSlots
    | with_reducible apply inv_carryAdd | with_reducible apply inv_upWait | split | intro

theorem inv_commitHere {P : State → Prop} {s : State} {w part t step kcmd leader : Nat} (hc : Closed 0xC706 P) (hk0 : P s) :
    P (State.commitHere s w part t step kcmd leader) := by
  unfold State.commitHere
  try dsimp only
  repeat' first
    | with_reducible assumption | exact hc.mono rfl | with_reducible apply inv_commitRetired | with_reducible apply inv_commitRow
    | with_reducible apply inv_dropUnused | with_reducible apply inv_mirrorAdd | with_reducible apply inv_upGroup
    | with_reducible apply inv_syncPool | with_reducible refine inv_foldl ?_ ?_ | with_reducible refine inv_foldl_fst ?_ ?_ | split | intro

theorem inv_commitStart {P : State → Prop} {s : State} {c : Cmd} {d : Desc} {r : TableRec} (hc : Closed 0xCF86 P) (hk0 : P s) :
    P (State.commitStart s c d r) := by
  unfold State.commitStart
  try dsimp only
  repeat' first
    | with_reducible assumption | exact hc.mono rfl | with_reducible apply inv_upCmd | with_reducible apply inv_commitHere
    | with_reducible apply inv_settleWait | with_reducible apply inv_openWait | with_reducible apply inv_askTk
    | with_reducible apply inv_endWith | with_reducible refine inv_foldl ?_ ?_ | with_reducible refine inv_foldl_fst ?_ ?_
    | with_reducible refine inv_ite ?_ ?_ | with_reducible refine inv_ite_fst ?_ ?_ | with_reducible refine inv_ite_snd ?_ ?_ | split
    | intro

theorem inv_runCommit {P : State → Prop} {s : State} {h : Nat} (hc : Closed 0xCF86 P) (hk0 : P s) :
    P (State.runCommit s h) := by
  unfold State.runCommit
  try dsimp only
  repeat' first
    | with_reducible assumption | exact hc.mono rfl | with_reducible apply inv_commitStart | with_reducible apply inv_begin_
    | with_reducible apply inv_endWith | with_reducible refine inv_ite ?_ ?_ | with_reducible refine inv_ite_fst ?_ ?_
    | with_reducible refine inv_ite_snd ?_ ?_ | split | intro

theorem inv_buildMap {P : State → Prop} {s : State} {n : Nat} (hc : Closed 0xA06 P) (hk0 : P s) :
    P (State.buildMap s n).1 := by
  unfold State.buildMap
  try dsimp only
  repeat' first
    | with_reducible assumption | exact hc.mono rfl | with_reducible apply inv_upTu | with_reducible apply inv_reachVirt
    | with_reducible refine inv_foldl ?_ ?_ | with_reducible refine inv_foldl_fst ?_ ?_ | split | intro

theorem inv_attachRing {P : State → Prop} {s : State} {n major minor : Nat} (hc : Closed 0xA26 P) (hk0 : P s) :
    P (State.attachRing s n major minor) := by
  unfold State.attachRing
  try dsimp only
  repeat' first
    | with_reducible assumption | exact hc.mono rfl | with_reducible apply inv_setRing | with_reducible apply inv_buildMap
    | with_reducible apply inv_setRingState | with_reducible apply inv_setFld | with_reducible refine inv_ite ?_ ?_
    | with_reducible refine inv_ite_fst ?_ ?_ | with_reducible refine inv_ite_snd ?_ ?_ | split | intro

theorem inv_clearEntry {P : State → Prop} {s : State} {src findings : Nat} {drops : List (Nat × Nat)} {e : JEntry} (hc : Closed 0x4582 P) (hk0 : P s) :
    P (State.clearEntry s src findings drops e) := by
  unfold State.clearEntry
  try dsimp only
  repeat' first
    | with_reducible assumption | exact hc.mono rfl | with_reducible apply inv_upTab | with_reducible apply inv_upCmd
    | with_reducible apply inv_refetch | with_reducible apply inv_lessWait | with_reducible apply inv_bump
    | with_reducible refine inv_ite ?_ ?_ | with_reducible refine inv_ite_fst ?_ ?_ | with_reducible refine inv_ite_snd ?_ ?_ | split
    | intro

theorem inv_commitAnswer {P : State → Prop} {s : State} {h o rows findings : Nat} (hc : Closed 0x80 P) (hk0 : P s) :
    P (State.commitAnswer s h o rows findings) := by
  unfold State.commitAnswer
  try dsimp only
  repeat' first
    | with_reducible assumption | exact hc.mono rfl | with_reducible apply inv_upCmd | split | intro

theorem inv_retryCarries {P : State → Prop} {s : State} (hc : Closed 0x4502 P) (hk0 : P s) :
    P (State.retryCarries s) := by
  unfold State.retryCarries
  try dsimp only
  repeat' first
    | with_reducible assumption | exact hc.mono rfl | with_reducible apply inv_upTab | with_reducible apply inv_launch
    | with_reducible refine inv_foldl ?_ ?_ | with_reducible refine inv_foldl_fst ?_ ?_ | with_reducible refine inv_ite ?_ ?_
    | with_reducible refine inv_ite_fst ?_ ?_ | with_reducible refine inv_ite_snd ?_ ?_ | split | intro

theorem inv_settleRing {P : State → Prop} {s : State} {n : Nat} (hc : Closed 0x2 P) (hk0 : P s) :
    P (State.settleRing s n) := by
  unfold State.settleRing
  try dsimp only
  repeat' first
    | with_reducible assumption | exact hc.mono rfl | with_reducible apply inv_setRingState | with_reducible refine inv_ite ?_ ?_
    | with_reducible refine inv_ite_fst ?_ ?_ | with_reducible refine inv_ite_snd ?_ ?_ | split | intro

theorem inv_detachRing {P : State → Prop} {s : State} {n : Nat} {force : Bool} (hc : Closed 0x4A2 P) (hk0 : P s) :
    P (State.detachRing s n force) := by
  unfold State.detachRing
  try dsimp only
  repeat' first
    | with_reducible assumption | exact hc.mono rfl | with_reducible apply inv_upCmds | with_reducible apply inv_settleRing
    | with_reducible apply inv_setRingState | with_reducible apply inv_dropSlots | with_reducible refine inv_ite ?_ ?_
    | with_reducible refine inv_ite_fst ?_ ?_ | with_reducible refine inv_ite_snd ?_ ?_ | split | intro

theorem inv_confirmed {P : State → Prop} {s : State} {xid w : Nat} (hc : Closed 0x4582 P) (hk0 : P s) :
    P (State.confirmed s xid w) := by
  unfold State.confirmed
  try dsimp only
  repeat' first
    | with_reducible assumption | exact hc.mono rfl | with_reducible apply inv_upTab | with_reducible apply inv_lessWait
    | with_reducible apply inv_freeSlots | with_reducible refine inv_ite ?_ ?_ | with_reducible refine inv_ite_fst ?_ ?_
    | with_reducible refine inv_ite_snd ?_ ?_ | split | intro

theorem inv_pushEntry {P : State → Prop} {s : State} {t v g : Nat} {e : PEntry} (hc : Closed 0x4606 P) (hk0 : P s) :
    P (State.pushEntry s t v g e) := by
  unfold State.pushEntry
  try dsimp only
  repeat' first
    | with_reducible assumption | exact hc.mono rfl | with_reducible apply inv_applyEntry | with_reducible apply inv_sendUpdate | split
    | intro

theorem inv_reportSecondary {P : State → Prop} {s : State} {t v g : Nat} (hc : Closed 0x4706 P) (hk0 : P s) :
    P (State.reportSecondary s t v g) := by
  unfold State.reportSecondary
  try dsimp only
  repeat' first
    | with_reducible assumption | exact hc.mono rfl | with_reducible apply inv_upTab | with_reducible apply inv_pushEntry
    | with_reducible apply inv_sendTk | with_reducible refine inv_ite ?_ ?_ | with_reducible refine inv_ite_fst ?_ ?_
    | with_reducible refine inv_ite_snd ?_ ?_ | split | intro

theorem inv_cqHeadWrite {P : State → Prop} {s : State} {n v : Nat} (hc : Closed 0x22 P) (hk0 : P s) :
    P (State.cqHeadWrite s n v) := by
  unfold State.cqHeadWrite
  try dsimp only
  repeat' first
    | with_reducible assumption | exact hc.mono rfl | with_reducible apply inv_dbErr | with_reducible apply inv_upRing
    | with_reducible refine inv_ite ?_ ?_ | with_reducible refine inv_ite_fst ?_ ?_ | with_reducible refine inv_ite_snd ?_ ?_ | split
    | intro

theorem inv_cutGather {P : State → Prop} {s : State} {c : Cmd} (hc : Closed 0xD80 P) (hk0 : P s) :
    P (State.cutGather s c) := by
  unfold State.cutGather
  try dsimp only
  repeat' first
    | with_reducible assumption | exact hc.mono rfl | with_reducible apply inv_upCmd | with_reducible apply inv_release
    | with_reducible refine inv_ite ?_ ?_ | with_reducible refine inv_ite_fst ?_ ?_ | with_reducible refine inv_ite_snd ?_ ?_ | split
    | intro

theorem inv_sweepWaits {P : State → Prop} {s : State} (hc : Closed 0x4786 P) (hk0 : P s) :
    P (State.sweepWaits s) := by
  unfold State.sweepWaits
  try dsimp only
  repeat' first
    | with_reducible assumption | exact hc.mono rfl | with_reducible apply inv_reportSecondary | with_reducible apply inv_confirmed
    | with_reducible apply inv_dropXchg | with_reducible refine inv_foldl ?_ ?_ | with_reducible refine inv_foldl_fst ?_ ?_
    | with_reducible refine inv_ite ?_ ?_ | with_reducible refine inv_ite_fst ?_ ?_ | with_reducible refine inv_ite_snd ?_ ?_ | split
    | intro

theorem inv_cutScatter {P : State → Prop} {s : State} {c : Cmd} {d : Desc} (hc : Closed 0x4F86 P) (hk0 : P s) :
    P (State.cutScatter s c d) := by
  unfold State.cutScatter
  try dsimp only
  repeat' first
    | with_reducible assumption | exact hc.mono rfl | with_reducible apply inv_sweepWaits | with_reducible apply inv_finishScatter
    | with_reducible apply inv_endCmd | with_reducible apply inv_abandonSlots | with_reducible refine inv_foldl ?_ ?_
    | with_reducible refine inv_foldl_fst ?_ ?_ | with_reducible refine inv_ite ?_ ?_ | with_reducible refine inv_ite_fst ?_ ?_
    | with_reducible refine inv_ite_snd ?_ ?_ | split | intro

theorem inv_cutCommit {P : State → Prop} {s : State} {c : Cmd} (hc : Closed 0xD80 P) (hk0 : P s) :
    P (State.cutCommit s c) := by
  unfold State.cutCommit
  try dsimp only
  repeat' first
    | with_reducible assumption | exact hc.mono rfl | with_reducible apply inv_endAt | with_reducible refine inv_foldl ?_ ?_
    | with_reducible refine inv_foldl_fst ?_ ?_ | split | intro

theorem inv_fetchServed {P : State → Prop} {s : State} {src handle relcut t ver : Nat} {f : Fmt} {l : List Nat} (hc : Closed 0x8B02 P) (hk0 : P s) :
    P (State.fetchServed s src handle relcut t ver f l).1 := by
  unfold State.fetchServed
  try dsimp only
  repeat' first
    | with_reducible assumption | exact hc.mono rfl | with_reducible apply inv_upTab | with_reducible apply inv_fetchLocal | split | intro

theorem inv_servePool {P : State → Prop} {s : State} {src lane : Nat} {msg : List Byte} {r : TableRec} {ver : Nat} {lists : List (Nat × List Byte)} (hc : Closed 0xCF02 P) (hk0 : P s) :
    P (State.servePool s src lane msg r ver lists) := by
  unfold State.servePool
  try dsimp only
  repeat' first
    | with_reducible assumption | exact hc.mono rfl | with_reducible apply inv_fetchServed | with_reducible apply inv_answer
    | with_reducible refine inv_foldl ?_ ?_ | with_reducible refine inv_foldl_fst ?_ ?_ | with_reducible refine inv_ite ?_ ?_
    | with_reducible refine inv_ite_fst ?_ ?_ | with_reducible refine inv_ite_snd ?_ ?_ | split | intro

theorem inv_extArrived {P : State → Prop} {s : State} {id addr : Nat} {bs : List Byte} (hc : Closed 0xCF02 P) (hk0 : P s) :
    P (State.extArrived s id addr bs) := by
  unfold State.extArrived
  try dsimp only
  repeat' first
    | with_reducible assumption | exact hc.mono rfl | with_reducible apply inv_upTab | with_reducible apply inv_servePool
    | with_reducible apply inv_answer | with_reducible refine inv_ite ?_ ?_ | with_reducible refine inv_ite_fst ?_ ?_
    | with_reducible refine inv_ite_snd ?_ ?_ | split | intro

theorem inv_resolveAgain {P : State → Prop} {s : State} {r : TableRec} {v : Version} {part : Nat} {open_ : Nat × Pos → Bool} {l : List Pos} (hc : Closed 0x8B02 P) (hk0 : P s) :
    P (State.resolveAgain s r v part open_ l).1 := by
  unfold State.resolveAgain
  try dsimp only
  repeat' first
    | with_reducible assumption | exact hc.mono rfl | with_reducible apply inv_resolveAll | with_reducible refine inv_ite ?_ ?_
    | with_reducible refine inv_ite_fst ?_ ?_ | with_reducible refine inv_ite_snd ?_ ?_ | split | intro

theorem inv_regather {P : State → Prop} {s : State} {c : Cmd} {d : Desc} (hc : Closed 0xCF87 P) (hk0 : P s) :
    P (State.regather s c d) := by
  unfold State.regather
  try dsimp only
  repeat' first
    | with_reducible assumption | exact hc.mono rfl | with_reducible apply inv_upCmd | with_reducible apply inv_resolveAgain
    | with_reducible apply inv_sendBundles | with_reducible apply inv_freeDest | with_reducible apply inv_endWith
    | with_reducible apply inv_bump | with_reducible refine inv_foldl ?_ ?_ | with_reducible refine inv_foldl_fst ?_ ?_
    | with_reducible refine inv_ite ?_ ?_ | with_reducible refine inv_ite_fst ?_ ?_ | with_reducible refine inv_ite_snd ?_ ?_ | split
    | intro

theorem inv_staleBundle {P : State → Prop} {s : State} {c : Cmd} {d : Desc} {xid : Nat} {proj : Bool} (hc : Closed 0xCF87 P) (hk0 : P s) :
    P (State.staleBundle s c d xid proj) := by
  unfold State.staleBundle
  try dsimp only
  repeat' first
    | with_reducible assumption | exact hc.mono rfl | with_reducible apply inv_regather | with_reducible apply inv_askTk
    | with_reducible apply inv_bump | with_reducible refine inv_foldl ?_ ?_ | with_reducible refine inv_foldl_fst ?_ ?_
    | with_reducible refine inv_ite ?_ ?_ | with_reducible refine inv_ite_fst ?_ ?_ | with_reducible refine inv_ite_snd ?_ ?_ | split
    | intro

theorem inv_takeReply {P : State → Prop} {s : State} {x : Xchg} {pool : Bool} {msg : List Byte} (hc : Closed 0xCF87 P) (hk0 : P s) :
    P (State.takeReply s x pool msg) := by
  unfold State.takeReply
  try dsimp only
  repeat' first
    | with_reducible assumption | exact hc.mono rfl | with_reducible apply inv_upCmd | with_reducible apply inv_staleBundle
    | with_reducible apply inv_dropXchg | with_reducible refine inv_ite ?_ ?_ | with_reducible refine inv_ite_fst ?_ ?_
    | with_reducible refine inv_ite_snd ?_ ?_ | split | intro

theorem inv_gatherReply {P : State → Prop} {s : State} {src : Nat} {pool : Bool} {msg : List Byte} (hc : Closed 0xCF87 P) (hk0 : P s) :
    P (State.gatherReply s src pool msg).1 := by
  unfold State.gatherReply
  try dsimp only
  repeat' first
    | with_reducible assumption | exact hc.mono rfl | with_reducible apply inv_takeReply | with_reducible apply inv_bump
    | with_reducible refine inv_ite ?_ ?_ | with_reducible refine inv_ite_fst ?_ ?_ | with_reducible refine inv_ite_snd ?_ ?_ | split
    | intro

theorem inv_idFreed {P : State → Prop} {s : State} {t src : Nat} (hc : Closed 0x100 P) (hk0 : P s) :
    P (State.idFreed s t src) := by
  unfold State.idFreed
  try dsimp only
  repeat' first
    | with_reducible assumption | exact hc.mono rfl | with_reducible apply inv_upTab | with_reducible refine inv_ite ?_ ?_
    | with_reducible refine inv_ite_fst ?_ ?_ | with_reducible refine inv_ite_snd ?_ ?_ | split | intro

theorem inv_notifyNow {P : State → Prop} {s : State} {n cfg : Nat} (hc : Closed 0x4EA6 P) (hk0 : P s) :
    P (State.notifyNow s n cfg) := by
  unfold State.notifyNow
  try dsimp only
  repeat' first
    | with_reducible assumption | exact hc.mono rfl | with_reducible apply inv_ringPut | with_reducible apply inv_upRing
    | with_reducible refine inv_ite ?_ ?_ | with_reducible refine inv_ite_fst ?_ ?_ | with_reducible refine inv_ite_snd ?_ ?_ | split
    | intro

theorem inv_notifyDue {P : State → Prop} {s : State} {n : Nat} (hc : Closed 0x4EA6 P) (hk0 : P s) :
    P (State.notifyDue s n) := by
  unfold State.notifyDue
  try dsimp only
  repeat' first
    | with_reducible assumption | exact hc.mono rfl | with_reducible apply inv_notifyNow | with_reducible refine inv_ite ?_ ?_
    | with_reducible refine inv_ite_fst ?_ ?_ | with_reducible refine inv_ite_snd ?_ ?_ | split | intro

theorem inv_notifyRecord {P : State → Prop} {s : State} {n : Nat} (hc : Closed 0x4EA6 P) (hk0 : P s) :
    P (State.notifyRecord s n) := by
  unfold State.notifyRecord
  try dsimp only
  repeat' first
    | with_reducible assumption | exact hc.mono rfl | with_reducible apply inv_notifyNow | with_reducible apply inv_upRing
    | with_reducible refine inv_ite ?_ ?_ | with_reducible refine inv_ite_fst ?_ ?_ | with_reducible refine inv_ite_snd ?_ ?_ | split
    | intro

theorem inv_recvAdd {P : State → Prop} {s : State} {src lane : Nat} {msg : List Byte} (hc : Closed 0xC786 P) (hk0 : P s) :
    P (State.recvAdd s src lane msg) := by
  unfold State.recvAdd
  try dsimp only
  repeat' first
    | with_reducible assumption | exact hc.mono rfl | with_reducible apply inv_takeAdds | with_reducible apply inv_settleWait
    | with_reducible apply inv_openWait | with_reducible apply inv_deny | with_reducible apply inv_send | with_reducible apply inv_bump
    | with_reducible refine inv_ite ?_ ?_ | with_reducible refine inv_ite_fst ?_ ?_ | with_reducible refine inv_ite_snd ?_ ?_ | split
    | intro

theorem inv_recvAddAck {P : State → Prop} {s : State} {src : Nat} {msg : List Byte} (hc : Closed 0x4582 P) (hk0 : P s) :
    P (State.recvAddAck s src msg) := by
  unfold State.recvAddAck
  try dsimp only
  repeat' first
    | with_reducible assumption | exact hc.mono rfl | with_reducible apply inv_retryCarries | with_reducible apply inv_clearEntry
    | with_reducible apply inv_dropXchg | with_reducible apply inv_syncJournal | with_reducible refine inv_foldl ?_ ?_
    | with_reducible refine inv_foldl_fst ?_ ?_ | with_reducible refine inv_ite ?_ ?_ | with_reducible refine inv_ite_fst ?_ ?_
    | with_reducible refine inv_ite_snd ?_ ?_ | split | intro

theorem inv_recvCommit {P : State → Prop} {s : State} {hdr : TkHdr} {tbl step kcmd leader : Nat} (hc : Closed 0xC786 P) (hk0 : P s) :
    P (State.recvCommit s hdr tbl step kcmd leader) := by
  unfold State.recvCommit
  try dsimp only
  repeat' first
    | with_reducible assumption | exact hc.mono rfl | with_reducible apply inv_commitHere | with_reducible apply inv_settleWait
    | with_reducible apply inv_openWait | split | intro

theorem inv_storeCopy {P : State → Prop} {s : State} {d : CopyData} (hc : Closed 0x8316 P) (hk0 : P s) :
    P (State.storeCopy s d) := by
  unfold State.storeCopy
  try dsimp only
  repeat' first
    | with_reducible assumption | exact hc.mono rfl | with_reducible apply inv_upTab | with_reducible apply inv_spoil
    | with_reducible apply inv_holdPartial | with_reducible apply inv_upGroup | with_reducible apply inv_charge
    | with_reducible apply inv_putData | with_reducible refine inv_foldl ?_ ?_ | with_reducible refine inv_foldl_fst ?_ ?_ | split | intro

theorem inv_slotsAnswer {P : State → Prop} {s : State} {h o : Nat} {granted : Bool} (hc : Closed 0x4D82 P) (hk0 : P s) :
    P (State.slotsAnswer s h o granted) := by
  unfold State.slotsAnswer
  try dsimp only
  repeat' first
    | with_reducible assumption | exact hc.mono rfl | with_reducible apply inv_upCmd | with_reducible apply inv_endResume
    | with_reducible apply inv_abandonSlots | with_reducible refine inv_ite ?_ ?_ | with_reducible refine inv_ite_fst ?_ ?_
    | with_reducible refine inv_ite_snd ?_ ?_ | split | intro

theorem inv_serveRead {P : State → Prop} {s : State} {src lane : Nat} {msg : List Byte} {r : TableRec} {ver : Nat} (hc : Closed 0xCF02 P) (hk0 : P s) :
    P (State.serveRead s src lane msg r ver) := by
  unfold State.serveRead
  try dsimp only
  repeat' first
    | with_reducible assumption | exact hc.mono rfl | with_reducible apply inv_answer | with_reducible apply inv_fetchLocal
    | with_reducible apply inv_bump | with_reducible refine inv_foldl ?_ ?_ | with_reducible refine inv_foldl_fst ?_ ?_
    | with_reducible refine inv_ite ?_ ?_ | with_reducible refine inv_ite_fst ?_ ?_ | with_reducible refine inv_ite_snd ?_ ?_ | split
    | intro

theorem inv_serveBundle {P : State → Prop} {s : State} {src : Nat} {pool : Bool} {msg : List Byte} (hc : Closed 0xCF02 P) (hk0 : P s) :
    P (State.serveBundle s src pool msg) := by
  unfold State.serveBundle
  try dsimp only
  repeat' first
    | with_reducible assumption | exact hc.mono rfl | with_reducible apply inv_upTab | with_reducible apply inv_serveRead
    | with_reducible apply inv_servePool | with_reducible apply inv_answer | with_reducible apply inv_request
    | with_reducible apply inv_deny | with_reducible refine inv_foldl ?_ ?_ | with_reducible refine inv_foldl_fst ?_ ?_
    | with_reducible refine inv_ite ?_ ?_ | with_reducible refine inv_ite_fst ?_ ?_ | with_reducible refine inv_ite_snd ?_ ?_ | split
    | intro

theorem inv_tailWrite {P : State → Prop} {s : State} {n v : Nat} (hc : Closed 0x22 P) (hk0 : P s) :
    P (State.tailWrite s n v) := by
  unfold State.tailWrite
  try dsimp only
  repeat' first
    | with_reducible assumption | exact hc.mono rfl | with_reducible apply inv_dbErr | with_reducible apply inv_upRing
    | with_reducible refine inv_ite ?_ ?_ | with_reducible refine inv_ite_fst ?_ ?_ | with_reducible refine inv_ite_snd ?_ ?_ | split
    | intro

theorem inv_tellDone {P : State → Prop} {s : State} {c : Cmd} {d : Desc} (hc : Closed 0x4502 P) (hk0 : P s) :
    P (State.tellDone s c d) := by
  unfold State.tellDone
  try dsimp only
  repeat' first
    | with_reducible assumption | exact hc.mono rfl | with_reducible apply inv_idFreed | with_reducible apply inv_sendTk
    | with_reducible refine inv_foldl ?_ ?_ | with_reducible refine inv_foldl_fst ?_ ?_ | with_reducible refine inv_ite ?_ ?_
    | with_reducible refine inv_ite_fst ?_ ?_ | with_reducible refine inv_ite_snd ?_ ?_ | split | intro

theorem inv_writeCompletion {P : State → Prop} {s : State} {c : Cmd} (hc : Closed 0xEFA6 P) (hk0 : P s) :
    P (State.writeCompletion s c) := by
  unfold State.writeCompletion
  try dsimp only
  repeat' first
    | with_reducible assumption | exact hc.mono rfl | with_reducible apply inv_upCmds | with_reducible apply inv_tellDone
    | with_reducible apply inv_notifyRecord | with_reducible apply inv_settleRing | with_reducible apply inv_fault
    | with_reducible apply inv_syncJournal | with_reducible apply inv_ringPut | with_reducible apply inv_upRing
    | with_reducible apply inv_bump | with_reducible refine inv_ite ?_ ?_ | with_reducible refine inv_ite_fst ?_ ?_
    | with_reducible refine inv_ite_snd ?_ ?_ | split | intro

end Sys2Proof.Machine
end

