-- ==== Sys2Proof/Laws/InvKeeper.lean ====
section
/-! SUPPORT. The same of the Table Keeper. -/

namespace Sys2Proof.Machine

theorem inv_endAsked {P : State → Prop} {s : State} {h status failblk : Nat} (hc : Closed 0xD80 P) (hk0 : P s) :
    P (State.endAsked s h status failblk) := by
  unfold State.endAsked
  try dsimp only
  repeat' first
    | with_reducible assumption | exact hc.mono rfl | with_reducible apply inv_endCmd | with_reducible refine inv_ite ?_ ?_
    | with_reducible refine inv_ite_fst ?_ ?_ | with_reducible refine inv_ite_snd ?_ ?_ | split | intro

theorem inv_newOp {P : State → Prop} {s : State} {t from_ handle xid : Nat} {k : OpKind} (hc : Closed 0x100 P) (hk0 : P s) :
    P (State.newOp s t from_ handle xid k).2 := by
  unfold State.newOp
  try dsimp only
  repeat' first
    | with_reducible assumption | exact hc.mono rfl | with_reducible apply inv_upTab | split | intro

theorem inv_upOp {P : State → Prop} {s : State} {id : Nat} {f : Op → Op} (hc : Closed 0x100 P) (hk0 : P s) :
    P (State.upOp s id f) := by
  unfold State.upOp
  try dsimp only
  repeat' first
    | with_reducible assumption | exact hc.mono rfl | with_reducible apply inv_upTab | split | intro

theorem inv_tellMirror {P : State → Prop} {s : State} {t : Nat} {u : TkUpdate} (hc : Closed 0x4402 P) (hk0 : P s) :
    P (State.tellMirror s t u) := by
  unfold State.tellMirror
  try dsimp only
  repeat' first
    | with_reducible assumption | exact hc.mono rfl | with_reducible apply inv_sendTk | with_reducible refine inv_ite ?_ ?_
    | with_reducible refine inv_ite_fst ?_ ?_ | with_reducible refine inv_ite_snd ?_ ?_ | split | intro

theorem inv_endOp {P : State → Prop} {s : State} {id : Nat} (hc : Closed 0x4502 P) (hk0 : P s) :
    P (State.endOp s id) := by
  unfold State.endOp
  try dsimp only
  repeat' first
    | with_reducible assumption | exact hc.mono rfl | with_reducible apply inv_upTab | with_reducible apply inv_tellMirror
    | with_reducible refine inv_ite ?_ ?_ | with_reducible refine inv_ite_fst ?_ ?_ | with_reducible refine inv_ite_snd ?_ ?_ | split
    | intro

theorem inv_answerOp {P : State → Prop} {s : State} {o : Op} {status failblk : Nat} {a : TkAnswer} (hc : Closed 0x4D82 P) (hk0 : P s) :
    P (State.answerOp s o status failblk a) := by
  unfold State.answerOp
  try dsimp only
  repeat' first
    | with_reducible assumption | exact hc.mono rfl | with_reducible apply inv_endAsked | with_reducible apply inv_endCmd
    | with_reducible apply inv_send | with_reducible refine inv_ite ?_ ?_ | with_reducible refine inv_ite_fst ?_ ?_
    | with_reducible refine inv_ite_snd ?_ ?_ | split | intro

theorem inv_useRsv {P : State → Prop} {s : State} {t v tier n : Nat} {back : Bool} (hc : Closed 0x100 P) (hk0 : P s) :
    P (State.useRsv s t v tier n back) := by
  unfold State.useRsv
  try dsimp only
  repeat' first
    | with_reducible assumption | exact hc.mono rfl | with_reducible apply inv_upTab | with_reducible refine inv_ite ?_ ?_
    | with_reducible refine inv_ite_fst ?_ ?_ | with_reducible refine inv_ite_snd ?_ ?_ | split | intro

theorem inv_dropRows {P : State → Prop} {s : State} {t v g : Nat} {keepRsv : Bool} (hc : Closed 0x308 P) (hk0 : P s) :
    P (State.dropRows s t v g keepRsv) := by
  unfold State.dropRows
  try dsimp only
  repeat' first
    | with_reducible assumption | exact hc.mono rfl | with_reducible apply inv_wipe | with_reducible apply inv_upTab
    | with_reducible apply inv_useRsv | with_reducible apply inv_flushRange | with_reducible apply inv_free
    | with_reducible apply inv_mdFlush | with_reducible refine inv_ite ?_ ?_ | with_reducible refine inv_ite_fst ?_ ?_
    | with_reducible refine inv_ite_snd ?_ ?_ | split | intro

theorem inv_clearSlot {P : State → Prop} {s : State} {n : Nat} (hc : Closed 0x2 P) (hk0 : P s) :
    P (State.clearSlot s n) := by
  unfold State.clearSlot
  try dsimp only
  repeat' first
    | with_reducible assumption | exact hc.mono rfl | with_reducible apply inv_setReg | with_reducible refine inv_ite ?_ ?_
    | with_reducible refine inv_ite_fst ?_ ?_ | with_reducible refine inv_ite_snd ?_ ?_ | split | intro

theorem inv_freeVersion {P : State → Prop} {s : State} {t v : Nat} (hc : Closed 0x30A P) (hk0 : P s) :
    P (State.freeVersion s t v) := by
  unfold State.freeVersion
  try dsimp only
  repeat' first
    | with_reducible assumption | exact hc.mono rfl | with_reducible apply inv_upTab | with_reducible apply inv_clearSlot
    | with_reducible apply inv_freeMeta | with_reducible apply inv_dropRows | with_reducible apply inv_flushRange
    | with_reducible apply inv_free | with_reducible apply inv_mdFlush | with_reducible refine inv_foldl ?_ ?_
    | with_reducible refine inv_foldl_fst ?_ ?_ | with_reducible refine inv_ite ?_ ?_ | with_reducible refine inv_ite_fst ?_ ?_
    | with_reducible refine inv_ite_snd ?_ ?_ | split | intro

theorem inv_syncTk {P : State → Prop} {s : State} (hc : Closed 0x2 P) (hk0 : P s) :
    P (State.syncTk s) := by
  unfold State.syncTk
  try dsimp only
  repeat' first
    | with_reducible assumption | exact hc.mono rfl | with_reducible apply inv_setFld | split | intro

theorem inv_dropRecord {P : State → Prop} {s : State} {t : Nat} (hc : Closed 0x30A P) (hk0 : P s) :
    P (State.dropRecord s t) := by
  unfold State.dropRecord
  try dsimp only
  repeat' first
    | with_reducible assumption | exact hc.mono rfl | with_reducible apply inv_upTab | with_reducible apply inv_syncTk
    | with_reducible apply inv_freeVersion | with_reducible apply inv_freeMeta | with_reducible apply inv_free
    | with_reducible apply inv_mdFlush | with_reducible apply inv_bump | with_reducible apply inv_syncPool
    | with_reducible refine inv_foldl ?_ ?_ | with_reducible refine inv_foldl_fst ?_ ?_ | with_reducible refine inv_ite ?_ ?_
    | with_reducible refine inv_ite_fst ?_ ?_ | with_reducible refine inv_ite_snd ?_ ?_ | split | intro

theorem inv_dropCreation {P : State → Prop} {s : State} {t phase : Nat} {a : CreateArgs} (hc : Closed 0x470A P) (hk0 : P s) :
    P (State.dropCreation s t phase a) := by
  unfold State.dropCreation
  try dsimp only
  repeat' first
    | with_reducible assumption | exact hc.mono rfl | with_reducible apply inv_upTab | with_reducible apply inv_dropRecord
    | with_reducible apply inv_sendUpdate | with_reducible apply inv_sendTk | with_reducible refine inv_foldl ?_ ?_
    | with_reducible refine inv_foldl_fst ?_ ?_ | with_reducible refine inv_ite ?_ ?_ | with_reducible refine inv_ite_fst ?_ ?_
    | with_reducible refine inv_ite_snd ?_ ?_ | split | intro

theorem inv_failOp {P : State → Prop} {s : State} {o : Op} (hc : Closed 0x4F8E P) (hk0 : P s) :
    P (State.failOp s o) := by
  unfold State.failOp
  try dsimp only
  repeat' first
    | with_reducible assumption | exact hc.mono rfl | with_reducible apply inv_applyEntry | with_reducible apply inv_dropCreation
    | with_reducible apply inv_freeVersion | with_reducible apply inv_answerOp | with_reducible apply inv_endOp
    | with_reducible apply inv_sendTk | with_reducible refine inv_foldl ?_ ?_ | with_reducible refine inv_foldl_fst ?_ ?_
    | with_reducible refine inv_ite ?_ ?_ | with_reducible refine inv_ite_fst ?_ ?_ | with_reducible refine inv_ite_snd ?_ ?_ | split
    | intro

theorem inv_mirrorOp {P : State → Prop} {s : State} {o : Op} (hc : Closed 0x4402 P) (hk0 : P s) :
    P (State.mirrorOp s o) := by
  unfold State.mirrorOp
  try dsimp only
  repeat' first
    | with_reducible assumption | exact hc.mono rfl | with_reducible apply inv_tellMirror | split | intro

theorem inv_reserveBytes {P : State → Prop} {t0 : State} {s : State} {t v tier n : Nat} (hc : Closed 0x100 P) (hk0 : P s) (e0 : State.reserveBytes s t v tier n = some t0) :
    P t0 := by
  revert e0
  unfold State.reserveBytes
  try dsimp only
  repeat' first
    | with_reducible assumption | exact hc.mono rfl | with_reducible apply inv_upTab | with_reducible refine inv_ite ?_ ?_
    | with_reducible refine inv_ite_fst ?_ ?_ | with_reducible refine inv_ite_snd ?_ ?_ | (intro e0; cases e0; done)
    | (intro e0; cases e0; skip) | (intro e0; obtain ⟨_, _, rfl⟩ := Option.map_eq_some_iff.mp e0; skip) | split | intro

theorem inv_allocIf {P : State → Prop} {s : State} {p : Prop} [Decidable p] {n : Nat} {l : List Nat} {t0 : Nat × State} (hc : Closed 0x108 P) (hk0 : P s)
    (e : (if p then s.allocMeta n l else some (0, s)) = some t0) : P t0.2 := by
  split at e
  · exact inv_allocMeta (hc.mono rfl) hk0 e
  · cases e; exact hk0

theorem inv_allocUnless {P : State → Prop} {s : State} {p : Prop} [Decidable p] {n : Nat} {l : List Nat} {t0 : Nat × State} (hc : Closed 0x108 P) (hk0 : P s)
    (e : (if p then some (0, s) else s.allocMeta n l) = some t0) : P t0.2 := by
  split at e
  · cases e; exact hk0
  · exact inv_allocMeta (hc.mono rfl) hk0 e

theorem inv_allocSnd {P : State → Prop} {s : State} {t n a : Nat} (hc : Closed 0x100 P) (hk0 : P s) :
    P (((s.alloc t n a).map (fun x => x.2)).getD s) := by
  cases h : s.alloc t n a with
  | none => exact hk0
  | some x => exact inv_alloc (hc.mono rfl) hk0 h

theorem inv_addRecord {P : State → Prop} {s : State} {d : RecordData} (hc : Closed 0x30E P) (hk0 : P s) :
    P (State.addRecord s d) := by
  unfold State.addRecord
  try dsimp only
  repeat' first
    | with_reducible assumption | exact hc.mono rfl | with_reducible apply inv_upTab | with_reducible apply inv_putMeta
    | with_reducible refine inv_ite ?_ ?_ | with_reducible refine inv_ite_fst ?_ ?_ | with_reducible refine inv_ite_snd ?_ ?_
    | with_reducible refine inv_allocMeta ?_ ?_ (by with_reducible assumption)
    | with_reducible refine inv_alloc ?_ ?_ (by with_reducible assumption)
    | with_reducible refine inv_allocUnless ?_ ?_ (by with_reducible assumption)
    | with_reducible refine inv_allocIf ?_ ?_ (by with_reducible assumption) | with_reducible apply inv_allocSnd | split | intro

theorem inv_writeMap {P : State → Prop} {s : State} {t v : Nat} {m : List (Nat × PEntry)} (hc : Closed 0x206 P) (hk0 : P s) :
    P (State.writeMap s t v m) := by
  unfold State.writeMap
  try dsimp only
  repeat' first
    | with_reducible assumption | exact hc.mono rfl | with_reducible apply inv_applyEntry | with_reducible refine inv_foldl ?_ ?_
    | with_reducible refine inv_foldl_fst ?_ ?_ | split | intro

theorem inv_makeVersion {P : State → Prop} {t0 : State} {s : State} {t v fmt ngroups : Nat} {owners : List Nat} {st : VState} (hc : Closed 0x30A P)
    (hk0 : P s) (e0 : State.makeVersion s t v fmt ngroups owners st = some t0) : P t0 := by
  unfold State.makeVersion at e0
  obtain ⟨m, hm, e1⟩ := Option.bind_eq_some_iff.mp e0
  obtain ⟨m0, hm0, rfl⟩ := Option.map_eq_some_iff.mp hm
  obtain ⟨a, ha, e2⟩ := Option.bind_eq_some_iff.mp e1
  obtain ⟨n, _, rfl⟩ := Option.map_eq_some_iff.mp e2
  have h1 := inv_zeroLines (g := m0.1) (n := 4 * ngroups) (hc.mono rfl) (inv_allocMeta (hc.mono rfl) hk0 hm0)
  refine inv_upTab (hc.mono rfl) (inv_setReg (hc.mono rfl) ?_)
  split at ha
  · exact inv_allocMeta (hc.mono rfl) h1 ha
  · cases ha; exact h1

theorem inv_ensureVersion {P : State → Prop} {s : State} {d : RecordData} {v : Nat} {m : List (Nat × PEntry)} {aux : List Byte} {st : VState} (hc : Closed 0x30E P) (hk0 : P s) :
    P (State.ensureVersion s d v m aux st) := by
  unfold State.ensureVersion
  try dsimp only
  repeat' first
    | with_reducible assumption | exact hc.mono rfl | with_reducible apply inv_upVer | with_reducible apply inv_writeMap
    | with_reducible apply inv_putData | with_reducible refine inv_ite ?_ ?_ | with_reducible refine inv_ite_fst ?_ ?_
    | with_reducible refine inv_ite_snd ?_ ?_ | with_reducible refine inv_makeVersion ?_ ?_ (by with_reducible assumption) | split | intro

theorem inv_keepRec {P : State → Prop} {s : State} {t : Nat} (hc : Closed 0x206 P) (hk0 : P s) :
    P (State.keepRec s t) := by
  unfold State.keepRec
  try dsimp only
  repeat' first
    | with_reducible assumption | exact hc.mono rfl | with_reducible apply inv_putMeta | split | intro

theorem inv_useRec {P : State → Prop} {s : State} {t : Nat} (hc : Closed 0x100 P) (hk0 : P s) :
    P (State.useRec s t) := by
  unfold State.useRec
  try dsimp only
  repeat' first
    | with_reducible assumption | exact hc.mono rfl | with_reducible apply inv_upRec | split | intro

theorem inv_installRecord {P : State → Prop} {s : State} {d : RecordData} (hc : Closed 0x30E P) (hk0 : P s) :
    P (State.installRecord s d) := by
  unfold State.installRecord
  try dsimp only
  repeat' first
    | with_reducible assumption | exact hc.mono rfl | with_reducible apply inv_useRec | with_reducible apply inv_keepRec
    | with_reducible apply inv_upRec | with_reducible apply inv_ensureVersion | with_reducible apply inv_upReg
    | with_reducible apply inv_addRecord | with_reducible apply inv_dropRecord | with_reducible apply inv_syncTk
    | with_reducible refine inv_ite ?_ ?_ | with_reducible refine inv_ite_fst ?_ ?_ | with_reducible refine inv_ite_snd ?_ ?_ | split
    | intro

theorem inv_askAll {P : State → Prop} {s : State} {id t : Nat} {b : TkBody} (hc : Closed 0x4402 P) (hk0 : P s) :
    P (State.askAll s id t b) := by
  unfold State.askAll
  try dsimp only
  repeat' first
    | with_reducible assumption | exact hc.mono rfl | with_reducible apply inv_askTk | with_reducible refine inv_foldl ?_ ?_
    | with_reducible refine inv_foldl_fst ?_ ?_ | split | intro

theorem inv_keepId {P : State → Prop} {s : State} {t asker : Nat} (hc : Closed 0x100 P) (hk0 : P s) :
    P (State.keepId s t asker) := by
  unfold State.keepId
  try dsimp only
  repeat' first
    | with_reducible assumption | exact hc.mono rfl | with_reducible apply inv_upTab | split | intro

theorem inv_publishReserve {P : State → Prop} {t0 : State} {s : State} {t v : Nat} (hc : Closed 0x30A P) (hk0 : P s)
    (e0 : State.publishReserve s t v = some t0) : P t0 := by
  unfold State.publishReserve at e0
  split at e0
  · cases e0
  · split at e0
    · cases e0; exact hk0
    · obtain ⟨x, hx, e1⟩ := Option.bind_eq_some_iff.mp e0
      exact inv_makeVersion (hc.mono rfl) (inv_reserveBytes (hc.mono rfl) hk0 hx) e1

theorem inv_initAccs {P : State → Prop} {s : State} {r : TableRec} {x : Group} {f : Fmt} (hc : Closed 0x204 P) (hk0 : P s) :
    P (State.initAccs s r x f) := by
  unfold State.initAccs
  try dsimp only
  repeat' first
    | with_reducible assumption | exact hc.mono rfl | with_reducible apply inv_putData | with_reducible refine inv_ite ?_ ?_
    | with_reducible refine inv_ite_fst ?_ ?_ | with_reducible refine inv_ite_snd ?_ ?_ | split | intro

theorem inv_allocTwo {P : State → Prop} {s : State} {t n a t2 n2 a2 : Nat} {t0 : Nat × Nat × State} (hc : Closed 0x100 P) (hk0 : P s)
    (e : ((s.alloc t n a).bind fun x => (x.2.alloc t2 n2 a2).map fun e => (x.1, e.1, e.2)) = some t0) : P t0.2.2 := by
  obtain ⟨x, hx, e1⟩ := Option.bind_eq_some_iff.mp e
  obtain ⟨y, hy, rfl⟩ := Option.map_eq_some_iff.mp e1
  exact inv_alloc (hc.mono rfl) (inv_alloc (hc.mono rfl) hk0 hx) hy

theorem inv_placeGroup {P : State → Prop} {s : State} {r : TableRec} {v g tier : Nat} {secondary : Bool} (hc : Closed 0x30E P) (hk0 : P s) :
    P (State.placeGroup s r v g tier secondary) := by
  unfold State.placeGroup
  try dsimp only
  repeat' first
    | with_reducible assumption | exact hc.mono rfl | with_reducible apply inv_wipe | with_reducible apply inv_upTab
    | with_reducible apply inv_keepEntry | with_reducible apply inv_initAccs | with_reducible apply inv_useRsv
    | with_reducible refine inv_ite ?_ ?_ | with_reducible refine inv_ite_fst ?_ ?_ | with_reducible refine inv_ite_snd ?_ ?_
    | with_reducible refine inv_alloc ?_ ?_ (by with_reducible assumption)
    | with_reducible refine inv_allocTwo ?_ ?_ (by with_reducible assumption) | split | intro

theorem inv_publishCopy {P : State → Prop} {s : State} {t v : Nat} (hc : Closed 0x831E P) (hk0 : P s) :
    P (State.publishCopy s t v) := by
  unfold State.publishCopy
  try dsimp only
  repeat' first
    | with_reducible assumption | exact hc.mono rfl | with_reducible apply inv_placeGroup | with_reducible apply inv_copyRun
    | with_reducible apply inv_writeMap | with_reducible apply inv_charge | with_reducible refine inv_foldl ?_ ?_
    | with_reducible refine inv_foldl_fst ?_ ?_ | with_reducible refine inv_ite ?_ ?_ | with_reducible refine inv_ite_fst ?_ ?_
    | with_reducible refine inv_ite_snd ?_ ?_ | split | intro

theorem inv_publishHere {P : State → Prop} {s : State} {t v : Nat} (hc : Closed 0x306 P) (hk0 : P s) :
    P (State.publishHere s t v) := by
  unfold State.publishHere
  try dsimp only
  repeat' first
    | with_reducible assumption | exact hc.mono rfl | with_reducible apply inv_keepRec | with_reducible apply inv_upRec
    | with_reducible apply inv_upVer | split | intro

theorem inv_switchHere {P : State → Prop} {s : State} {t : Nat} (hc : Closed 0x306 P) (hk0 : P s) :
    P (State.switchHere s t) := by
  unfold State.switchHere
  try dsimp only
  repeat' first
    | with_reducible assumption | exact hc.mono rfl | with_reducible apply inv_keepRec | with_reducible apply inv_upRec
    | with_reducible apply inv_upVer | with_reducible refine inv_ite ?_ ?_ | with_reducible refine inv_ite_fst ?_ ?_
    | with_reducible refine inv_ite_snd ?_ ?_ | split | intro

theorem inv_promoteHere {P : State → Prop} {s : State} {t v g : Nat} (hc : Closed 0x306 P) (hk0 : P s) :
    P (State.promoteHere s t v g) := by
  unfold State.promoteHere
  try dsimp only
  repeat' first
    | with_reducible assumption | exact hc.mono rfl | with_reducible apply inv_upTab | with_reducible apply inv_keepEntry
    | with_reducible apply inv_upGroup | with_reducible apply inv_syncPool | with_reducible refine inv_ite ?_ ?_
    | with_reducible refine inv_ite_fst ?_ ?_ | with_reducible refine inv_ite_snd ?_ ?_ | split | intro

theorem inv_dropGroup {P : State → Prop} {s : State} {t v g : Nat} {keepRsv : Bool} (hc : Closed 0x30A P) (hk0 : P s) :
    P (State.dropGroup s t v g keepRsv) := by
  unfold State.dropGroup
  try dsimp only
  repeat' first
    | with_reducible assumption | exact hc.mono rfl | with_reducible apply inv_upTab | with_reducible apply inv_dropRows
    | with_reducible apply inv_bump | with_reducible apply inv_syncPool | with_reducible refine inv_ite ?_ ?_
    | with_reducible refine inv_ite_fst ?_ ?_ | with_reducible refine inv_ite_snd ?_ ?_ | split | intro

theorem inv_discardJournal {P : State → Prop} {s : State} {t v g owner : Nat} (hc : Closed 0x4582 P) (hk0 : P s) :
    P (State.discardJournal s t v g owner) := by
  unfold State.discardJournal
  try dsimp only
  repeat' first
    | with_reducible assumption | exact hc.mono rfl | with_reducible apply inv_upTab | with_reducible apply inv_upCmd
    | with_reducible apply inv_lessWait | with_reducible apply inv_syncJournal | with_reducible apply inv_bump
    | with_reducible refine inv_foldl ?_ ?_ | with_reducible refine inv_foldl_fst ?_ ?_ | with_reducible refine inv_ite ?_ ?_
    | with_reducible refine inv_ite_fst ?_ ?_ | with_reducible refine inv_ite_snd ?_ ?_ | split | intro

theorem inv_entryEffects {P : State → Prop} {s : State} {t v g : Nat} {old e : PEntry} (hc : Closed 0x478E P) (hk0 : P s) :
    P (State.entryEffects s t v g old e) := by
  unfold State.entryEffects
  try dsimp only
  repeat' first
    | with_reducible assumption | exact hc.mono rfl | with_reducible apply inv_upTab | with_reducible apply inv_resend
    | with_reducible apply inv_discardJournal | with_reducible apply inv_dropGroup | with_reducible apply inv_promoteHere
    | with_reducible apply inv_placeGroup | with_reducible apply inv_upGroup | with_reducible refine inv_ite ?_ ?_
    | with_reducible refine inv_ite_fst ?_ ?_ | with_reducible refine inv_ite_snd ?_ ?_ | split | intro

theorem inv_recvEntry {P : State → Prop} {s : State} {t v g : Nat} {e : PEntry} {force : Bool} (hc : Closed 0x478E P) (hk0 : P s) :
    P (State.recvEntry s t v g e force) := by
  unfold State.recvEntry
  try dsimp only
  repeat' first
    | with_reducible assumption | exact hc.mono rfl | with_reducible apply inv_refetch | with_reducible apply inv_entryEffects
    | with_reducible apply inv_applyEntry | with_reducible refine inv_ite ?_ ?_ | with_reducible refine inv_ite_fst ?_ ?_
    | with_reducible refine inv_ite_snd ?_ ?_ | split | intro

theorem inv_setEntry {P : State → Prop} {s : State} {t v g : Nat} {e : PEntry} (hc : Closed 0x478E P) (hk0 : P s) :
    P (State.setEntry s t v g e) := by
  unfold State.setEntry
  try dsimp only
  repeat' first
    | with_reducible assumption | exact hc.mono rfl | with_reducible apply inv_recvEntry | with_reducible apply inv_sendUpdate | split
    | intro

theorem inv_mirrorRecord {P : State → Prop} {s : State} {t : Nat} (hc : Closed 0x4402 P) (hk0 : P s) :
    P (State.mirrorRecord s t) := by
  unfold State.mirrorRecord
  try dsimp only
  repeat' first
    | with_reducible assumption | exact hc.mono rfl | with_reducible apply inv_tellMirror | split | intro

theorem inv_startMove {P : State → Prop} {s : State} {id t v g src dblk dtier : Nat} {rebuild : Bool} (hc : Closed 0x4502 P) (hk0 : P s) :
    P (State.startMove s id t v g src dblk dtier rebuild) := by
  unfold State.startMove
  try dsimp only
  repeat' first
    | with_reducible assumption | exact hc.mono rfl | with_reducible apply inv_newOp | with_reducible apply inv_askTk
    | with_reducible refine inv_ite ?_ ?_ | with_reducible refine inv_ite_fst ?_ ?_ | with_reducible refine inv_ite_snd ?_ ?_ | split
    | intro

theorem inv_takeBack {P : State → Prop} {s : State} {j : JEntry} (hc : Closed 0xC786 P) (hk0 : P s) :
    P (State.takeBack s j) := by
  unfold State.takeBack
  try dsimp only
  repeat' first
    | with_reducible assumption | exact hc.mono rfl | with_reducible apply inv_upTab | with_reducible apply inv_lessWait
    | with_reducible apply inv_takeAdds | with_reducible apply inv_takeAdd | with_reducible apply inv_settleWait
    | with_reducible apply inv_openWait | with_reducible refine inv_ite ?_ ?_ | with_reducible refine inv_ite_fst ?_ ?_
    | with_reducible refine inv_ite_snd ?_ ?_ | split | intro

theorem inv_redeliverTo {P : State → Prop} {s : State} {t x : Nat} (hc : Closed 0xC786 P) (hk0 : P s) :
    P (State.redeliverTo s t x) := by
  unfold State.redeliverTo
  try dsimp only
  repeat' first
    | with_reducible assumption | exact hc.mono rfl | with_reducible apply inv_upTab | with_reducible apply inv_takeBack
    | with_reducible apply inv_sendAdds | with_reducible apply inv_bump | with_reducible refine inv_foldl ?_ ?_
    | with_reducible refine inv_foldl_fst ?_ ?_ | with_reducible refine inv_ite ?_ ?_ | with_reducible refine inv_ite_fst ?_ ?_
    | with_reducible refine inv_ite_snd ?_ ?_ | split | intro

theorem inv_finishPromotion {P : State → Prop} {s : State} {t x : Nat} (hc : Closed 0x478E P) (hk0 : P s) :
    P (State.finishPromotion s t x) := by
  unfold State.finishPromotion
  try dsimp only
  repeat' first
    | with_reducible assumption | exact hc.mono rfl | with_reducible apply inv_upTab | with_reducible apply inv_setEntry
    | with_reducible apply inv_bump | with_reducible refine inv_foldl ?_ ?_ | with_reducible refine inv_foldl_fst ?_ ?_ | split | intro

theorem inv_reserveIf {P : State → Prop} {s : State} {p : Prop} [Decidable p] {t v b n : Nat} {t0 : State} (hc : Closed 0x100 P) (hk0 : P s)
    (e : (if p then s.reserveBytes t v b n else some s) = some t0) : P t0 := by
  split at e
  · exact inv_reserveBytes (hc.mono rfl) hk0 e
  · cases e; exact hk0

theorem inv_enterPhase {P : State → Prop} {s : State} {o : Op} (hc : Closed 0xCF9E P) (hk0 : P s) :
    P (State.enterPhase s o) := by
  unfold State.enterPhase
  try dsimp only
  repeat' first
    | with_reducible assumption | exact hc.mono rfl | with_reducible apply inv_upTab | with_reducible apply inv_finishPromotion
    | with_reducible apply inv_redeliverTo | with_reducible apply inv_startMove | with_reducible apply inv_mirrorRecord
    | with_reducible apply inv_setEntry | with_reducible apply inv_dropGroup | with_reducible apply inv_promoteHere
    | with_reducible apply inv_switchHere | with_reducible apply inv_publishHere | with_reducible apply inv_publishCopy
    | with_reducible apply inv_keepId | with_reducible apply inv_askAll | with_reducible apply inv_installRecord
    | with_reducible apply inv_upRec | with_reducible apply inv_upReg | with_reducible apply inv_mirrorOp
    | with_reducible apply inv_applyEntry | with_reducible apply inv_dropCreation | with_reducible apply inv_dropRecord
    | with_reducible apply inv_freeVersion | with_reducible apply inv_sendUpdate | with_reducible apply inv_answerOp
    | with_reducible apply inv_endOp | with_reducible apply inv_upOp | with_reducible apply inv_newOp | with_reducible apply inv_askTk
    | with_reducible apply inv_sendTk | with_reducible refine inv_foldl ?_ ?_ | with_reducible refine inv_foldl_fst ?_ ?_
    | with_reducible refine inv_ite ?_ ?_ | with_reducible refine inv_ite_fst ?_ ?_ | with_reducible refine inv_ite_snd ?_ ?_
    | with_reducible refine inv_reserveBytes ?_ ?_ (by with_reducible assumption)
    | with_reducible refine inv_publishReserve ?_ ?_ (by with_reducible assumption)
    | with_reducible refine inv_reserveIf ?_ ?_ (by with_reducible assumption) | split | intro

theorem inv_runOp {P : State → Prop} {fuel : Nat} (hc : Closed 0xCF9E P) : ∀ {s : State} {id : Nat}, P s → P (State.runOp fuel s id) := by
  induction fuel with
  | zero => intro s id h; exact h
  | succ n ih =>
    intro s id h
    unfold State.runOp
    try dsimp only
    repeat' first
      | with_reducible assumption | exact hc.mono rfl | with_reducible apply ih
      | with_reducible apply inv_upOp
      | with_reducible apply inv_failOp
      | with_reducible apply inv_enterPhase
      | exact fun _ => Nat.le_refl _ | exact fun _ => Or.inl rfl | with_reducible refine inv_ite ?_ ?_ | split | intro

theorem inv_poke {P : State → Prop} {s : State} {id : Nat} (hc : Closed 0xCF9E P) (hk0 : P s) :
    P (State.poke s id) := by
  unfold State.poke
  try dsimp only
  repeat' first
    | with_reducible assumption | exact hc.mono rfl | with_reducible apply inv_runOp | split | intro

theorem inv_startCreate {P : State → Prop} {s : State} {t : Nat} {a : CreateArgs} {src handle xid lane : Nat} (hc : Closed 0xCF9E P) (hk0 : P s) :
    P (State.startCreate s t a src handle xid lane) := by
  unfold State.startCreate
  try dsimp only
  repeat' first
    | with_reducible assumption | exact hc.mono rfl | with_reducible apply inv_poke | with_reducible apply inv_newOp
    | with_reducible apply inv_answerTk | with_reducible apply inv_endAsked | with_reducible refine inv_ite ?_ ?_
    | with_reducible refine inv_ite_fst ?_ ?_ | with_reducible refine inv_ite_snd ?_ ?_ | split | intro

theorem inv_startOp {P : State → Prop} {s : State} {t : Nat} {k : OpKind} {src handle xid lane : Nat} (hc : Closed 0xCF9E P) (hk0 : P s) :
    P (State.startOp s t k src handle xid lane) := by
  unfold State.startOp
  try dsimp only
  repeat' first
    | with_reducible assumption | exact hc.mono rfl | with_reducible apply inv_poke | with_reducible apply inv_newOp
    | with_reducible apply inv_answerTk | with_reducible apply inv_endWith | with_reducible refine inv_ite ?_ ?_
    | with_reducible refine inv_ite_fst ?_ ?_ | with_reducible refine inv_ite_snd ?_ ?_ | split | intro

theorem inv_askCoordinator {P : State → Prop} {s : State} {c : Cmd} {d : Desc} {a : CreateArgs} (hc : Closed 0xCF9E P) (hk0 : P s) :
    P (State.askCoordinator s c d a) := by
  unfold State.askCoordinator
  try dsimp only
  repeat' first
    | with_reducible assumption | exact hc.mono rfl | with_reducible apply inv_upCmd | with_reducible apply inv_startOp
    | with_reducible apply inv_startCreate | with_reducible apply inv_askTk | with_reducible apply inv_endAt
    | with_reducible refine inv_ite ?_ ?_ | with_reducible refine inv_ite_fst ?_ ?_ | with_reducible refine inv_ite_snd ?_ ?_ | split
    | intro

theorem inv_createRecipe {P : State → Prop} {s : State} {c : Cmd} {d : Desc} (hc : Closed 0xCF9F P) (hk0 : P s) :
    P (State.createRecipe s c d) := by
  unfold State.createRecipe
  try dsimp only
  repeat' first
    | with_reducible assumption | exact hc.mono rfl | with_reducible apply inv_upCmd | with_reducible apply inv_askCoordinator
    | with_reducible apply inv_meet | with_reducible apply inv_readBuf | with_reducible refine inv_ite ?_ ?_
    | with_reducible refine inv_ite_fst ?_ ?_ | with_reducible refine inv_ite_snd ?_ ?_ | split | intro

theorem inv_runTable {P : State → Prop} {s : State} {h : Nat} (hc : Closed 0xCF9F P) (hk0 : P s) :
    P (State.runTable s h) := by
  unfold State.runTable
  try dsimp only
  repeat' first
    | with_reducible assumption | exact hc.mono rfl | with_reducible apply inv_createRecipe | with_reducible apply inv_askCoordinator
    | with_reducible apply inv_begin_ | with_reducible refine inv_ite ?_ ?_ | with_reducible refine inv_ite_fst ?_ ?_
    | with_reducible refine inv_ite_snd ?_ ?_ | split | intro

theorem inv_rowNumbers {P : State → Prop} {s : State} {c : Cmd} {d : Desc} {v : Version} (hc : Closed 0xCF87 P) (hk0 : P s) :
    P (State.rowNumbers s c d v).1 := by
  unfold State.rowNumbers
  try dsimp only
  repeat' first
    | with_reducible assumption | exact hc.mono rfl | with_reducible apply inv_readEntries | with_reducible apply inv_meet
    | with_reducible apply inv_readBufs | with_reducible refine inv_ite ?_ ?_ | with_reducible refine inv_ite_fst ?_ ?_
    | with_reducible refine inv_ite_snd ?_ ?_ | split | intro

theorem inv_readUnits {P : State → Prop} {s : State} {c : Cmd} {l : List (Nat × Nat)} (hc : Closed 0xCE06 P) (hk0 : P s) :
    P (State.readUnits s c l).1 := by
  unfold State.readUnits
  try dsimp only
  repeat' first
    | with_reducible assumption | exact hc.mono rfl | with_reducible apply inv_readBuf | with_reducible refine inv_foldl ?_ ?_
    | with_reducible refine inv_foldl_fst ?_ ?_ | with_reducible refine inv_ite ?_ ?_ | with_reducible refine inv_ite_fst ?_ ?_
    | with_reducible refine inv_ite_snd ?_ ?_ | split | intro

theorem inv_rowsWriteRead {P : State → Prop} {s : State} {c : Cmd} {d : Desc} {r : TableRec} {v : Version} (hc : Closed 0xCF87 P) (hk0 : P s) :
    P (State.rowsWriteRead s c d r v) := by
  unfold State.rowsWriteRead
  try dsimp only
  repeat' first
    | with_reducible assumption | exact hc.mono rfl | with_reducible apply inv_upCmd | with_reducible apply inv_readUnits
    | with_reducible apply inv_rowNumbers | with_reducible apply inv_waitOn | with_reducible apply inv_endWith
    | with_reducible refine inv_ite ?_ ?_ | with_reducible refine inv_ite_fst ?_ ?_ | with_reducible refine inv_ite_snd ?_ ?_ | split
    | intro

theorem inv_takeRegion {P : State → Prop} {s : State} {t v : Nat} (hc : Closed 0x10A P) (hk0 : P s) :
    P (State.takeRegion s t v) := by
  unfold State.takeRegion
  try dsimp only
  repeat' first
    | with_reducible assumption | exact hc.mono rfl | with_reducible apply inv_setFld | with_reducible refine inv_ite ?_ ?_
    | with_reducible refine inv_ite_fst ?_ ?_ | with_reducible refine inv_ite_snd ?_ ?_
    | with_reducible refine inv_allocMeta ?_ ?_ (by with_reducible assumption) | split | intro

theorem inv_applyUpdate {P : State → Prop} {s : State} {u : TkUpdate} (hc : Closed 0xC78E P) (hk0 : P s) :
    P (State.applyUpdate s u) := by
  unfold State.applyUpdate
  try dsimp only
  repeat' first
    | with_reducible assumption | exact hc.mono rfl | with_reducible apply inv_upTab | with_reducible apply inv_takeRegion
    | with_reducible apply inv_redeliverTo | with_reducible apply inv_recvEntry | with_reducible apply inv_dropGroup
    | with_reducible apply inv_promoteHere | with_reducible apply inv_installRecord | with_reducible apply inv_upRec
    | with_reducible apply inv_upReg | with_reducible apply inv_dropRecord | with_reducible apply inv_putData
    | with_reducible apply inv_putMeta | with_reducible refine inv_foldl ?_ ?_ | with_reducible refine inv_foldl_fst ?_ ?_
    | with_reducible refine inv_ite ?_ ?_ | with_reducible refine inv_ite_fst ?_ ?_ | with_reducible refine inv_ite_snd ?_ ?_ | split
    | intro

theorem inv_shareUpdate {P : State → Prop} {s : State} {h t : Nat} {u : TkUpdate} (hc : Closed 0xC78E P) (hk0 : P s) :
    P (State.shareUpdate s h t u) := by
  unfold State.shareUpdate
  try dsimp only
  repeat' first
    | with_reducible assumption | exact hc.mono rfl | with_reducible apply inv_applyUpdate | with_reducible apply inv_askTk
    | with_reducible refine inv_foldl ?_ ?_ | with_reducible refine inv_foldl_fst ?_ ?_ | with_reducible refine inv_ite ?_ ?_
    | with_reducible refine inv_ite_fst ?_ ?_ | with_reducible refine inv_ite_snd ?_ ?_ | split | intro

theorem inv_rowsSpecial {P : State → Prop} {s : State} {c : Cmd} {d : Desc} {v : Version} (hc : Closed 0xCF8F P) (hk0 : P s) :
    P (State.rowsSpecial s c d v) := by
  unfold State.rowsSpecial
  try dsimp only
  repeat' first
    | with_reducible assumption | exact hc.mono rfl | with_reducible apply inv_upCmd | with_reducible apply inv_shareUpdate
    | with_reducible apply inv_meet | with_reducible apply inv_readBuf | with_reducible apply inv_endWith
    | with_reducible refine inv_foldl ?_ ?_ | with_reducible refine inv_foldl_fst ?_ ?_ | with_reducible refine inv_ite ?_ ?_
    | with_reducible refine inv_ite_fst ?_ ?_ | with_reducible refine inv_ite_snd ?_ ?_ | split | intro

theorem inv_mapGroup {P : State → Prop} {s : State} {t v g : Nat} (hc : Closed 0x478E P) (hk0 : P s) :
    P (State.mapGroup s t v g).1 := by
  unfold State.mapGroup
  try dsimp only
  repeat' first
    | with_reducible assumption | exact hc.mono rfl | with_reducible apply inv_setEntry | with_reducible refine inv_foldl ?_ ?_
    | with_reducible refine inv_foldl_fst ?_ ?_ | with_reducible refine inv_ite ?_ ?_ | with_reducible refine inv_ite_fst ?_ ?_
    | with_reducible refine inv_ite_snd ?_ ?_ | split | intro

theorem inv_rowsMap {P : State → Prop} {s : State} {c : Cmd} {d : Desc} {v : Version} (hc : Closed 0x478E P) (hk0 : P s) :
    P (State.rowsMap s c d v) := by
  unfold State.rowsMap
  try dsimp only
  repeat' first
    | with_reducible assumption | exact hc.mono rfl | with_reducible apply inv_upCmd | with_reducible apply inv_mapGroup
    | with_reducible apply inv_askTk | with_reducible refine inv_foldl ?_ ?_ | with_reducible refine inv_foldl_fst ?_ ?_
    | with_reducible refine inv_ite ?_ ?_ | with_reducible refine inv_ite_fst ?_ ?_ | with_reducible refine inv_ite_snd ?_ ?_ | split
    | intro

theorem inv_writeRowsHere {P : State → Prop} {s : State} {w : Nat} {r : TableRec} {t ver : Nat} {rows : List (Nat × List Byte)} (hc : Closed 0xC706 P) (hk0 : P s) :
    P (State.writeRowsHere s w r t ver rows) := by
  unfold State.writeRowsHere
  try dsimp only
  repeat' first
    | with_reducible assumption | exact hc.mono rfl | with_reducible apply inv_mirrorAdd | with_reducible apply inv_touch
    | with_reducible apply inv_charge | with_reducible apply inv_putData | with_reducible refine inv_foldl ?_ ?_
    | with_reducible refine inv_foldl_fst ?_ ?_ | split | intro

theorem inv_rowsSend {P : State → Prop} {s : State} {c : Cmd} {d : Desc} {r : TableRec} {v : Version} {pick : Nat × Nat × List Byte × Bool → Bool} (hc : Closed 0xC786 P) (hk0 : P s) :
    P (State.rowsSend s c d r v pick) := by
  unfold State.rowsSend
  try dsimp only
  repeat' first
    | with_reducible assumption | exact hc.mono rfl | with_reducible apply inv_upCmd | with_reducible apply inv_writeRowsHere
    | with_reducible apply inv_settleWait | with_reducible apply inv_openWait | with_reducible apply inv_askTk
    | with_reducible refine inv_foldl ?_ ?_ | with_reducible refine inv_foldl_fst ?_ ?_ | with_reducible refine inv_ite ?_ ?_
    | with_reducible refine inv_ite_fst ?_ ?_ | with_reducible refine inv_ite_snd ?_ ?_ | split | intro

theorem inv_rowsPut {P : State → Prop} {s : State} {c : Cmd} {d : Desc} {r : TableRec} {v : Version} (hc : Closed 0xC786 P) (hk0 : P s) :
    P (State.rowsPut s c d r v) := by
  unfold State.rowsPut
  try dsimp only
  repeat' first
    | with_reducible assumption | exact hc.mono rfl | with_reducible apply inv_rowsSend | split | intro

theorem inv_rowsRetry {P : State → Prop} {s : State} {c : Cmd} {d : Desc} {r : TableRec} {v : Version} (hc : Closed 0xC786 P) (hk0 : P s) :
    P (State.rowsRetry s c d r v) := by
  unfold State.rowsRetry
  try dsimp only
  repeat' first
    | with_reducible assumption | exact hc.mono rfl | with_reducible apply inv_rowsSend | with_reducible refine inv_ite ?_ ?_
    | with_reducible refine inv_ite_fst ?_ ?_ | with_reducible refine inv_ite_snd ?_ ?_ | split | intro

theorem inv_rowsWriteEnd {P : State → Prop} {s : State} {c : Cmd} {missing : List Nat} (hc : Closed 0xD80 P) (hk0 : P s) :
    P (State.rowsWriteEnd s c missing) := by
  unfold State.rowsWriteEnd
  try dsimp only
  repeat' first
    | with_reducible assumption | exact hc.mono rfl | with_reducible apply inv_endCmd | with_reducible refine inv_foldl ?_ ?_
    | with_reducible refine inv_foldl_fst ?_ ?_ | with_reducible refine inv_ite ?_ ?_ | with_reducible refine inv_ite_fst ?_ ?_
    | with_reducible refine inv_ite_snd ?_ ?_ | split | intro

theorem inv_runRowsWrite {P : State → Prop} {s : State} {h : Nat} (hc : Closed 0xCF8F P) (hk0 : P s) :
    P (State.runRowsWrite s h) := by
  unfold State.runRowsWrite
  try dsimp only
  repeat' first
    | with_reducible assumption | exact hc.mono rfl | with_reducible apply inv_rowsWriteEnd | with_reducible apply inv_rowsRetry
    | with_reducible apply inv_rowsPut | with_reducible apply inv_rowsMap | with_reducible apply inv_rowsSpecial
    | with_reducible apply inv_rowsWriteRead | with_reducible apply inv_begin_ | with_reducible apply inv_endWith
    | with_reducible apply inv_endCmd | with_reducible refine inv_ite ?_ ?_ | with_reducible refine inv_ite_fst ?_ ?_
    | with_reducible refine inv_ite_snd ?_ ?_ | split | intro

theorem inv_readDefault {P : State → Prop} {s : State} {c : Cmd} {d : Desc} {r : TableRec} {f : Fmt} (hc : Closed 0xCF86 P) (hk0 : P s) :
    P (State.readDefault s c d r f) := by
  unfold State.readDefault
  try dsimp only
  repeat' first
    | with_reducible assumption | exact hc.mono rfl | with_reducible apply inv_writeUnits | with_reducible apply inv_waitOn
    | with_reducible apply inv_endResume | with_reducible apply inv_endFault | with_reducible apply inv_endAt
    | with_reducible apply inv_endCmd | with_reducible refine inv_ite ?_ ?_ | with_reducible refine inv_ite_fst ?_ ?_
    | with_reducible refine inv_ite_snd ?_ ?_ | split | intro

theorem inv_readStored {P : State → Prop} {s : State} {t ver part : Nat} {l : List Nat} (hc : Closed 0x8102 P) (hk0 : P s) :
    P (State.readStored s t ver part l).1 := by
  unfold State.readStored
  try dsimp only
  repeat' first
    | with_reducible assumption | exact hc.mono rfl | with_reducible apply inv_touch | with_reducible apply inv_charge
    | with_reducible refine inv_foldl ?_ ?_ | with_reducible refine inv_foldl_fst ?_ ?_ | with_reducible refine inv_ite ?_ ?_
    | with_reducible refine inv_ite_fst ?_ ?_ | with_reducible refine inv_ite_snd ?_ ?_ | split | intro

theorem inv_askRows {P : State → Prop} {s : State} {c : Cmd} {d : Desc} {v : Version} (hc : Closed 0x4482 P) (hk0 : P s) :
    P (State.askRows s c d v) := by
  unfold State.askRows
  try dsimp only
  repeat' first
    | with_reducible assumption | exact hc.mono rfl | with_reducible apply inv_upCmd | with_reducible apply inv_askTk
    | with_reducible refine inv_foldl ?_ ?_ | with_reducible refine inv_foldl_fst ?_ ?_ | split | intro

theorem inv_rowsReadStart {P : State → Prop} {s : State} {c : Cmd} {d : Desc} {r : TableRec} {v : Version} (hc : Closed 0xCF87 P) (hk0 : P s) :
    P (State.rowsReadStart s c d r v) := by
  unfold State.rowsReadStart
  try dsimp only
  repeat' first
    | with_reducible assumption | exact hc.mono rfl | with_reducible apply inv_upCmd | with_reducible apply inv_askRows
    | with_reducible apply inv_readStored | with_reducible apply inv_rowNumbers | with_reducible apply inv_endWith
    | with_reducible refine inv_ite ?_ ?_ | with_reducible refine inv_ite_fst ?_ ?_ | with_reducible refine inv_ite_snd ?_ ?_ | split
    | intro

theorem inv_rowsReadAgain {P : State → Prop} {s : State} {c : Cmd} {d : Desc} {v : Version} (hc : Closed 0xC582 P) (hk0 : P s) :
    P (State.rowsReadAgain s c d v) := by
  unfold State.rowsReadAgain
  try dsimp only
  repeat' first
    | with_reducible assumption | exact hc.mono rfl | with_reducible apply inv_upCmd | with_reducible apply inv_askRows
    | with_reducible apply inv_readStored | split | intro

theorem inv_rowsReadEnd {P : State → Prop} {s : State} {c : Cmd} {d : Desc} {v : Version} (hc : Closed 0xCF87 P) (hk0 : P s) :
    P (State.rowsReadEnd s c d v) := by
  unfold State.rowsReadEnd
  try dsimp only
  repeat' first
    | with_reducible assumption | exact hc.mono rfl | with_reducible apply inv_writeUnits | with_reducible apply inv_waitOn
    | with_reducible apply inv_scribble | with_reducible apply inv_freeBytes | with_reducible apply inv_endCmd
    | with_reducible refine inv_foldl ?_ ?_ | with_reducible refine inv_foldl_fst ?_ ?_ | with_reducible refine inv_ite ?_ ?_
    | with_reducible refine inv_ite_fst ?_ ?_ | with_reducible refine inv_ite_snd ?_ ?_ | split | intro

theorem inv_runRowsRead {P : State → Prop} {s : State} {h : Nat} (hc : Closed 0xCF87 P) (hk0 : P s) :
    P (State.runRowsRead s h) := by
  unfold State.runRowsRead
  try dsimp only
  repeat' first
    | with_reducible assumption | exact hc.mono rfl | with_reducible apply inv_rowsReadEnd | with_reducible apply inv_rowsReadAgain
    | with_reducible apply inv_rowsReadStart | with_reducible apply inv_readDefault | with_reducible apply inv_begin_
    | with_reducible apply inv_endWith | with_reducible refine inv_ite ?_ ?_ | with_reducible refine inv_ite_fst ?_ ?_
    | with_reducible refine inv_ite_snd ?_ ?_ | split | intro

theorem inv_runGroups {P : State → Prop} {s : State} {h : Nat} {steps : Nat → State → Nat → State} (hc : Closed 0x4D82 P) (hk0 : P s) (hf_steps : ∀ y0 y1 y2, P y1 → P (steps y0 y1 y2)) :
    P (State.runGroups s h steps) := by
  unfold State.runGroups
  try dsimp only
  repeat' first
    | with_reducible assumption | exact hc.mono rfl | with_reducible apply inv_begin_ | with_reducible apply hf_steps
    | with_reducible refine inv_ite ?_ ?_ | with_reducible refine inv_ite_fst ?_ ?_ | with_reducible refine inv_ite_snd ?_ ?_ | split
    | intro

theorem inv_imageWritten {P : State → Prop} {s : State} {h unit : Nat} {e : WEnd} {go : State → State} (hc : Closed 0xD80 P) (hk0 : P s) (hf_go : ∀ y0, P y0 → P (go y0)) :
    P (State.imageWritten s h unit e go) := by
  unfold State.imageWritten
  try dsimp only
  repeat' first
    | with_reducible assumption | exact hc.mono rfl | with_reducible apply inv_waitOn | with_reducible apply inv_endCmd
    | with_reducible apply hf_go | with_reducible refine inv_ite ?_ ?_ | with_reducible refine inv_ite_fst ?_ ?_
    | with_reducible refine inv_ite_snd ?_ ?_ | split | intro

theorem inv_checkAux {P : State → Prop} {s : State} {c : Cmd} {d : Desc} {r : TableRec} {v : Version} (hc : Closed 0xCF86 P) (hk0 : P s) :
    P (State.checkAux s c d r v) := by
  unfold State.checkAux
  try dsimp only
  repeat' first
    | with_reducible assumption | exact hc.mono rfl | with_reducible apply inv_upCmd | with_reducible apply inv_imageWritten
    | with_reducible apply inv_writeUnits | with_reducible apply inv_askTk | with_reducible apply inv_endWith
    | with_reducible apply inv_endAt | with_reducible refine inv_ite ?_ ?_ | with_reducible refine inv_ite_fst ?_ ?_
    | with_reducible refine inv_ite_snd ?_ ?_ | split | intro

theorem inv_sectionDone {P : State → Prop} {s : State} {h : Nat} (hc : Closed 0x80 P) (hk0 : P s) :
    P (State.sectionDone s h) := by
  unfold State.sectionDone
  try dsimp only
  repeat' first
    | with_reducible assumption | exact hc.mono rfl | with_reducible apply inv_upCmd | split | intro

theorem inv_putSection {P : State → Prop} {s : State} {c : Cmd} {d : Desc} {f : Fmt} {recipe k : Nat} {bs : List Byte} (hc : Closed 0xCF86 P) (hk0 : P s) :
    P (State.putSection s c d f recipe k bs) := by
  unfold State.putSection
  try dsimp only
  repeat' first
    | with_reducible assumption | exact hc.mono rfl | with_reducible apply inv_sectionDone | with_reducible apply inv_imageWritten
    | with_reducible apply inv_writeUnits | split | intro

theorem inv_checkSection {P : State → Prop} {s : State} {c : Cmd} {d : Desc} {r : TableRec} {v : Version} (hc : Closed 0xCF86 P) (hk0 : P s) :
    P (State.checkSection s c d r v) := by
  unfold State.checkSection
  try dsimp only
  repeat' first
    | with_reducible assumption | exact hc.mono rfl | with_reducible apply inv_upCmd | with_reducible apply inv_putSection
    | with_reducible apply inv_sectionDone | with_reducible apply inv_charge | with_reducible apply inv_askTk
    | with_reducible apply inv_endWith | with_reducible apply inv_endAt | with_reducible refine inv_ite ?_ ?_
    | with_reducible refine inv_ite_fst ?_ ?_ | with_reducible refine inv_ite_snd ?_ ?_ | split | intro

theorem inv_checkEnd {P : State → Prop} {s : State} {c : Cmd} {d : Desc} (hc : Closed 0xD80 P) (hk0 : P s) :
    P (State.checkEnd s c d) := by
  unfold State.checkEnd
  try dsimp only
  repeat' first
    | with_reducible assumption | exact hc.mono rfl | with_reducible apply inv_endWith | with_reducible apply inv_endCmd
    | with_reducible refine inv_ite ?_ ?_ | with_reducible refine inv_ite_fst ?_ ?_ | with_reducible refine inv_ite_snd ?_ ?_ | split
    | intro

theorem inv_checkSteps {P : State → Prop} {fuel : Nat} (hc : Closed 0xCF86 P) : ∀ {s : State} {hd : Nat}, P s → P (State.checkSteps fuel s hd) := by
  induction fuel with
  | zero => intro s hd h; exact h
  | succ n ih =>
    intro s hd h
    unfold State.checkSteps
    try dsimp only
    repeat' first
      | with_reducible assumption | exact hc.mono rfl | with_reducible apply ih
      | with_reducible apply inv_upCmd
      | with_reducible apply inv_checkAux
      | with_reducible apply inv_checkSection
      | with_reducible apply inv_writeUnits
      | with_reducible apply inv_imageWritten
      | with_reducible apply inv_checkEnd
      | with_reducible apply inv_endWith
      | exact fun _ => Nat.le_refl _ | exact fun _ => Or.inl rfl | with_reducible refine inv_ite ?_ ?_ | split | intro

theorem inv_runCheckpoint {P : State → Prop} {s : State} {h : Nat} (hc : Closed 0xCF86 P) (hk0 : P s) :
    P (State.runCheckpoint s h) := by
  unfold State.runCheckpoint
  try dsimp only
  repeat' first
    | with_reducible assumption | exact hc.mono rfl | with_reducible apply inv_checkSteps | with_reducible apply inv_runGroups | split
    | intro

theorem inv_meetUnit {P : State → Prop} {s : State} {c : Cmd} {b : Buf} {unit : Nat} (hc : Closed 0xD80 P) (hk0 : P s) :
    P (State.meetUnit s c b unit) := by
  unfold State.meetUnit
  try dsimp only
  repeat' first
    | with_reducible assumption | exact hc.mono rfl | with_reducible apply inv_upCmd | with_reducible apply inv_waitOn
    | with_reducible apply inv_endCmd | with_reducible refine inv_ite ?_ ?_ | with_reducible refine inv_ite_fst ?_ ?_
    | with_reducible refine inv_ite_snd ?_ ?_ | split | intro

theorem inv_restoreStart {P : State → Prop} {s : State} {c : Cmd} {d : Desc} {r : TableRec} {v : Version} (hc : Closed 0xCF8E P) (hk0 : P s) :
    P (State.restoreStart s c d r v) := by
  unfold State.restoreStart
  try dsimp only
  repeat' first
    | with_reducible assumption | exact hc.mono rfl | with_reducible apply inv_upCmd | with_reducible apply inv_meetUnit
    | with_reducible apply inv_shareUpdate | with_reducible apply inv_readBuf | with_reducible apply inv_endWith
    | with_reducible refine inv_foldl ?_ ?_ | with_reducible refine inv_foldl_fst ?_ ?_ | with_reducible refine inv_ite ?_ ?_
    | with_reducible refine inv_ite_fst ?_ ?_ | with_reducible refine inv_ite_snd ?_ ?_ | split | intro

theorem inv_restoreDone {P : State → Prop} {s : State} {h : Nat} {written : Bool} {ev : Option (Nat × Nat)} (hc : Closed 0x80 P) (hk0 : P s) :
    P (State.restoreDone s h written ev) := by
  unfold State.restoreDone
  try dsimp only
  repeat' first
    | with_reducible assumption | exact hc.mono rfl | with_reducible apply inv_upCmd | split | intro

theorem inv_restoreEnd {P : State → Prop} {s : State} {c : Cmd} (hc : Closed 0xD80 P) (hk0 : P s) :
    P (State.restoreEnd s c) := by
  unfold State.restoreEnd
  try dsimp only
  repeat' first
    | with_reducible assumption | exact hc.mono rfl | with_reducible apply inv_endWith | with_reducible apply inv_endAt
    | with_reducible refine inv_foldl ?_ ?_ | with_reducible refine inv_foldl_fst ?_ ?_ | with_reducible refine inv_ite ?_ ?_
    | with_reducible refine inv_ite_fst ?_ ?_ | with_reducible refine inv_ite_snd ?_ ?_ | split | intro

theorem inv_askEntry {P : State → Prop} {s : State} {c : Cmd} {t ver g : Nat} {e : PEntry} (hc : Closed 0x478E P) (hk0 : P s) :
    P (State.askEntry s c t ver g e) := by
  unfold State.askEntry
  try dsimp only
  repeat' first
    | with_reducible assumption | exact hc.mono rfl | with_reducible apply inv_setEntry | with_reducible apply inv_askTk
    | with_reducible refine inv_ite ?_ ?_ | with_reducible refine inv_ite_fst ?_ ?_ | with_reducible refine inv_ite_snd ?_ ?_ | split
    | intro

theorem inv_fillGroup {P : State → Prop} {s : State} {w : Nat} {r : TableRec} {t ver g off : Nat} {bs : List Byte} (hc : Closed 0xC706 P) (hk0 : P s) :
    P (State.fillGroup s w r t ver g off bs) := by
  unfold State.fillGroup
  try dsimp only
  repeat' first
    | with_reducible assumption | exact hc.mono rfl | with_reducible apply inv_mirrorAdd | with_reducible apply inv_upGroup
    | with_reducible apply inv_charge | with_reducible apply inv_putData | with_reducible refine inv_foldl ?_ ?_
    | with_reducible refine inv_foldl_fst ?_ ?_ | split | intro

theorem inv_restoreData {P : State → Prop} {s : State} {c : Cmd} {d : Desc} {r : TableRec} {v : Version} {e : PEntry} {body : List Byte} (hc : Closed 0xC786 P) (hk0 : P s) :
    P (State.restoreData s c d r v e body) := by
  unfold State.restoreData
  try dsimp only
  repeat' first
    | with_reducible assumption | exact hc.mono rfl | with_reducible apply inv_upCmd | with_reducible apply inv_fillGroup
    | with_reducible apply inv_restoreDone | with_reducible apply inv_settleWait | with_reducible apply inv_openWait
    | with_reducible apply inv_askTk | with_reducible refine inv_foldl ?_ ?_ | with_reducible refine inv_foldl_fst ?_ ?_
    | with_reducible refine inv_ite ?_ ?_ | with_reducible refine inv_ite_fst ?_ ?_ | with_reducible refine inv_ite_snd ?_ ?_ | split
    | intro

theorem inv_restoreSection {P : State → Prop} {s : State} {c : Cmd} {d : Desc} {r : TableRec} {v : Version} (hc : Closed 0xCF8E P) (hk0 : P s) :
    P (State.restoreSection s c d r v) := by
  unfold State.restoreSection
  try dsimp only
  repeat' first
    | with_reducible assumption | exact hc.mono rfl | with_reducible apply inv_upCmd | with_reducible apply inv_restoreData
    | with_reducible apply inv_askEntry | with_reducible apply inv_restoreDone | with_reducible apply inv_meetUnit
    | with_reducible apply inv_mapGroup | with_reducible apply inv_readBuf | with_reducible apply inv_askTk
    | with_reducible apply inv_endWith | with_reducible apply inv_endCmd | with_reducible refine inv_ite ?_ ?_
    | with_reducible refine inv_ite_fst ?_ ?_ | with_reducible refine inv_ite_snd ?_ ?_ | split | intro

theorem inv_restoreSteps {P : State → Prop} {fuel : Nat} (hc : Closed 0xCF8E P) : ∀ {s : State} {hd : Nat}, P s → P (State.restoreSteps fuel s hd) := by
  induction fuel with
  | zero => intro s hd h; exact h
  | succ n ih =>
    intro s hd h
    unfold State.restoreSteps
    try dsimp only
    repeat' first
      | with_reducible assumption | exact hc.mono rfl | with_reducible apply ih
      | with_reducible apply inv_restoreStart
      | with_reducible apply inv_upCmd
      | with_reducible apply inv_restoreDone
      | with_reducible apply inv_restoreEnd
      | with_reducible apply inv_restoreSection
      | with_reducible apply inv_endWith
      | exact fun _ => Nat.le_refl _ | exact fun _ => Or.inl rfl | with_reducible refine inv_ite ?_ ?_ | split | intro

theorem inv_runRestore {P : State → Prop} {s : State} {h : Nat} (hc : Closed 0xCF8E P) (hk0 : P s) :
    P (State.runRestore s h) := by
  unfold State.runRestore
  try dsimp only
  repeat' first
    | with_reducible assumption | exact hc.mono rfl | with_reducible apply inv_restoreSteps | with_reducible apply inv_begin_
    | with_reducible refine inv_ite ?_ ?_ | with_reducible refine inv_ite_fst ?_ ?_ | with_reducible refine inv_ite_snd ?_ ?_ | split
    | intro

theorem inv_resendFlow {P : State → Prop} {s : State} {p l : Nat} (hc : Closed 0x4402 P) (hk0 : P s) :
    P (State.resendFlow s p l) := by
  unfold State.resendFlow
  try dsimp only
  repeat' first
    | with_reducible assumption | exact hc.mono rfl | with_reducible apply inv_sendFrame | with_reducible apply inv_upFlow
    | with_reducible apply inv_bump | with_reducible refine inv_foldl ?_ ?_ | with_reducible refine inv_foldl_fst ?_ ?_
    | with_reducible refine inv_ite ?_ ?_ | with_reducible refine inv_ite_fst ?_ ?_ | with_reducible refine inv_ite_snd ?_ ?_ | split
    | intro

theorem inv_moveFlow {P : State → Prop} {s : State} {p l : Nat} (hc : Closed 0x4402 P) (hk0 : P s) :
    P (State.moveFlow s p l) := by
  unfold State.moveFlow
  try dsimp only
  repeat' first
    | with_reducible assumption | exact hc.mono rfl | with_reducible apply inv_resendFlow | with_reducible apply inv_pump
    | with_reducible apply inv_upFlow | split | intro

theorem inv_moveFlowsOf {P : State → Prop} {s : State} {k : Nat} (hc : Closed 0x4402 P) (hk0 : P s) :
    P (State.moveFlowsOf s k) := by
  unfold State.moveFlowsOf
  try dsimp only
  repeat' first
    | with_reducible assumption | exact hc.mono rfl | with_reducible apply inv_moveFlow | with_reducible refine inv_foldl ?_ ?_
    | with_reducible refine inv_foldl_fst ?_ ?_ | split | intro

theorem inv_portLeaves {P : State → Prop} {s : State} {k cause : Nat} {lost : Bool} (hc : Closed 0xEE06 P) (hk0 : P s) :
    P (State.portLeaves s k cause lost) := by
  unfold State.portLeaves
  try dsimp only
  repeat' first
    | with_reducible assumption | exact hc.mono rfl | with_reducible apply inv_upFab | with_reducible apply inv_moveFlowsOf
    | with_reducible apply inv_fault | with_reducible apply inv_bump | with_reducible apply inv_setFld
    | with_reducible refine inv_ite ?_ ?_ | with_reducible refine inv_ite_fst ?_ ?_ | with_reducible refine inv_ite_snd ?_ ?_ | split
    | intro

theorem inv_staleAsk {P : State → Prop} {s : State} {c : Cmd} {t ver : Nat} {gs : List Nat} (hc : Closed 0x4402 P) (hk0 : P s) :
    P (State.staleAsk s c t ver gs) := by
  unfold State.staleAsk
  try dsimp only
  repeat' first
    | with_reducible assumption | exact hc.mono rfl | with_reducible apply inv_askTk | with_reducible apply inv_bump
    | with_reducible refine inv_foldl ?_ ?_ | with_reducible refine inv_foldl_fst ?_ ?_ | with_reducible refine inv_ite ?_ ?_
    | with_reducible refine inv_ite_fst ?_ ?_ | with_reducible refine inv_ite_snd ?_ ?_ | split | intro

theorem inv_rowsWritten {P : State → Prop} {s : State} {h o status : Nat} {bad : List Nat} (hc : Closed 0x4482 P) (hk0 : P s) :
    P (State.rowsWritten s h o status bad) := by
  unfold State.rowsWritten
  try dsimp only
  repeat' first
    | with_reducible assumption | exact hc.mono rfl | with_reducible apply inv_upCmd | with_reducible apply inv_staleAsk
    | with_reducible refine inv_ite ?_ ?_ | with_reducible refine inv_ite_fst ?_ ?_ | with_reducible refine inv_ite_snd ?_ ?_ | split
    | intro

theorem inv_rowsArrived {P : State → Prop} {s : State} {h o status : Nat} {l : List (Nat × List Byte)} (hc : Closed 0x4482 P) (hk0 : P s) :
    P (State.rowsArrived s h o status l) := by
  unfold State.rowsArrived
  try dsimp only
  repeat' first
    | with_reducible assumption | exact hc.mono rfl | with_reducible apply inv_upCmd | with_reducible apply inv_staleAsk
    | with_reducible refine inv_ite ?_ ?_ | with_reducible refine inv_ite_fst ?_ ?_ | with_reducible refine inv_ite_snd ?_ ?_ | split
    | intro

theorem inv_sectionArrived {P : State → Prop} {s : State} {h o k status : Nat} {bs : List Byte} (hc : Closed 0x4D82 P) (hk0 : P s) :
    P (State.sectionArrived s h o k status bs) := by
  unfold State.sectionArrived
  try dsimp only
  repeat' first
    | with_reducible assumption | exact hc.mono rfl | with_reducible apply inv_upCmd | with_reducible apply inv_staleAsk
    | with_reducible apply inv_endAt | with_reducible refine inv_ite ?_ ?_ | with_reducible refine inv_ite_fst ?_ ?_
    | with_reducible refine inv_ite_snd ?_ ?_ | split | intro

theorem inv_askReply {P : State → Prop} {s : State} {x : Xchg} {a : TkAnswer} (hc : Closed 0x4D82 P) (hk0 : P s) :
    P (State.askReply s x a) := by
  unfold State.askReply
  try dsimp only
  repeat' first
    | with_reducible assumption | exact hc.mono rfl | with_reducible apply inv_sectionArrived | with_reducible apply inv_rowsArrived
    | with_reducible apply inv_rowsWritten | with_reducible apply inv_dropXchg | with_reducible apply inv_endAsked
    | with_reducible apply inv_endCmd | with_reducible refine inv_ite ?_ ?_ | with_reducible refine inv_ite_fst ?_ ?_
    | with_reducible refine inv_ite_snd ?_ ?_ | split | intro

theorem inv_closeFlows {P : State → Prop} {s : State} {b : Nat} (hc : Closed 0x4402 P) (hk0 : P s) :
    P (State.closeFlows s b) := by
  unfold State.closeFlows
  try dsimp only
  repeat' first
    | with_reducible assumption | exact hc.mono rfl | with_reducible apply inv_upFab | with_reducible apply inv_unstall
    | with_reducible apply inv_setFlows | split | intro

theorem inv_closeImage {P : State → Prop} {s : State} {id : Nat} (hc : Closed 0x4502 P) (hk0 : P s) :
    P (State.closeImage s id) := by
  unfold State.closeImage
  try dsimp only
  repeat' first
    | with_reducible assumption | exact hc.mono rfl | with_reducible apply inv_upTab | with_reducible apply inv_answer
    | with_reducible refine inv_ite ?_ ?_ | with_reducible refine inv_ite_fst ?_ ?_ | with_reducible refine inv_ite_snd ?_ ?_ | split
    | intro

theorem inv_failCtrlAnswer {P : State → Prop} {s : State} {named : Option Bool} (hc : Closed 0x2 P) (hk0 : P s) :
    P (State.failCtrlAnswer s named) := by
  unfold State.failCtrlAnswer
  try dsimp only
  repeat' first
    | with_reducible assumption | exact hc.mono rfl | with_reducible apply inv_setFld | split | intro

theorem inv_closeQuery {P : State → Prop} {s : State} {id : Nat} (hc : Closed 0x4502 P) (hk0 : P s) :
    P (State.closeQuery s id) := by
  unfold State.closeQuery
  try dsimp only
  repeat' first
    | with_reducible assumption | exact hc.mono rfl | with_reducible apply inv_upTab | with_reducible apply inv_failCtrlAnswer
    | with_reducible apply inv_answer | with_reducible refine inv_ite ?_ ?_ | with_reducible refine inv_ite_fst ?_ ?_
    | with_reducible refine inv_ite_snd ?_ ?_ | split | intro

theorem inv_redelivered {P : State → Prop} {s : State} {t x src : Nat} (hc : Closed 0xCF9E P) (hk0 : P s) :
    P (State.redelivered s t x src) := by
  unfold State.redelivered
  try dsimp only
  repeat' first
    | with_reducible assumption | exact hc.mono rfl | with_reducible apply inv_poke | with_reducible apply inv_upReg
    | with_reducible refine inv_foldl ?_ ?_ | with_reducible refine inv_foldl_fst ?_ ?_ | split | intro

theorem inv_pokeAll {P : State → Prop} {s : State} (hc : Closed 0xCF9E P) (hk0 : P s) :
    P (State.pokeAll s) := by
  unfold State.pokeAll
  try dsimp only
  repeat' first
    | with_reducible assumption | exact hc.mono rfl | with_reducible apply inv_upTab | with_reducible apply inv_redelivered
    | with_reducible apply inv_retryCarries | with_reducible apply inv_poke | with_reducible apply inv_answerTk
    | with_reducible apply inv_sendTk | with_reducible refine inv_foldl ?_ ?_ | with_reducible refine inv_foldl_fst ?_ ?_
    | with_reducible refine inv_ite ?_ ?_ | with_reducible refine inv_ite_fst ?_ ?_ | with_reducible refine inv_ite_snd ?_ ?_ | split
    | intro

theorem inv_opAnswer {P : State → Prop} {s : State} {id src : Nat} {ok : Bool} (hc : Closed 0xCF9E P) (hk0 : P s) :
    P (State.opAnswer s id src ok) := by
  unfold State.opAnswer
  try dsimp only
  repeat' first
    | with_reducible assumption | exact hc.mono rfl | with_reducible apply inv_poke | with_reducible apply inv_upOp | split | intro

theorem inv_moveDone {P : State → Prop} {s : State} {o : Op} {ok : Bool} (hc : Closed 0xCF9E P) (hk0 : P s) :
    P (State.moveDone s o ok) := by
  unfold State.moveDone
  try dsimp only
  repeat' first
    | with_reducible assumption | exact hc.mono rfl | with_reducible apply inv_opAnswer | with_reducible apply inv_endOp
    | with_reducible apply inv_send | with_reducible refine inv_ite ?_ ?_ | with_reducible refine inv_ite_fst ?_ ?_
    | with_reducible refine inv_ite_snd ?_ ?_ | split | intro

theorem inv_sendCopy {P : State → Prop} {s : State} {id : Nat} {x : Group} {f : Fmt} {recipe dst : Nat} (hc : Closed 0xC402 P) (hk0 : P s) :
    P (State.sendCopy s id x f recipe dst) := by
  unfold State.sendCopy
  try dsimp only
  repeat' first
    | with_reducible assumption | exact hc.mono rfl | with_reducible apply inv_charge | with_reducible apply inv_askTk
    | with_reducible refine inv_foldl ?_ ?_ | with_reducible refine inv_foldl_fst ?_ ?_ | with_reducible refine inv_ite ?_ ?_
    | with_reducible refine inv_ite_fst ?_ ?_ | with_reducible refine inv_ite_snd ?_ ?_ | split | intro

theorem inv_sendRegions {P : State → Prop} {s : State} {id t dst : Nat} (hc : Closed 0x4402 P) (hk0 : P s) :
    P (State.sendRegions s id t dst) := by
  unfold State.sendRegions
  try dsimp only
  repeat' first
    | with_reducible assumption | exact hc.mono rfl | with_reducible apply inv_askTk | with_reducible refine inv_foldl ?_ ?_
    | with_reducible refine inv_foldl_fst ?_ ?_ | split | intro

theorem inv_moveAnswer {P : State → Prop} {s : State} {o : Op} {ok : Bool} (hc : Closed 0xCF9E P) (hk0 : P s) :
    P (State.moveAnswer s o ok) := by
  unfold State.moveAnswer
  try dsimp only
  repeat' first
    | with_reducible assumption | exact hc.mono rfl | with_reducible apply inv_sendRegions | with_reducible apply inv_sendCopy
    | with_reducible apply inv_moveDone | with_reducible apply inv_applyEntry | with_reducible apply inv_upOp
    | with_reducible apply inv_upGroup | with_reducible apply inv_bump | with_reducible refine inv_ite ?_ ?_
    | with_reducible refine inv_ite_fst ?_ ?_ | with_reducible refine inv_ite_snd ?_ ?_ | split | intro

theorem inv_failXchg {P : State → Prop} {s : State} {x : Xchg} (hc : Closed 0xCFBF P) (hk0 : P s) :
    P (State.failXchg s x) := by
  unfold State.failXchg
  try dsimp only
  repeat' first
    | with_reducible assumption | exact hc.mono rfl | with_reducible apply inv_upCmd | with_reducible apply inv_upTab
    | with_reducible apply inv_moveAnswer | with_reducible apply inv_opAnswer | with_reducible apply inv_reportSecondary
    | with_reducible apply inv_confirmed | with_reducible apply inv_sectionArrived | with_reducible apply inv_rowsArrived
    | with_reducible apply inv_rowsWritten | with_reducible apply inv_dropXchg | with_reducible apply inv_upOp
    | with_reducible apply inv_freeDest | with_reducible apply inv_endAt | with_reducible apply inv_faultRing
    | with_reducible apply inv_bump | with_reducible refine inv_ite ?_ ?_ | with_reducible refine inv_ite_fst ?_ ?_
    | with_reducible refine inv_ite_snd ?_ ?_ | split | intro

theorem inv_failXchgs {P : State → Prop} {s : State} {b : Nat} (hc : Closed 0xCFBF P) (hk0 : P s) :
    P (State.failXchgs s b) := by
  unfold State.failXchgs
  try dsimp only
  repeat' first
    | with_reducible assumption | exact hc.mono rfl | with_reducible apply inv_failXchg | with_reducible refine inv_foldl ?_ ?_
    | with_reducible refine inv_foldl_fst ?_ ?_ | split | intro

theorem inv_evicted {P : State → Prop} {s : State} (hc : Closed 0x30A P) (hk0 : P s) :
    P (State.evicted s) := by
  unfold State.evicted
  try dsimp only
  repeat' first
    | with_reducible assumption | exact hc.mono rfl | with_reducible apply inv_dropRecord | with_reducible apply inv_syncTk
    | with_reducible apply inv_setFld | with_reducible refine inv_foldl ?_ ?_ | with_reducible refine inv_foldl_fst ?_ ?_ | split | intro

theorem inv_takeOver {P : State → Prop} {s : State} {t : Nat} (hc : Closed 0xCF9E P) (hk0 : P s) :
    P (State.takeOver s t) := by
  unfold State.takeOver
  try dsimp only
  repeat' first
    | with_reducible assumption | exact hc.mono rfl | with_reducible apply inv_upTab | with_reducible apply inv_poke
    | with_reducible apply inv_mirrorRecord | with_reducible apply inv_applyEntry | with_reducible refine inv_foldl ?_ ?_
    | with_reducible refine inv_foldl_fst ?_ ?_ | with_reducible refine inv_ite ?_ ?_ | with_reducible refine inv_ite_fst ?_ ?_
    | with_reducible refine inv_ite_snd ?_ ?_ | split | intro

theorem inv_leaveSets {P : State → Prop} {s : State} {t x : Nat} (hc : Closed 0x4502 P) (hk0 : P s) :
    P (State.leaveSets s t x) := by
  unfold State.leaveSets
  try dsimp only
  repeat' first
    | with_reducible assumption | exact hc.mono rfl | with_reducible apply inv_upRec | with_reducible apply inv_upReg
    | with_reducible apply inv_sendUpdate | with_reducible refine inv_ite ?_ ?_ | with_reducible refine inv_ite_fst ?_ ?_
    | with_reducible refine inv_ite_snd ?_ ?_ | split | intro

theorem inv_loseGroup {P : State → Prop} {s : State} {t v g : Nat} {e : PEntry} (hc : Closed 0x478E P) (hk0 : P s) :
    P (State.loseGroup s t v g e) := by
  unfold State.loseGroup
  try dsimp only
  repeat' first
    | with_reducible assumption | exact hc.mono rfl | with_reducible apply inv_setEntry | with_reducible apply inv_bump
    | with_reducible refine inv_ite ?_ ?_ | with_reducible refine inv_ite_fst ?_ ?_ | with_reducible refine inv_ite_snd ?_ ?_ | split
    | intro

theorem inv_loseOwner {P : State → Prop} {s : State} {t x : Nat} {tier : Option Nat} (hc : Closed 0xCF9E P) (hk0 : P s) :
    P (State.loseOwner s t x tier) := by
  unfold State.loseOwner
  try dsimp only
  repeat' first
    | with_reducible assumption | exact hc.mono rfl | with_reducible apply inv_upTab | with_reducible apply inv_loseGroup
    | with_reducible apply inv_pokeAll | with_reducible apply inv_poke | with_reducible apply inv_setEntry | with_reducible apply inv_newOp
    | with_reducible refine inv_foldl ?_ ?_ | with_reducible refine inv_foldl_fst ?_ ?_ | with_reducible refine inv_ite ?_ ?_
    | with_reducible refine inv_ite_fst ?_ ?_ | with_reducible refine inv_ite_snd ?_ ?_ | split | intro

theorem inv_setFailed {P : State → Prop} {s : State} {x : Nat} (hc : Closed 0xCFBF P) (hk0 : P s) :
    P (State.setFailed s x) := by
  unfold State.setFailed
  try dsimp only
  repeat' first
    | with_reducible assumption | exact hc.mono rfl | with_reducible apply inv_upTab | with_reducible apply inv_loseOwner
    | with_reducible apply inv_leaveSets | with_reducible apply inv_takeOver | with_reducible apply inv_failXchgs
    | with_reducible apply inv_closeFlows | with_reducible apply inv_setRouteBit | with_reducible apply inv_poke
    | with_reducible apply inv_applyEntry | with_reducible apply inv_syncTk | with_reducible apply inv_upOp
    | with_reducible apply inv_upGroup | with_reducible refine inv_foldl ?_ ?_ | with_reducible refine inv_foldl_fst ?_ ?_
    | with_reducible refine inv_ite ?_ ?_ | with_reducible refine inv_ite_fst ?_ ?_ | with_reducible refine inv_ite_snd ?_ ?_ | split
    | intro

theorem inv_failNoticed {P : State → Prop} {s : State} {x : Nat} (hc : Closed 0xCFBF P) (hk0 : P s) :
    P (State.failNoticed s x) := by
  unfold State.failNoticed
  try dsimp only
  repeat' first
    | with_reducible assumption | exact hc.mono rfl | with_reducible apply inv_setFailed | with_reducible apply inv_evicted
    | with_reducible refine inv_ite ?_ ?_ | with_reducible refine inv_ite_fst ?_ ?_ | with_reducible refine inv_ite_snd ?_ ?_ | split
    | intro

theorem inv_declareFailed {P : State → Prop} {s : State} {x : Nat} (hc : Closed 0xCFBF P) (hk0 : P s) :
    P (State.declareFailed s x) := by
  unfold State.declareFailed
  try dsimp only
  repeat' first
    | with_reducible assumption | exact hc.mono rfl | with_reducible apply inv_failNoticed | with_reducible apply inv_sendTk
    | with_reducible refine inv_foldl ?_ ?_ | with_reducible refine inv_foldl_fst ?_ ?_ | with_reducible refine inv_ite ?_ ?_
    | with_reducible refine inv_ite_fst ?_ ?_ | with_reducible refine inv_ite_snd ?_ ?_ | split | intro

theorem inv_runQuery {P : State → Prop} {s : State} {x src lane handle xid : Nat} (hc : Closed 0x4502 P) (hk0 : P s) :
    P (State.runQuery s x src lane handle xid) := by
  unfold State.runQuery
  try dsimp only
  repeat' first
    | with_reducible assumption | exact hc.mono rfl | with_reducible apply inv_upTab | with_reducible apply inv_closeQuery
    | with_reducible apply inv_askTk | with_reducible refine inv_foldl ?_ ?_ | with_reducible refine inv_foldl_fst ?_ ?_ | split | intro

theorem inv_failCtrl {P : State → Prop} {s : State} {x : Nat} {declare query : Bool} (hc : Closed 0xCFBF P) (hk0 : P s) :
    P (State.failCtrl s x declare query) := by
  unfold State.failCtrl
  try dsimp only
  repeat' first
    | with_reducible assumption | exact hc.mono rfl | with_reducible apply inv_runQuery | with_reducible apply inv_declareFailed
    | with_reducible apply inv_failCtrlAnswer | with_reducible apply inv_askTk | with_reducible apply inv_setFld
    | with_reducible refine inv_ite ?_ ?_ | with_reducible refine inv_ite_fst ?_ ?_ | with_reducible refine inv_ite_snd ?_ ?_ | split
    | intro

theorem inv_portEnters {P : State → Prop} {s : State} {k : Nat} (hc : Closed 0x4402 P) (hk0 : P s) :
    P (State.portEnters s k) := by
  unfold State.portEnters
  try dsimp only
  repeat' first
    | with_reducible assumption | exact hc.mono rfl | with_reducible apply inv_moveFlow | with_reducible apply inv_setFld
    | with_reducible refine inv_foldl ?_ ?_ | with_reducible refine inv_foldl_fst ?_ ?_ | with_reducible refine inv_ite ?_ ?_
    | with_reducible refine inv_ite_fst ?_ ?_ | with_reducible refine inv_ite_snd ?_ ?_ | split | intro

theorem inv_cutRowsWrite {P : State → Prop} {s : State} {c : Cmd} {d : Desc} (hc : Closed 0x4F86 P) (hk0 : P s) :
    P (State.cutRowsWrite s c d) := by
  unfold State.cutRowsWrite
  try dsimp only
  repeat' first
    | with_reducible assumption | exact hc.mono rfl | with_reducible apply inv_sweepWaits | with_reducible apply inv_rowsWriteEnd
    | with_reducible apply inv_endWith | with_reducible apply inv_endAt | with_reducible refine inv_foldl ?_ ?_
    | with_reducible refine inv_foldl_fst ?_ ?_ | with_reducible refine inv_ite ?_ ?_ | with_reducible refine inv_ite_fst ?_ ?_
    | with_reducible refine inv_ite_snd ?_ ?_ | split | intro

theorem inv_cutGroups {P : State → Prop} {s : State} {c : Cmd} {d : Desc} (hc : Closed 0xD80 P) (hk0 : P s) :
    P (State.cutGroups s c d) := by
  unfold State.cutGroups
  try dsimp only
  repeat' first
    | with_reducible assumption | exact hc.mono rfl | with_reducible apply inv_endAt | with_reducible apply inv_endCmd
    | with_reducible refine inv_foldl ?_ ?_ | with_reducible refine inv_foldl_fst ?_ ?_ | with_reducible refine inv_ite ?_ ?_
    | with_reducible refine inv_ite_fst ?_ ?_ | with_reducible refine inv_ite_snd ?_ ?_ | split | intro

theorem inv_cutTable {P : State → Prop} {s : State} {c : Cmd} {d : Desc} (hc : Closed 0xD80 P) (hk0 : P s) :
    P (State.cutTable s c d) := by
  unfold State.cutTable
  try dsimp only
  repeat' first
    | with_reducible assumption | exact hc.mono rfl | with_reducible apply inv_endCmd | with_reducible refine inv_foldl ?_ ?_
    | with_reducible refine inv_foldl_fst ?_ ?_ | with_reducible refine inv_ite ?_ ?_ | with_reducible refine inv_ite_fst ?_ ?_
    | with_reducible refine inv_ite_snd ?_ ?_ | split | intro

theorem inv_reportTier {P : State → Prop} {s : State} {tier : Nat} (hc : Closed 0xCF9E P) (hk0 : P s) :
    P (State.reportTier s tier) := by
  unfold State.reportTier
  try dsimp only
  repeat' first
    | with_reducible assumption | exact hc.mono rfl | with_reducible apply inv_loseOwner | with_reducible apply inv_sendTk
    | with_reducible refine inv_foldl ?_ ?_ | with_reducible refine inv_foldl_fst ?_ ?_ | split | intro

theorem inv_downReported {P : State → Prop} {s : State} {x reporter : Nat} (hc : Closed 0xCFBF P) (hk0 : P s) :
    P (State.downReported s x reporter) := by
  unfold State.downReported
  try dsimp only
  repeat' first
    | with_reducible assumption | exact hc.mono rfl | with_reducible apply inv_upTab | with_reducible apply inv_declareFailed
    | with_reducible apply inv_sendTk | with_reducible refine inv_ite ?_ ?_ | with_reducible refine inv_ite_fst ?_ ?_
    | with_reducible refine inv_ite_snd ?_ ?_ | split | intro

theorem inv_takeLoad {P : State → Prop} {s : State} {src : Nat} {r : LoadReport} (hc : Closed 0x100 P) (hk0 : P s) :
    P (State.takeLoad s src r) := by
  unfold State.takeLoad
  try dsimp only
  repeat' first
    | with_reducible assumption | exact hc.mono rfl | with_reducible apply inv_upTab | with_reducible refine inv_ite ?_ ?_
    | with_reducible refine inv_ite_fst ?_ ?_ | with_reducible refine inv_ite_snd ?_ ?_ | split | intro

theorem inv_even {P : State → Prop} {s : State} {r : TableRec} (hc : Closed 0xCF9E P) (hk0 : P s) :
    P (State.even s r) := by
  unfold State.even
  try dsimp only
  repeat' first
    | with_reducible assumption | exact hc.mono rfl | with_reducible apply inv_poke | with_reducible apply inv_newOp
    | with_reducible apply inv_bump | with_reducible refine inv_foldl ?_ ?_ | with_reducible refine inv_foldl_fst ?_ ?_
    | with_reducible refine inv_ite ?_ ?_ | with_reducible refine inv_ite_fst ?_ ?_ | with_reducible refine inv_ite_snd ?_ ?_ | split
    | intro

theorem inv_endPeriod {P : State → Prop} {s : State} (hc : Closed 0xCF9E P) (hk0 : P s) :
    P (State.endPeriod s) := by
  unfold State.endPeriod
  try dsimp only
  repeat' first
    | with_reducible assumption | exact hc.mono rfl | with_reducible apply inv_upTab | with_reducible apply inv_even
    | with_reducible apply inv_takeLoad | with_reducible apply inv_sendTk | with_reducible apply inv_setFld
    | with_reducible refine inv_foldl ?_ ?_ | with_reducible refine inv_foldl_fst ?_ ?_ | with_reducible refine inv_ite ?_ ?_
    | with_reducible refine inv_ite_fst ?_ ?_ | with_reducible refine inv_ite_snd ?_ ?_ | split | intro

theorem inv_moveRoom {P : State → Prop} {s : State} {h : TkHdr} {b : TkBody} {t v g tier : Nat} (hc : Closed 0x470E P) (hk0 : P s) :
    P (State.moveRoom s h b t v g tier) := by
  unfold State.moveRoom
  try dsimp only
  repeat' first
    | with_reducible assumption | exact hc.mono rfl | with_reducible apply inv_placeGroup | with_reducible apply inv_answerTk
    | with_reducible refine inv_ite ?_ ?_ | with_reducible refine inv_ite_fst ?_ ?_ | with_reducible refine inv_ite_snd ?_ ?_ | split
    | intro

theorem inv_moveTier {P : State → Prop} {t0 : State} {s : State} {t v g dtier recipe : Nat} (hc : Closed 0x831E P) (hk0 : P s) (e0 : State.moveTier s t v g dtier recipe = some t0) :
    P t0 := by
  revert e0
  unfold State.moveTier
  try dsimp only
  repeat' first
    | with_reducible assumption | exact hc.mono rfl | with_reducible apply inv_wipe | with_reducible apply inv_keepEntry
    | with_reducible apply inv_copyRun | with_reducible apply inv_flushRange | with_reducible apply inv_upGroup
    | with_reducible apply inv_charge | with_reducible apply inv_free
    | with_reducible refine inv_alloc ?_ ?_ (by with_reducible assumption) | (intro e0; cases e0; done) | (intro e0; cases e0; skip)
    | (intro e0; obtain ⟨_, _, rfl⟩ := Option.map_eq_some_iff.mp e0; skip) | split | intro

theorem inv_noteImage {P : State → Prop} {s : State} {id status : Nat} (hc : Closed 0x100 P) (hk0 : P s) :
    P (State.noteImage s id status) := by
  unfold State.noteImage
  try dsimp only
  repeat' first
    | with_reducible assumption | exact hc.mono rfl | with_reducible apply inv_upTab | with_reducible refine inv_ite ?_ ?_
    | with_reducible refine inv_ite_fst ?_ ?_ | with_reducible refine inv_ite_snd ?_ ?_ | split | intro

theorem inv_sendPast {P : State → Prop} {s : State} {p l : Nat} {bytes : List Byte} (hc : Closed 0x4402 P) (hk0 : P s) :
    P (State.sendPast s p l bytes) := by
  unfold State.sendPast
  try dsimp only
  repeat' first
    | with_reducible assumption | exact hc.mono rfl | with_reducible apply inv_openFlow | with_reducible apply inv_pump
    | with_reducible apply inv_upFlow | with_reducible refine inv_ite ?_ ?_ | with_reducible refine inv_ite_fst ?_ ?_
    | with_reducible refine inv_ite_snd ?_ ?_ | with_reducible refine inv_roomForFlow ?_ ?_ (by with_reducible assumption) | split | intro

theorem inv_unlessFailed {P : State → Prop} {s : State} {src lane mtype handle xid : Nat} {f : State → State} (hc : Closed 0x4402 P) (hk0 : P s) (hf_f : ∀ y0, P y0 → P (f y0)) :
    P (State.unlessFailed s src lane mtype handle xid f) := by
  unfold State.unlessFailed
  try dsimp only
  repeat' first
    | with_reducible assumption | exact hc.mono rfl | with_reducible apply inv_sendPast | with_reducible apply inv_newXid
    | with_reducible apply hf_f | with_reducible refine inv_ite ?_ ?_ | with_reducible refine inv_ite_fst ?_ ?_
    | with_reducible refine inv_ite_snd ?_ ?_ | split | intro

theorem inv_unlessFailedTk {P : State → Prop} {s : State} {h : TkHdr} {mtype : Nat} {f : State → State} (hc : Closed 0x4402 P) (hk0 : P s) (hf_f : ∀ y0, P y0 → P (f y0)) :
    P (State.unlessFailedTk s h mtype f) := by
  unfold State.unlessFailedTk
  try dsimp only
  repeat' first
    | with_reducible assumption | exact hc.mono rfl | with_reducible apply inv_unlessFailed | with_reducible apply hf_f | split | intro

theorem inv_rebuilt {P : State → Prop} {s : State} {t v g : Nat} (hc : Closed 0x478E P) (hk0 : P s) :
    P (State.rebuilt s t v g) := by
  unfold State.rebuilt
  try dsimp only
  repeat' first
    | with_reducible assumption | exact hc.mono rfl | with_reducible apply inv_setEntry | with_reducible apply inv_bump
    | with_reducible refine inv_ite ?_ ?_ | with_reducible refine inv_ite_fst ?_ ?_ | with_reducible refine inv_ite_snd ?_ ?_ | split
    | intro

theorem inv_opReply {P : State → Prop} {s : State} {x : Xchg} {id : Nat} {ok : Bool} (hc : Closed 0xCF9E P) (hk0 : P s) :
    P (State.opReply s x id ok) := by
  unfold State.opReply
  try dsimp only
  repeat' first
    | with_reducible assumption | exact hc.mono rfl | with_reducible apply inv_rebuilt | with_reducible apply inv_moveAnswer
    | with_reducible apply inv_opAnswer | with_reducible apply inv_dropXchg | with_reducible apply inv_endOp
    | with_reducible refine inv_ite ?_ ?_ | with_reducible refine inv_ite_fst ?_ ?_ | with_reducible refine inv_ite_snd ?_ ?_ | split
    | intro

theorem inv_peerDown {P : State → Prop} {s : State} {x : Nat} (hc : Closed 0xCFBF P) (hk0 : P s) :
    P (State.peerDown s x) := by
  unfold State.peerDown
  try dsimp only
  repeat' first
    | with_reducible assumption | exact hc.mono rfl | with_reducible apply inv_downReported | with_reducible apply inv_failXchgs
    | with_reducible apply inv_closeFlows | with_reducible apply inv_setRouteBit | with_reducible apply inv_bump | split | intro

theorem inv_recvClaim {P : State → Prop} {s : State} {h : TkHdr} {b : TkBody} (hc : Closed 0xCF9E P) (hk0 : P s) :
    P (State.recvClaim s h b) := by
  unfold State.recvClaim
  try dsimp only
  repeat' first
    | with_reducible assumption | exact hc.mono rfl | with_reducible apply inv_idFreed | with_reducible apply inv_mapGroup
    | with_reducible apply inv_startOp | with_reducible apply inv_startCreate | with_reducible apply inv_answerTk | split | intro

theorem inv_recvCopy {P : State → Prop} {s : State} {h : TkHdr} {d : CopyData} (hc : Closed 0xC716 P) (hk0 : P s) :
    P (State.recvCopy s h d) := by
  unfold State.recvCopy
  try dsimp only
  repeat' first
    | with_reducible assumption | exact hc.mono rfl | with_reducible apply inv_storeCopy | with_reducible apply inv_answerTk
    | with_reducible apply inv_upGroup | with_reducible refine inv_ite ?_ ?_ | with_reducible refine inv_ite_fst ?_ ?_
    | with_reducible refine inv_ite_snd ?_ ?_ | split | intro

theorem inv_tierReported {P : State → Prop} {s : State} {src tier : Nat} (hc : Closed 0xCF9E P) (hk0 : P s) :
    P (State.tierReported s src tier) := by
  unfold State.tierReported
  try dsimp only
  repeat' first
    | with_reducible assumption | exact hc.mono rfl | with_reducible apply inv_loseOwner | with_reducible refine inv_foldl ?_ ?_
    | with_reducible refine inv_foldl_fst ?_ ?_ | split | intro

theorem inv_recvFail {P : State → Prop} {s : State} {h : TkHdr} {b : TkBody} (hc : Closed 0xCFBF P) (hk0 : P s) :
    P (State.recvFail s h b) := by
  unfold State.recvFail
  try dsimp only
  repeat' first
    | with_reducible assumption | exact hc.mono rfl | with_reducible apply inv_tierReported | with_reducible apply inv_downReported
    | with_reducible apply inv_runQuery | with_reducible apply inv_declareFailed | with_reducible apply inv_failNoticed
    | with_reducible apply inv_reportSecondary | with_reducible apply inv_answerTk | with_reducible apply inv_sendTk
    | with_reducible refine inv_ite ?_ ?_ | with_reducible refine inv_ite_fst ?_ ?_ | with_reducible refine inv_ite_snd ?_ ?_ | split
    | intro

theorem inv_recvFetch {P : State → Prop} {s : State} {h : TkHdr} {t : Nat} (hc : Closed 0x4502 P) (hk0 : P s) :
    P (State.recvFetch s h t) := by
  unfold State.recvFetch
  try dsimp only
  repeat' first
    | with_reducible assumption | exact hc.mono rfl | with_reducible apply inv_mirrorRecord | with_reducible apply inv_upReg
    | with_reducible apply inv_answerTk | with_reducible refine inv_ite ?_ ?_ | with_reducible refine inv_ite_fst ?_ ?_
    | with_reducible refine inv_ite_snd ?_ ?_ | split | intro

theorem inv_serveImage {P : State → Prop} {s : State} {hdr : TkHdr} {t ver ctx g : Nat} {dst : Option Nat} (hc : Closed 0xCF06 P) (hk0 : P s) :
    P (State.serveImage s hdr t ver ctx g dst) := by
  unfold State.serveImage
  try dsimp only
  repeat' first
    | with_reducible assumption | exact hc.mono rfl | with_reducible apply inv_upTab | with_reducible apply inv_noteImage
    | with_reducible apply inv_closeImage | with_reducible apply inv_answerTk | with_reducible apply inv_charge
    | with_reducible apply inv_hostWrite | with_reducible apply inv_putData | with_reducible apply inv_memWriteTo
    | with_reducible apply inv_reachGlobal | with_reducible apply inv_deny | with_reducible refine inv_foldl ?_ ?_
    | with_reducible refine inv_foldl_fst ?_ ?_ | with_reducible refine inv_ite ?_ ?_ | with_reducible refine inv_ite_fst ?_ ?_
    | with_reducible refine inv_ite_snd ?_ ?_ | split | intro

theorem inv_serveImagePart {P : State → Prop} {s : State} {hdr : TkHdr} {t ver ctx g off : Nat} {bs : List Byte} (hc : Closed 0xC786 P) (hk0 : P s) :
    P (State.serveImagePart s hdr t ver ctx g off bs) := by
  unfold State.serveImagePart
  try dsimp only
  repeat' first
    | with_reducible assumption | exact hc.mono rfl | with_reducible apply inv_fillGroup | with_reducible apply inv_answerTk
    | with_reducible apply inv_settleWait | with_reducible apply inv_openWait | with_reducible apply inv_deny
    | with_reducible refine inv_ite ?_ ?_ | with_reducible refine inv_ite_fst ?_ ?_ | with_reducible refine inv_ite_snd ?_ ?_ | split
    | intro

theorem inv_serveRowsWrite {P : State → Prop} {s : State} {hdr : TkHdr} {t ver ctx : Nat} {rows : List (Nat × List Byte)} (hc : Closed 0xC786 P) (hk0 : P s) :
    P (State.serveRowsWrite s hdr t ver ctx rows) := by
  unfold State.serveRowsWrite
  try dsimp only
  repeat' first
    | with_reducible assumption | exact hc.mono rfl | with_reducible apply inv_writeRowsHere | with_reducible apply inv_answerTk
    | with_reducible apply inv_settleWait | with_reducible apply inv_openWait | with_reducible apply inv_deny
    | with_reducible refine inv_ite ?_ ?_ | with_reducible refine inv_ite_fst ?_ ?_ | with_reducible refine inv_ite_snd ?_ ?_ | split
    | intro

theorem inv_serveRowsRead {P : State → Prop} {s : State} {hdr : TkHdr} {t ver ctx : Nat} {rows : List Nat} (hc : Closed 0xC502 P) (hk0 : P s) :
    P (State.serveRowsRead s hdr t ver ctx rows) := by
  unfold State.serveRowsRead
  try dsimp only
  repeat' first
    | with_reducible assumption | exact hc.mono rfl | with_reducible apply inv_readStored | with_reducible apply inv_answerTk
    | with_reducible apply inv_deny | with_reducible refine inv_ite ?_ ?_ | with_reducible refine inv_ite_fst ?_ ?_
    | with_reducible refine inv_ite_snd ?_ ?_ | split | intro

theorem inv_recvImage {P : State → Prop} {s : State} {h : TkHdr} {b : TkBody} (hc : Closed 0xCF86 P) (hk0 : P s) :
    P (State.recvImage s h b) := by
  unfold State.recvImage
  try dsimp only
  repeat' first
    | with_reducible assumption | exact hc.mono rfl | with_reducible apply inv_serveRowsRead | with_reducible apply inv_serveRowsWrite
    | with_reducible apply inv_serveImagePart | with_reducible apply inv_serveImage | split | intro

theorem inv_recvPhase {P : State → Prop} {s : State} {h : TkHdr} {p : VPhase} {t v : Nat} (hc : Closed 0xC71E P) (hk0 : P s) :
    P (State.recvPhase s h p t v) := by
  unfold State.recvPhase
  try dsimp only
  repeat' first
    | with_reducible assumption | exact hc.mono rfl | with_reducible apply inv_upTab | with_reducible apply inv_switchHere
    | with_reducible apply inv_publishHere | with_reducible apply inv_publishCopy | with_reducible apply inv_freeVersion
    | with_reducible apply inv_answerTk | with_reducible refine inv_ite ?_ ?_ | with_reducible refine inv_ite_fst ?_ ?_
    | with_reducible refine inv_ite_snd ?_ ?_ | with_reducible refine inv_publishReserve ?_ ?_ (by with_reducible assumption) | split
    | intro

theorem inv_recvReleased {P : State → Prop} {s : State} {h : TkHdr} {t v g : Nat} (hc : Closed 0xCF9E P) (hk0 : P s) :
    P (State.recvReleased s h t v g) := by
  unfold State.recvReleased
  try dsimp only
  repeat' first
    | with_reducible assumption | exact hc.mono rfl | with_reducible apply inv_opAnswer | with_reducible apply inv_dropGroup
    | with_reducible refine inv_ite ?_ ?_ | with_reducible refine inv_ite_fst ?_ ?_ | with_reducible refine inv_ite_snd ?_ ?_ | split
    | intro

theorem inv_recvReplica {P : State → Prop} {s : State} {h : TkHdr} {d : CopyData} (hc : Closed 0xC716 P) (hk0 : P s) :
    P (State.recvReplica s h d) := by
  unfold State.recvReplica
  try dsimp only
  repeat' first
    | with_reducible assumption | exact hc.mono rfl | with_reducible apply inv_storeCopy | with_reducible apply inv_answerTk
    | with_reducible refine inv_ite ?_ ?_ | with_reducible refine inv_ite_fst ?_ ?_ | with_reducible refine inv_ite_snd ?_ ?_ | split
    | intro

theorem inv_recvReply {P : State → Prop} {s : State} {h : TkHdr} {a : TkAnswer} (hc : Closed 0xCF9F P) (hk0 : P s) :
    P (State.recvReply s h a).1 := by
  unfold State.recvReply
  try dsimp only
  repeat' first
    | with_reducible assumption | exact hc.mono rfl | with_reducible apply inv_upCmd | with_reducible apply inv_upTab
    | with_reducible apply inv_slotsAnswer | with_reducible apply inv_opReply | with_reducible apply inv_regather
    | with_reducible apply inv_reportSecondary | with_reducible apply inv_confirmed | with_reducible apply inv_commitAnswer
    | with_reducible apply inv_closeQuery | with_reducible apply inv_failCtrlAnswer | with_reducible apply inv_askReply
    | with_reducible apply inv_dropXchg | with_reducible apply inv_recvEntry | with_reducible apply inv_resend
    | with_reducible apply inv_installRecord | with_reducible apply inv_useRec | with_reducible apply inv_endAt
    | with_reducible refine inv_ite ?_ ?_ | with_reducible refine inv_ite_fst ?_ ?_ | with_reducible refine inv_ite_snd ?_ ?_ | split
    | intro

theorem inv_recvReserve {P : State → Prop} {s : State} {h : TkHdr} {b : TkBody} (hc : Closed 0x470E P) (hk0 : P s) :
    P (State.recvReserve s h b) := by
  unfold State.recvReserve
  try dsimp only
  repeat' first
    | with_reducible assumption | exact hc.mono rfl | with_reducible apply inv_moveRoom | with_reducible apply inv_dropGroup
    | with_reducible apply inv_newOp | with_reducible apply inv_answerTk | with_reducible apply inv_reserveHere
    | with_reducible apply inv_releaseSlots | with_reducible refine inv_ite ?_ ?_ | with_reducible refine inv_ite_fst ?_ ?_
    | with_reducible refine inv_ite_snd ?_ ?_ | with_reducible refine inv_reserveBytes ?_ ?_ (by with_reducible assumption) | split | intro

theorem inv_recvUpdate {P : State → Prop} {s : State} {h : TkHdr} {u : TkUpdate} (hc : Closed 0xC78E P) (hk0 : P s) :
    P (State.recvUpdate s h u) := by
  unfold State.recvUpdate
  try dsimp only
  repeat' first
    | with_reducible assumption | exact hc.mono rfl | with_reducible apply inv_upTab | with_reducible apply inv_applyUpdate
    | with_reducible apply inv_setEntry | with_reducible apply inv_sendUpdate | with_reducible apply inv_answerTk
    | with_reducible apply inv_sendTk | with_reducible refine inv_ite ?_ ?_ | with_reducible refine inv_ite_fst ?_ ?_
    | with_reducible refine inv_ite_snd ?_ ?_ | split | intro

theorem inv_runMove {P : State → Prop} {s : State} {t v g dblk dtier : Nat} (hc : Closed 0xCF9E P) (hk0 : P s) :
    P (State.runMove s t v g dblk dtier) := by
  unfold State.runMove
  try dsimp only
  repeat' first
    | with_reducible assumption | exact hc.mono rfl | with_reducible apply inv_moveDone | with_reducible apply inv_upOp
    | with_reducible apply inv_askTk | with_reducible apply inv_bump | with_reducible refine inv_ite ?_ ?_
    | with_reducible refine inv_ite_fst ?_ ?_ | with_reducible refine inv_ite_snd ?_ ?_
    | with_reducible refine inv_moveTier ?_ ?_ (by with_reducible assumption) | split | intro

theorem inv_runRebuild {P : State → Prop} {s : State} {t v g : Nat} (hc : Closed 0xC78E P) (hk0 : P s) :
    P (State.runRebuild s t v g) := by
  unfold State.runRebuild
  try dsimp only
  repeat' first
    | with_reducible assumption | exact hc.mono rfl | with_reducible apply inv_upTab | with_reducible apply inv_applyUpdate
    | with_reducible apply inv_setEntry | with_reducible apply inv_sendUpdate | with_reducible apply inv_upOp
    | with_reducible apply inv_newOp | with_reducible apply inv_askTk | with_reducible refine inv_foldl ?_ ?_
    | with_reducible refine inv_foldl_fst ?_ ?_ | with_reducible refine inv_ite ?_ ?_ | with_reducible refine inv_ite_fst ?_ ?_
    | with_reducible refine inv_ite_snd ?_ ?_ | split | intro

end Sys2Proof.Machine
end

