-- ==== Sys2Proof/Laws/InvUnits.lean ====
section
/-! SUPPORT. The same of ports, frames, messages, security, power, tiers, the spine, register writes and boot. -/

namespace Sys2Proof.Machine

theorem inv_resendUpdates {P : State → Prop} {s : State} {p : Nat} (hc : Closed 0x4402 P) (hk0 : P s) :
    P (State.resendUpdates s p) := by
  unfold State.resendUpdates
  try dsimp only
  repeat' first
    | with_reducible assumption | exact hc.mono rfl | with_reducible apply inv_send | with_reducible refine inv_foldl ?_ ?_
    | with_reducible refine inv_foldl_fst ?_ ?_ | split | intro

theorem inv_runWith {P : State → Prop} {s : State} {h : Nat} {f : State → Cmd → Desc → State} (hc : Closed 0x4D82 P) (hk0 : P s) (hf_f : ∀ y0 y1 y2, P y0 → P (f y0 y1 y2)) :
    P (State.runWith s h f) := by
  unfold State.runWith
  try dsimp only
  repeat' first
    | with_reducible assumption | exact hc.mono rfl | with_reducible apply inv_begin_ | with_reducible apply hf_f | split | intro

theorem inv_runNop {P : State → Prop} {s : State} {h : Nat} (hc : Closed 0x4D82 P) (hk0 : P s) :
    P (State.runNop s h) := by
  unfold State.runNop
  try dsimp only
  repeat' first
    | with_reducible assumption | exact hc.mono rfl | with_reducible apply inv_runWith | with_reducible apply inv_endWith | split | intro

theorem inv_runFence {P : State → Prop} {s : State} {h : Nat} (hc : Closed 0x4D82 P) (hk0 : P s) :
    P (State.runFence s h) := by
  unfold State.runFence
  try dsimp only
  repeat' first
    | with_reducible assumption | exact hc.mono rfl | with_reducible apply inv_upCmd | with_reducible apply inv_runWith
    | with_reducible apply inv_endWith | with_reducible refine inv_ite ?_ ?_ | with_reducible refine inv_ite_fst ?_ ?_
    | with_reducible refine inv_ite_snd ?_ ?_ | split | intro

theorem inv_flushWays {P : State → Prop} {s : State} {mask : Nat} (hc : Closed 0x200 P) (hk0 : P s) :
    P (State.flushWays s mask).1 := by
  unfold State.flushWays
  try dsimp only
  repeat' first
    | with_reducible assumption | exact hc.mono rfl | with_reducible apply inv_upCache | with_reducible apply inv_dropLines
    | with_reducible refine inv_ite ?_ ?_ | with_reducible refine inv_ite_fst ?_ ?_ | with_reducible refine inv_ite_snd ?_ ?_ | split
    | intro

theorem inv_flushTable {P : State → Prop} {s : State} {t : Nat} (hc : Closed 0x200 P) (hk0 : P s) :
    P (State.flushTable s t).1 := by
  unfold State.flushTable
  try dsimp only
  repeat' first
    | with_reducible assumption | exact hc.mono rfl | with_reducible apply inv_flushRange | with_reducible apply inv_mdFlush
    | with_reducible refine inv_foldl ?_ ?_ | with_reducible refine inv_foldl_fst ?_ ?_ | with_reducible refine inv_ite ?_ ?_
    | with_reducible refine inv_ite_fst ?_ ?_ | with_reducible refine inv_ite_snd ?_ ?_ | split | intro

theorem inv_runFlush {P : State → Prop} {s : State} {h : Nat} (hc : Closed 0x4F82 P) (hk0 : P s) :
    P (State.runFlush s h) := by
  unfold State.runFlush
  try dsimp only
  repeat' first
    | with_reducible assumption | exact hc.mono rfl | with_reducible apply inv_upCache | with_reducible apply inv_flushTable
    | with_reducible apply inv_flushWays | with_reducible apply inv_flushRange | with_reducible apply inv_runWith
    | with_reducible apply inv_endCmd | with_reducible apply inv_mdFlush | with_reducible refine inv_ite ?_ ?_
    | with_reducible refine inv_ite_fst ?_ ?_ | with_reducible refine inv_ite_snd ?_ ?_ | split | intro

theorem inv_deliver {P : State → Prop} {s : State} {c : Cmd} {u : OutUnit} {status : Nat} {f : Cmd → Cmd} (hc : Closed 0xCF86 P) (hk0 : P s) :
    P (State.deliver s c u status f) := by
  unfold State.deliver
  try dsimp only
  repeat' first
    | with_reducible assumption | exact hc.mono rfl | with_reducible apply inv_writeUnits | with_reducible apply inv_waitOn
    | with_reducible apply inv_endFault | with_reducible apply inv_endAt | with_reducible apply inv_endCmd
    | with_reducible refine inv_ite ?_ ?_ | with_reducible refine inv_ite_fst ?_ ?_ | with_reducible refine inv_ite_snd ?_ ?_ | split
    | intro

theorem inv_runStats {P : State → Prop} {s : State} {h : Nat} (hc : Closed 0xCF86 P) (hk0 : P s) :
    P (State.runStats s h) := by
  unfold State.runStats
  try dsimp only
  repeat' first
    | with_reducible assumption | exact hc.mono rfl | with_reducible apply inv_deliver | with_reducible apply inv_runWith
    | with_reducible apply inv_endCmd | with_reducible refine inv_ite ?_ ?_ | with_reducible refine inv_ite_fst ?_ ?_
    | with_reducible refine inv_ite_snd ?_ ?_ | split | intro

theorem inv_runAttest {P : State → Prop} {s : State} {h : Nat} (hc : Closed 0xCF86 P) (hk0 : P s) :
    P (State.runAttest s h) := by
  unfold State.runAttest
  try dsimp only
  repeat' first
    | with_reducible assumption | exact hc.mono rfl | with_reducible apply inv_upSec | with_reducible apply inv_deliver
    | with_reducible apply inv_runWith | with_reducible apply inv_endWith | with_reducible refine inv_ite ?_ ?_
    | with_reducible refine inv_ite_fst ?_ ?_ | with_reducible refine inv_ite_snd ?_ ?_ | split | intro

theorem inv_syncRepairs {P : State → Prop} {s : State} (hc : Closed 0x2 P) (hk0 : P s) :
    P (State.syncRepairs s) := by
  unfold State.syncRepairs
  try dsimp only
  repeat' first
    | with_reducible assumption | exact hc.mono rfl | with_reducible apply inv_setFld | split | intro

theorem inv_endLoopback {P : State → Prop} {s : State} {c : Cmd} {d : Desc} {result errs : Nat} {first : Option Nat} {bytes : Nat} {elapsed : Option Nat} (hc : Closed 0xCF87 P) (hk0 : P s) :
    P (State.endLoopback s c d result errs first bytes elapsed) := by
  unfold State.endLoopback
  try dsimp only
  repeat' first
    | with_reducible assumption | exact hc.mono rfl | with_reducible apply inv_upFab | with_reducible apply inv_syncRepairs
    | with_reducible apply inv_deliver | with_reducible apply inv_draw | with_reducible apply inv_bump
    | with_reducible refine inv_ite ?_ ?_ | with_reducible refine inv_ite_fst ?_ ?_ | with_reducible refine inv_ite_snd ?_ ?_ | split
    | intro

theorem inv_portLoopback {P : State → Prop} {s : State} {c : Cmd} {d : Desc} (hc : Closed 0xEF87 P) (hk0 : P s) :
    P (State.portLoopback s c d) := by
  unfold State.portLoopback
  try dsimp only
  repeat' first
    | with_reducible assumption | exact hc.mono rfl | with_reducible apply inv_upCmd | with_reducible apply inv_upFab
    | with_reducible apply inv_portLeaves | with_reducible apply inv_endLoopback | with_reducible refine inv_ite ?_ ?_
    | with_reducible refine inv_ite_fst ?_ ?_ | with_reducible refine inv_ite_snd ?_ ?_ | split | intro

theorem inv_echoLoopback {P : State → Prop} {s : State} {c : Cmd} {d : Desc} (hc : Closed 0xCF87 P) (hk0 : P s) :
    P (State.echoLoopback s c d) := by
  unfold State.echoLoopback
  try dsimp only
  repeat' first
    | with_reducible assumption | exact hc.mono rfl | with_reducible apply inv_upCmd | with_reducible apply inv_upFab
    | with_reducible apply inv_endLoopback | with_reducible apply inv_request | with_reducible apply inv_upFlow
    | with_reducible refine inv_foldl ?_ ?_ | with_reducible refine inv_foldl_fst ?_ ?_ | with_reducible refine inv_ite ?_ ?_
    | with_reducible refine inv_ite_fst ?_ ?_ | with_reducible refine inv_ite_snd ?_ ?_ | split | intro

theorem inv_sliceLoopback {P : State → Prop} {s : State} {c : Cmd} {d : Desc} (hc : Closed 0xCF87 P) (hk0 : P s) :
    P (State.sliceLoopback s c d) := by
  unfold State.sliceLoopback
  try dsimp only
  repeat' first
    | with_reducible assumption | exact hc.mono rfl | with_reducible apply inv_upCmd | with_reducible apply inv_upFab
    | with_reducible apply inv_upSpine | with_reducible apply inv_endLoopback | with_reducible apply inv_syncRepairs
    | with_reducible refine inv_ite ?_ ?_ | with_reducible refine inv_ite_fst ?_ ?_ | with_reducible refine inv_ite_snd ?_ ?_ | split
    | intro

theorem inv_runLoopback {P : State → Prop} {s : State} {h : Nat} (hc : Closed 0xEF87 P) (hk0 : P s) :
    P (State.runLoopback s h) := by
  unfold State.runLoopback
  try dsimp only
  repeat' first
    | with_reducible assumption | exact hc.mono rfl | with_reducible apply inv_sliceLoopback | with_reducible apply inv_echoLoopback
    | with_reducible apply inv_portLoopback | with_reducible apply inv_endLoopback | with_reducible apply inv_runWith
    | with_reducible apply inv_mdFlush | with_reducible refine inv_ite ?_ ?_ | with_reducible refine inv_ite_fst ?_ ?_
    | with_reducible refine inv_ite_snd ?_ ?_ | split | intro

theorem inv_runDiag {P : State → Prop} {s : State} {h : Nat} (hc : Closed 0x4D83 P) (hk0 : P s) :
    P (State.runDiag s h) := by
  unfold State.runDiag
  try dsimp only
  repeat' first
    | with_reducible assumption | exact hc.mono rfl | with_reducible apply inv_upCtl | with_reducible apply inv_runWith
    | with_reducible apply inv_endWith | exact fun _ => Nat.le_refl _ | exact fun _ => Nat.le_max_left _ _ | exact fun _ => Or.inl rfl
    | exact fun _ => Or.inr rfl | split | intro

theorem inv_runCmd {P : State → Prop} {s : State} {h : Nat} (hc : Closed 0xEF9F P) (hk0 : P s) :
    P (State.runCmd s h) := by
  unfold State.runCmd
  try dsimp only
  repeat' first
    | with_reducible assumption | exact hc.mono rfl | with_reducible apply inv_runDiag | with_reducible apply inv_runLoopback
    | with_reducible apply inv_runAttest | with_reducible apply inv_runCommit | with_reducible apply inv_runStats
    | with_reducible apply inv_runFlush | with_reducible apply inv_runFence | with_reducible apply inv_runRestore
    | with_reducible apply inv_runCheckpoint | with_reducible apply inv_runRowsRead | with_reducible apply inv_runRowsWrite
    | with_reducible apply inv_runTable | with_reducible apply inv_runScatter | with_reducible apply inv_runGather
    | with_reducible apply inv_runNop | with_reducible refine inv_ite ?_ ?_ | with_reducible refine inv_ite_fst ?_ ?_
    | with_reducible refine inv_ite_snd ?_ ?_ | split | intro

theorem inv_runDrains {P : State → Prop} {s : State} (hc : Closed 0xEF9F P) (hk0 : P s) :
    P (State.runDrains s) := by
  unfold State.runDrains
  try dsimp only
  repeat' first
    | with_reducible assumption | exact hc.mono rfl | with_reducible apply inv_runCmd | with_reducible refine inv_foldl ?_ ?_
    | with_reducible refine inv_foldl_fst ?_ ?_ | split | intro

theorem inv_pumpShare {P : State → Prop} {s : State} {k l n : Nat} (hc : Closed 0x4402 P) (hk0 : P s) :
    P (State.pumpShare s k l n) :=
  inv_foldl hk0 (fun _ _ h => inv_pumpFuel hc h)

theorem inv_pumpRounds {P : State → Prop} {fuel : Nat} (hc : Closed 0x4402 P) : ∀ {s : State}, P s → P (s.pumpRounds fuel) := by
  induction fuel with
  | zero => intro s h; exact h
  | succ n ih =>
    intro s h
    have ht := inv_foldl (l := upTo 8) (f := fun s k => (s.pumpShare k 3 3).pumpShare k 2 1) h
      (fun _ _ h => inv_pumpShare hc (inv_pumpShare hc h))
    unfold State.pumpRounds
    dsimp only
    split
    · exact ht
    · exact ih ht

theorem inv_pumpAll {P : State → Prop} {s : State} (hc : Closed 0x4402 P) (hk0 : P s) :
    P (State.pumpAll s) :=
  inv_pumpRounds hc (inv_foldl hk0 (fun _ _ h => inv_foldl h (fun _ _ h => inv_pump hc h)))

theorem inv_takeAck {P : State → Prop} {s : State} {p l : Nat} {h : List Byte} (hc : Closed 0xEF9F P) (hk0 : P s) :
    P (State.takeAck s p l h) := by
  unfold State.takeAck
  try dsimp only
  repeat' first
    | with_reducible assumption | exact hc.mono rfl | with_reducible apply inv_pumpAll | with_reducible apply inv_runDrains
    | with_reducible apply inv_unstall | with_reducible apply inv_upFlow | with_reducible refine inv_ite ?_ ?_
    | with_reducible refine inv_ite_fst ?_ ?_ | with_reducible refine inv_ite_snd ?_ ?_ | split | intro

theorem inv_ackOpen {P : State → Prop} {s : State} {f : Frame} {p l : Nat} (hc : Closed 0xEF9F P) (hk0 : P s) :
    P (State.ackOpen s f p l) := by
  unfold State.ackOpen
  try dsimp only
  repeat' first
    | with_reducible assumption | exact hc.mono rfl | with_reducible apply inv_takeAck | with_reducible apply inv_resendUpdates
    | with_reducible apply inv_unstall | with_reducible apply inv_pump | with_reducible apply inv_sendFrame | split | intro

theorem inv_hostOut {P : State → Prop} {s : State} {hopc tag : Nat} {err : Bool} {data : List Byte} (hc : Closed 0x800 P) (hk0 : P s) :
    P (State.hostOut s hopc tag err data) := by
  unfold State.hostOut
  try dsimp only
  repeat' first
    | with_reducible assumption | exact hc.mono rfl | with_reducible apply inv_upTu | split | intro

theorem inv_aperture {P : State → Prop} {s : State} {write : Bool} {tag off len : Nat} {data : List Byte} (hc : Closed 0xA04 P) (hk0 : P s) :
    P (State.aperture s write tag off len data) := by
  unfold State.aperture
  try dsimp only
  repeat' first
    | with_reducible assumption | exact hc.mono rfl | with_reducible apply inv_hostOut | with_reducible apply inv_putData
    | with_reducible refine inv_ite ?_ ?_ | with_reducible refine inv_ite_fst ?_ ?_ | with_reducible refine inv_ite_snd ?_ ?_ | split
    | intro

theorem inv_askRepair {P : State → Prop} {s : State} {tier off : Nat} (hc : Closed 0x8002 P) (hk0 : P s) :
    P (State.askRepair s tier off) := by
  unfold State.askRepair
  try dsimp only
  repeat' first
    | with_reducible assumption | exact hc.mono rfl | with_reducible apply inv_upSpine | with_reducible apply inv_syncRepairs | split
    | intro

theorem inv_blowFuses {P : State → Prop} {s : State} (hc : Closed 0x1002 P) (hk0 : P s) : P s.blowFuses := by
  refine inv_setFld (hc.mono rfl) (hc.setFuses rfl _ _ _ (Nat.le_max_left _ _) (fun i hi h => ?_) hk0)
  simp [upTo, hi, h]

theorem inv_measure {P : State → Prop} {s : State} {m : Nat} {digest : List Byte} (hc : Closed 0x2 P) (hk0 : P s) :
    P (State.measure s m digest) := by
  unfold State.measure
  try dsimp only
  repeat' first
    | with_reducible assumption | exact hc.mono rfl | with_reducible apply inv_setReg | with_reducible refine inv_foldl ?_ ?_
    | with_reducible refine inv_foldl_fst ?_ ?_ | split | intro

theorem inv_setIface {P : State → Prop} {s : State} (hc : Closed 0x2 P) (hk0 : P s) :
    P (State.setIface s) := by
  unfold State.setIface
  try dsimp only
  repeat' first
    | with_reducible assumption | exact hc.mono rfl | with_reducible apply inv_setFld | with_reducible refine inv_ite ?_ ?_
    | with_reducible refine inv_ite_fst ?_ ?_ | with_reducible refine inv_ite_snd ?_ ?_ | split | intro

theorem inv_bootSlot {P : State → Prop} {s : State} {slot : Nat} {trial rolled : Bool} (hc : Closed 0xFE06 P) (hk0 : P s) :
    P (State.bootSlot s slot trial rolled) := by
  unfold State.bootSlot
  try dsimp only
  repeat' first
    | with_reducible assumption | exact hc.mono rfl | with_reducible apply inv_upSec | with_reducible apply inv_setReg
    | with_reducible apply inv_setIface | with_reducible apply inv_measure | with_reducible apply inv_blowFuses
    | with_reducible apply inv_fault | with_reducible refine inv_ite ?_ ?_ | with_reducible refine inv_ite_fst ?_ ?_
    | with_reducible refine inv_ite_snd ?_ ?_ | split | intro

theorem inv_calibrate {P : State → Prop} {s : State} {line measured : Nat} (hc : Closed 0x8000 P) (hk0 : P s) :
    P (State.calibrate s line measured) := by
  unfold State.calibrate
  try dsimp only
  repeat' first
    | with_reducible assumption | exact hc.mono rfl | with_reducible apply inv_upSpine | split | intro

theorem inv_canary {P : State → Prop} {s : State} {n count rate : Nat} (hc : Closed 0xEE06 P) (hk0 : P s) :
    P (State.canary s n count rate) := by
  unfold State.canary
  try dsimp only
  repeat' first
    | with_reducible assumption | exact hc.mono rfl | with_reducible apply inv_fault | with_reducible apply inv_setFld
    | with_reducible refine inv_ite ?_ ?_ | with_reducible refine inv_ite_fst ?_ ?_ | with_reducible refine inv_ite_snd ?_ ?_ | split
    | intro

theorem inv_canaries {P : State → Prop} {s : State} {counts rates : List Nat} (hc : Closed 0xEE06 P) (hk0 : P s) :
    P (State.canaries s counts rates) := by
  unfold State.canaries
  try dsimp only
  repeat' first
    | with_reducible assumption | exact hc.mono rfl | with_reducible apply inv_canary | with_reducible apply inv_fault
    | with_reducible apply inv_setFld | with_reducible refine inv_foldl ?_ ?_ | with_reducible refine inv_foldl_fst ?_ ?_
    | with_reducible refine inv_ite ?_ ?_ | with_reducible refine inv_ite_fst ?_ ?_ | with_reducible refine inv_ite_snd ?_ ?_ | split
    | intro

theorem inv_casPte {P : State → Prop} {s : State} {a new : Nat} (hc : Closed 0xA06 P) (hk0 : P s) :
    P (State.casPte s a new) := by
  unfold State.casPte
  try dsimp only
  repeat' first
    | with_reducible assumption | exact hc.mono rfl | with_reducible apply inv_hostPacket | with_reducible apply inv_putMeta | split
    | intro

theorem inv_checkList {P : State → Prop} {s : State} {h : TkHdr} {b : TkBody} {f : State → State} (hc : Closed 0x4402 P) (hk0 : P s) (hf_f : ∀ y0, P y0 → P (f y0)) :
    P (State.checkList s h b f) := by
  unfold State.checkList
  try dsimp only
  repeat' first
    | with_reducible assumption | exact hc.mono rfl | with_reducible apply inv_answerTk | with_reducible apply inv_setFld
    | with_reducible apply hf_f | with_reducible refine inv_ite ?_ ?_ | with_reducible refine inv_ite_fst ?_ ?_
    | with_reducible refine inv_ite_snd ?_ ?_ | split | intro

theorem inv_chooseTarget {P : State → Prop} {s : State} (hc : Closed 0x3 P) (hk0 : P s) :
    P (State.chooseTarget s) := by
  unfold State.chooseTarget
  try dsimp only
  repeat' first
    | with_reducible assumption | exact hc.mono rfl | with_reducible apply inv_draw | with_reducible apply inv_setFld
    | with_reducible refine inv_ite ?_ ?_ | with_reducible refine inv_ite_fst ?_ ?_ | with_reducible refine inv_ite_snd ?_ ?_ | split
    | intro

theorem inv_clearDown {P : State → Prop} {s : State} {p : Nat} (hc : Closed 0x400 P) (hk0 : P s) :
    P (State.clearDown s p) := by
  unfold State.clearDown
  try dsimp only
  repeat' first
    | with_reducible assumption | exact hc.mono rfl | with_reducible apply inv_setRouteBit | with_reducible refine inv_ite ?_ ?_
    | with_reducible refine inv_ite_fst ?_ ?_ | with_reducible refine inv_ite_snd ?_ ?_ | split | intro

theorem inv_runWaiting {P : State → Prop} {s : State} (hc : Closed 0xEF9F P) (hk0 : P s) :
    P (State.runWaiting s) := by
  unfold State.runWaiting
  try dsimp only
  repeat' first
    | with_reducible assumption | exact hc.mono rfl | with_reducible apply inv_runCmd | with_reducible refine inv_foldl ?_ ?_
    | with_reducible refine inv_foldl_fst ?_ ?_ | split | intro

theorem inv_settle {P : State → Prop} {s : State} (hc : Closed 0xEF9F P) (hk0 : P s) :
    P (State.settle s) := by
  unfold State.settle
  try dsimp only
  repeat' first
    | with_reducible assumption | exact hc.mono rfl | with_reducible apply inv_pokeAll | with_reducible apply inv_runWaiting
    | with_reducible apply inv_runDrains | with_reducible apply inv_owedNotify | split | intro

theorem inv_writeRingCtrl {P : State → Prop} {s : State} {n v : Nat} (hc : Closed 0xEFBF P) (hk0 : P s) :
    P (State.writeRingCtrl s n v) := by
  unfold State.writeRingCtrl
  try dsimp only
  repeat' first
    | with_reducible assumption | exact hc.mono rfl | with_reducible apply inv_detachRing | with_reducible apply inv_settle
    | with_reducible apply inv_attachRing | with_reducible refine inv_ite ?_ ?_ | with_reducible refine inv_ite_fst ?_ ?_
    | with_reducible refine inv_ite_snd ?_ ?_ | split | intro

theorem inv_writeFields {P : State → Prop} {s : State} {off v : Nat} (hc : Closed 0x2 P) (hk0 : P s) :
    P (State.writeFields s off v) := by
  unfold State.writeFields
  try dsimp only
  repeat' first
    | with_reducible assumption | exact hc.mono rfl | with_reducible apply inv_setReg | with_reducible refine inv_foldl ?_ ?_
    | with_reducible refine inv_foldl_fst ?_ ?_ | split | intro

theorem inv_event {P : State → Prop} {s : State} {typ core : Nat} {digest : List Byte} (hc : Closed 0x2 P) (hk0 : P s) :
    P (State.event s typ core digest) := by
  unfold State.event
  try dsimp only
  repeat' first
    | with_reducible assumption | exact hc.mono rfl | with_reducible apply inv_measure | with_reducible refine inv_ite ?_ ?_
    | with_reducible refine inv_ite_fst ?_ ?_ | with_reducible refine inv_ite_snd ?_ ?_ | split | intro

theorem inv_setLock {P : State → Prop} {s : State} (hc : Closed 0x2 P) (hk0 : P s) :
    P (State.setLock s) := by
  unfold State.setLock
  try dsimp only
  repeat' first
    | with_reducible assumption | exact hc.mono rfl | with_reducible apply inv_event | with_reducible apply inv_setFld
    | with_reducible refine inv_ite ?_ ?_ | with_reducible refine inv_ite_fst ?_ ?_ | with_reducible refine inv_ite_snd ?_ ?_ | split
    | intro

theorem inv_writeStop {P : State → Prop} {s : State} {v : Nat} (hc : Closed 0xEE07 P) (hk0 : P s) :
    P (State.writeStop s v) := by
  unfold State.writeStop
  try dsimp only
  repeat' first
    | with_reducible assumption | exact hc.mono rfl | with_reducible apply inv_fatal | with_reducible refine inv_ite ?_ ?_
    | with_reducible refine inv_ite_fst ?_ ?_ | with_reducible refine inv_ite_snd ?_ ?_ | split | intro

theorem inv_writeMdCfg {P : State → Prop} {s : State} {v : Nat} (hc : Closed 0x202 P) (hk0 : P s) :
    P (State.writeMdCfg s v) := by
  unfold State.writeMdCfg
  try dsimp only
  repeat' first
    | with_reducible assumption | exact hc.mono rfl | with_reducible apply inv_upCache | with_reducible apply inv_writeFields
    | with_reducible refine inv_ite ?_ ?_ | with_reducible refine inv_ite_fst ?_ ?_ | with_reducible refine inv_ite_snd ?_ ?_ | split
    | intro

theorem inv_mdEmptyWay {P : State → Prop} {s : State} {w : Nat} (hc : Closed 0x200 P) (hk0 : P s) :
    P (State.mdEmptyWay s w) := by
  unfold State.mdEmptyWay
  try dsimp only
  repeat' first
    | with_reducible assumption | exact hc.mono rfl | with_reducible apply inv_upCache | with_reducible refine inv_ite ?_ ?_
    | with_reducible refine inv_ite_fst ?_ ?_ | with_reducible refine inv_ite_snd ?_ ?_ | split | intro

theorem inv_writeMdDisable {P : State → Prop} {s : State} {v : Nat} (hc : Closed 0x202 P) (hk0 : P s) :
    P (State.writeMdDisable s v) := by
  unfold State.writeMdDisable
  try dsimp only
  repeat' first
    | with_reducible assumption | exact hc.mono rfl | with_reducible apply inv_upCache | with_reducible apply inv_mdEmptyWay
    | with_reducible apply inv_writeFields | with_reducible refine inv_foldl ?_ ?_ | with_reducible refine inv_foldl_fst ?_ ?_ | split
    | intro

theorem inv_writeSize {P : State → Prop} {s : State} {off w v used : Nat} (hc : Closed 0x2 P) (hk0 : P s) :
    P (State.writeSize s off w v used) := by
  unfold State.writeSize
  try dsimp only
  repeat' first
    | with_reducible assumption | exact hc.mono rfl | with_reducible apply inv_writeFields | with_reducible refine inv_ite ?_ ?_
    | with_reducible refine inv_ite_fst ?_ ?_ | with_reducible refine inv_ite_snd ?_ ?_ | split | intro

theorem inv_writeMapout {P : State → Prop} {s : State} {v : Nat} (hc : Closed 0x2002 P) (hk0 : P s) :
    P (State.writeMapout s v) := by
  unfold State.writeMapout
  try dsimp only
  repeat' first
    | with_reducible assumption | exact hc.mono rfl | with_reducible apply inv_upFlash | with_reducible apply inv_writeFields | split
    | intro

theorem inv_writeBufCfg {P : State → Prop} {s : State} {v : Nat} (hc : Closed 0x2 P) (hk0 : P s) :
    P (State.writeBufCfg s v) := by
  unfold State.writeBufCfg
  try dsimp only
  repeat' first
    | with_reducible assumption | exact hc.mono rfl | with_reducible apply inv_writeFields | split | intro

theorem inv_storeRoute {P : State → Prop} {s : State} {b : Nat} (hc : Closed 0xEFBF P) (hk0 : P s) :
    P (State.storeRoute s b) := by
  unfold State.storeRoute
  try dsimp only
  repeat' first
    | with_reducible assumption | exact hc.mono rfl | with_reducible apply inv_upFab | with_reducible apply inv_failXchgs
    | with_reducible apply inv_settle | with_reducible apply inv_closeFlows | with_reducible apply inv_moveFlow
    | with_reducible refine inv_foldl ?_ ?_ | with_reducible refine inv_foldl_fst ?_ ?_ | with_reducible refine inv_ite ?_ ?_
    | with_reducible refine inv_ite_fst ?_ ?_ | with_reducible refine inv_ite_snd ?_ ?_ | split | intro

theorem inv_loadWords {P : State → Prop} {s : State} {reg : Nat → Nat} {n : Nat} {bs : List Byte} (hc : Closed 0x2 P) (hk0 : P s) :
    P (State.loadWords s reg n bs) := by
  unfold State.loadWords
  try dsimp only
  repeat' first
    | with_reducible assumption | exact hc.mono rfl | with_reducible apply inv_setReg | with_reducible refine inv_foldl ?_ ?_
    | with_reducible refine inv_foldl_fst ?_ ?_ | split | intro

theorem inv_writeRouteCtrl {P : State → Prop} {s : State} {v : Nat} (hc : Closed 0xEFBF P) (hk0 : P s) :
    P (State.writeRouteCtrl s v) := by
  unfold State.writeRouteCtrl
  try dsimp only
  repeat' first
    | with_reducible assumption | exact hc.mono rfl | with_reducible apply inv_loadWords | with_reducible apply inv_storeRoute
    | with_reducible apply inv_writeFields | with_reducible refine inv_ite ?_ ?_ | with_reducible refine inv_ite_fst ?_ ?_
    | with_reducible refine inv_ite_snd ?_ ?_ | split | intro

theorem inv_storeCtx {P : State → Prop} {s : State} {c : Nat} (hc : Closed 0x802 P) (hk0 : P s) :
    P (State.storeCtx s c) := by
  unfold State.storeCtx
  try dsimp only
  repeat' first
    | with_reducible assumption | exact hc.mono rfl | with_reducible apply inv_upTu | with_reducible apply inv_addShoot
    | with_reducible apply inv_setFld | with_reducible refine inv_ite ?_ ?_ | with_reducible refine inv_ite_fst ?_ ?_
    | with_reducible refine inv_ite_snd ?_ ?_ | split | intro

theorem inv_writeCtxCtrl {P : State → Prop} {s : State} {v : Nat} (hc : Closed 0x802 P) (hk0 : P s) :
    P (State.writeCtxCtrl s v) := by
  unfold State.writeCtxCtrl
  try dsimp only
  repeat' first
    | with_reducible assumption | exact hc.mono rfl | with_reducible apply inv_storeCtx | with_reducible apply inv_loadWords
    | with_reducible apply inv_writeFields | with_reducible refine inv_ite ?_ ?_ | with_reducible refine inv_ite_fst ?_ ?_
    | with_reducible refine inv_ite_snd ?_ ?_ | split | intro

theorem inv_writeWinCtrl {P : State → Prop} {s : State} {v : Nat} (hc : Closed 0x802 P) (hk0 : P s) :
    P (State.writeWinCtrl s v) := by
  unfold State.writeWinCtrl
  try dsimp only
  repeat' first
    | with_reducible assumption | exact hc.mono rfl | with_reducible apply inv_upTu | with_reducible apply inv_loadWords
    | with_reducible apply inv_writeFields | with_reducible refine inv_ite ?_ ?_ | with_reducible refine inv_ite_fst ?_ ?_
    | with_reducible refine inv_ite_snd ?_ ?_ | split | intro

theorem inv_pullPage {P : State → Prop} {s : State} {ctx vpn : Nat} (hc : Closed 0x802 P) (hk0 : P s) :
    P (State.pullPage s ctx vpn) := by
  unfold State.pullPage
  try dsimp only
  repeat' first
    | with_reducible assumption | exact hc.mono rfl | with_reducible apply inv_upTu | with_reducible apply inv_setFld
    | with_reducible refine inv_ite ?_ ?_ | with_reducible refine inv_ite_fst ?_ ?_ | with_reducible refine inv_ite_snd ?_ ?_ | split
    | intro

theorem inv_releasePage {P : State → Prop} {s : State} {ctx vpn : Nat} (hc : Closed 0xA06 P) (hk0 : P s) :
    P (State.releasePage s ctx vpn) := by
  unfold State.releasePage
  try dsimp only
  repeat' first
    | with_reducible assumption | exact hc.mono rfl | with_reducible apply inv_upTu | with_reducible apply inv_casPte
    | with_reducible apply inv_hostWrite | with_reducible apply inv_setFld | with_reducible refine inv_ite ?_ ?_
    | with_reducible refine inv_ite_fst ?_ ?_ | with_reducible refine inv_ite_snd ?_ ?_ | split | intro

theorem inv_writeMigCtrl {P : State → Prop} {s : State} {v : Nat} (hc : Closed 0xA06 P) (hk0 : P s) :
    P (State.writeMigCtrl s v) := by
  unfold State.writeMigCtrl
  try dsimp only
  repeat' first
    | with_reducible assumption | exact hc.mono rfl | with_reducible apply inv_releasePage | with_reducible apply inv_pullPage
    | with_reducible apply inv_writeFields | with_reducible refine inv_ite ?_ ?_ | with_reducible refine inv_ite_fst ?_ ?_
    | with_reducible refine inv_ite_snd ?_ ?_ | split | intro

theorem inv_writeInvCtrl {P : State → Prop} {s : State} {v : Nat} (hc : Closed 0x802 P) (hk0 : P s) :
    P (State.writeInvCtrl s v) := by
  unfold State.writeInvCtrl
  try dsimp only
  repeat' first
    | with_reducible assumption | exact hc.mono rfl | with_reducible apply inv_writeFields | with_reducible apply inv_addShoot
    | with_reducible apply inv_setFld | with_reducible refine inv_ite ?_ ?_ | with_reducible refine inv_ite_fst ?_ ?_
    | with_reducible refine inv_ite_snd ?_ ?_ | split | intro

theorem inv_writeFailCtrl {P : State → Prop} {s : State} {v : Nat} (hc : Closed 0xEFBF P) (hk0 : P s) :
    P (State.writeFailCtrl s v) := by
  unfold State.writeFailCtrl
  try dsimp only
  repeat' first
    | with_reducible assumption | exact hc.mono rfl | with_reducible apply inv_failCtrl | with_reducible apply inv_writeFields
    | with_reducible apply inv_settle | with_reducible refine inv_ite ?_ ?_ | with_reducible refine inv_ite_fst ?_ ?_
    | with_reducible refine inv_ite_snd ?_ ?_ | split | intro

theorem inv_setStage {P : State → Prop} {s : State} {n : Nat} (hc : Closed 0x2 P) (hk0 : P s) :
    P (State.setStage s n) := by
  unfold State.setStage
  try dsimp only
  repeat' first
    | with_reducible assumption | exact hc.mono rfl | with_reducible apply inv_setFld | split | intro

theorem inv_flashErase {P : State → Prop} {s : State} {a n : Nat} (hc : Closed 0x2000 P) (hk0 : P s) :
    P (State.flashErase s a n) := by
  unfold State.flashErase
  try dsimp only
  repeat' first
    | with_reducible assumption | exact hc.mono rfl | with_reducible apply inv_upFlash | split | intro

theorem inv_mbDlBegin {P : State → Prop} {s : State} {_len : Nat} (hc : Closed 0x6002 P) (hk0 : P s) :
    P (State.mbDlBegin s _len).1 := by
  unfold State.mbDlBegin
  try dsimp only
  repeat' first
    | with_reducible assumption | exact hc.mono rfl | with_reducible apply inv_upSec | with_reducible apply inv_flashErase
    | with_reducible apply inv_setStage | with_reducible refine inv_ite ?_ ?_ | with_reducible refine inv_ite_fst ?_ ?_
    | with_reducible refine inv_ite_snd ?_ ?_ | split | intro

theorem inv_flashWrite {P : State → Prop} {s : State} {a : Nat} {bs : List Byte} (hc : Closed 0x2000 P) (hk0 : P s) :
    P (State.flashWrite s a bs) := by
  unfold State.flashWrite
  try dsimp only
  repeat' first
    | with_reducible assumption | exact hc.mono rfl | with_reducible apply inv_upFlash | with_reducible refine inv_foldl ?_ ?_
    | with_reducible refine inv_foldl_fst ?_ ?_ | split | intro

theorem inv_mbDlChunk {P : State → Prop} {s : State} {len : Nat} (hc : Closed 0x6000 P) (hk0 : P s) :
    P (State.mbDlChunk s len).1 := by
  unfold State.mbDlChunk
  try dsimp only
  repeat' first
    | with_reducible assumption | exact hc.mono rfl | with_reducible apply inv_upSec | with_reducible apply inv_flashWrite
    | with_reducible refine inv_ite ?_ ?_ | with_reducible refine inv_ite_fst ?_ ?_ | with_reducible refine inv_ite_snd ?_ ?_ | split
    | intro

theorem inv_mbVerify {P : State → Prop} {s : State} {_len : Nat} (hc : Closed 0x2 P) (hk0 : P s) :
    P (State.mbVerify s _len).1 := by
  unfold State.mbVerify
  try dsimp only
  repeat' first
    | with_reducible assumption | exact hc.mono rfl | with_reducible apply inv_setStage | with_reducible refine inv_ite ?_ ?_
    | with_reducible refine inv_ite_fst ?_ ?_ | with_reducible refine inv_ite_snd ?_ ?_ | split | intro

theorem inv_writeBootRec {P : State → Prop} {s : State} {r : BootRec} (hc : Closed 0x2000 P) (hk0 : P s) :
    P (State.writeBootRec s r) := by
  unfold State.writeBootRec
  try dsimp only
  repeat' first
    | with_reducible assumption | exact hc.mono rfl | with_reducible apply inv_flashWrite | with_reducible apply inv_flashErase | split
    | intro

theorem inv_mbActivate {P : State → Prop} {s : State} {_len : Nat} (hc : Closed 0x2002 P) (hk0 : P s) :
    P (State.mbActivate s _len).1 := by
  unfold State.mbActivate
  try dsimp only
  repeat' first
    | with_reducible assumption | exact hc.mono rfl | with_reducible apply inv_writeBootRec | with_reducible apply inv_setStage
    | with_reducible refine inv_ite ?_ ?_ | with_reducible refine inv_ite_fst ?_ ?_ | with_reducible refine inv_ite_snd ?_ ?_ | split
    | intro

theorem inv_mbConfirm {P : State → Prop} {s : State} {_len : Nat} (hc : Closed 0x4000 P) (hk0 : P s) :
    P (State.mbConfirm s _len).1 := by
  unfold State.mbConfirm
  try dsimp only
  repeat' first
    | with_reducible assumption | exact hc.mono rfl | with_reducible apply inv_upSec | with_reducible refine inv_ite ?_ ?_
    | with_reducible refine inv_ite_fst ?_ ?_ | with_reducible refine inv_ite_snd ?_ ?_ | split | intro

theorem inv_setMbox {P : State → Prop} {s : State} {bs : List Byte} (hc : Closed 0x2 P) (hk0 : P s) :
    P (State.setMbox s bs) := by
  unfold State.setMbox
  try dsimp only
  repeat' first
    | with_reducible assumption | exact hc.mono rfl | with_reducible apply inv_setReg | with_reducible refine inv_foldl ?_ ?_
    | with_reducible refine inv_foldl_fst ?_ ?_ | split | intro

theorem inv_mbCertRead {P : State → Prop} {s : State} {_len : Nat} (hc : Closed 0x2 P) (hk0 : P s) :
    P (State.mbCertRead s _len).1 := by
  unfold State.mbCertRead
  try dsimp only
  repeat' first
    | with_reducible assumption | exact hc.mono rfl | with_reducible apply inv_setMbox | split | intro

theorem inv_mbKekSet {P : State → Prop} {s : State} {len : Nat} (hc : Closed 0x4002 P) (hk0 : P s) :
    P (State.mbKekSet s len).1 := by
  unfold State.mbKekSet
  try dsimp only
  repeat' first
    | with_reducible assumption | exact hc.mono rfl | with_reducible apply inv_upSec | with_reducible apply inv_event
    | with_reducible apply inv_setFld | with_reducible refine inv_ite ?_ ?_ | with_reducible refine inv_ite_fst ?_ ?_
    | with_reducible refine inv_ite_snd ?_ ?_ | split | intro

theorem inv_installSa {P : State → Prop} {s : State} {key rest : List Byte} (hc : Closed 0x4402 P) (hk0 : P s) :
    P (State.installSa s key rest) := by
  unfold State.installSa
  try dsimp only
  repeat' first
    | with_reducible assumption | exact hc.mono rfl | with_reducible apply inv_upSec | with_reducible apply inv_portEnters
    | with_reducible refine inv_ite ?_ ?_ | with_reducible refine inv_ite_fst ?_ ?_ | with_reducible refine inv_ite_snd ?_ ?_ | split
    | intro

theorem inv_mbSakInstall {P : State → Prop} {s : State} {len : Nat} (hc : Closed 0x4402 P) (hk0 : P s) :
    P (State.mbSakInstall s len).1 := by
  unfold State.mbSakInstall
  try dsimp only
  repeat' first
    | with_reducible assumption | exact hc.mono rfl | with_reducible apply inv_installSa | with_reducible refine inv_ite ?_ ?_
    | with_reducible refine inv_ite_fst ?_ ?_ | with_reducible refine inv_ite_snd ?_ ?_ | split | intro

theorem inv_mbSakPlain {P : State → Prop} {s : State} {len : Nat} (hc : Closed 0x4402 P) (hk0 : P s) :
    P (State.mbSakPlain s len).1 := by
  unfold State.mbSakPlain
  try dsimp only
  repeat' first
    | with_reducible assumption | exact hc.mono rfl | with_reducible apply inv_installSa | with_reducible refine inv_ite ?_ ?_
    | with_reducible refine inv_ite_fst ?_ ?_ | with_reducible refine inv_ite_snd ?_ ?_ | split | intro

theorem inv_mbSakRetire {P : State → Prop} {s : State} {_len : Nat} (hc : Closed 0x4000 P) (hk0 : P s) :
    P (State.mbSakRetire s _len).1 := by
  unfold State.mbSakRetire
  try dsimp only
  repeat' first
    | with_reducible assumption | exact hc.mono rfl | with_reducible apply inv_upSec | split | intro

theorem inv_macsecPortsLeave {P : State → Prop} {s : State} (hc : Closed 0xEE06 P) (hk0 : P s) :
    P (State.macsecPortsLeave s) := by
  unfold State.macsecPortsLeave
  try dsimp only
  repeat' first
    | with_reducible assumption | exact hc.mono rfl | with_reducible apply inv_portLeaves | with_reducible refine inv_foldl ?_ ?_
    | with_reducible refine inv_foldl_fst ?_ ?_ | with_reducible refine inv_ite ?_ ?_ | with_reducible refine inv_ite_fst ?_ ?_
    | with_reducible refine inv_ite_snd ?_ ?_ | split | intro

theorem inv_mbZeroize {P : State → Prop} {s : State} {_len : Nat} (hc : Closed 0xEE06 P) (hk0 : P s) :
    P (State.mbZeroize s _len).1 := by
  unfold State.mbZeroize
  try dsimp only
  repeat' first
    | with_reducible assumption | exact hc.mono rfl | with_reducible apply inv_upSec | with_reducible apply inv_macsecPortsLeave
    | with_reducible apply inv_event | with_reducible apply inv_setFld | split | intro

theorem inv_mbDebugUnlock {P : State → Prop} {s : State} {len : Nat} (hc : Closed 0x2 P) (hk0 : P s) :
    P (State.mbDebugUnlock s len).1 := by
  unfold State.mbDebugUnlock
  try dsimp only
  repeat' first
    | with_reducible assumption | exact hc.mono rfl | with_reducible apply inv_event | with_reducible apply inv_setFld
    | with_reducible refine inv_ite ?_ ?_ | with_reducible refine inv_ite_fst ?_ ?_ | with_reducible refine inv_ite_snd ?_ ?_ | split
    | intro

theorem inv_mailboxOp {P : State → Prop} {s : State} {op len : Nat} (hc : Closed 0xEE06 P) (hk0 : P s) :
    P (State.mailboxOp s op len).1 := by
  unfold State.mailboxOp
  try dsimp only
  repeat' first
    | with_reducible assumption | exact hc.mono rfl | with_reducible apply inv_mbDebugUnlock | with_reducible apply inv_mbZeroize
    | with_reducible apply inv_mbSakRetire | with_reducible apply inv_mbSakPlain | with_reducible apply inv_mbSakInstall
    | with_reducible apply inv_mbKekSet | with_reducible apply inv_mbCertRead | with_reducible apply inv_mbConfirm
    | with_reducible apply inv_mbActivate | with_reducible apply inv_mbVerify | with_reducible apply inv_mbDlChunk
    | with_reducible apply inv_mbDlBegin | split | intro

theorem inv_mailboxGo {P : State → Prop} {s : State} {op len : Nat} (hc : Closed 0xEE06 P) (hk0 : P s) :
    P (State.mailboxGo s op len) := by
  unfold State.mailboxGo
  try dsimp only
  repeat' first
    | with_reducible assumption | exact hc.mono rfl | with_reducible apply inv_mailboxOp | with_reducible apply inv_bump
    | with_reducible apply inv_setFld | with_reducible refine inv_ite ?_ ?_ | with_reducible refine inv_ite_fst ?_ ?_
    | with_reducible refine inv_ite_snd ?_ ?_ | split | intro

theorem inv_writeMbox {P : State → Prop} {s : State} {v : Nat} (hc : Closed 0xEE06 P) (hk0 : P s) :
    P (State.writeMbox s v) := by
  unfold State.writeMbox
  try dsimp only
  repeat' first
    | with_reducible assumption | exact hc.mono rfl | with_reducible apply inv_mailboxGo | with_reducible apply inv_writeFields
    | with_reducible refine inv_ite ?_ ?_ | with_reducible refine inv_ite_fst ?_ ?_ | with_reducible refine inv_ite_snd ?_ ?_ | split
    | intro

theorem inv_writeFaultCtrl {P : State → Prop} {s : State} {v : Nat} (hc : Closed 0x3 P) (hk0 : P s) :
    P (State.writeFaultCtrl s v) := by
  unfold State.writeFaultCtrl
  try dsimp only
  repeat' first
    | with_reducible assumption | exact hc.mono rfl | with_reducible apply inv_setReg | with_reducible apply inv_writeFields
    | with_reducible apply inv_freeBytes | with_reducible refine inv_foldl ?_ ?_ | with_reducible refine inv_foldl_fst ?_ ?_
    | with_reducible refine inv_ite ?_ ?_ | with_reducible refine inv_ite_fst ?_ ?_ | with_reducible refine inv_ite_snd ?_ ?_ | split
    | intro

theorem inv_startTest {P : State → Prop} {s : State} {h : Nat} (hc : Closed 0x2 P) (hk0 : P s) :
    P (State.startTest s h) := by
  unfold State.startTest
  try dsimp only
  repeat' first
    | with_reducible assumption | exact hc.mono rfl | with_reducible apply inv_setFld | with_reducible refine inv_ite ?_ ?_
    | with_reducible refine inv_ite_fst ?_ ?_ | with_reducible refine inv_ite_snd ?_ ?_ | split | intro

theorem inv_writeHolm {P : State → Prop} {s : State} {v h : Nat} (hc : Closed 0x8002 P) (hk0 : P s) :
    P (State.writeHolm s v h) := by
  unfold State.writeHolm
  try dsimp only
  repeat' first
    | with_reducible assumption | exact hc.mono rfl | with_reducible apply inv_upSpine | with_reducible apply inv_startTest
    | with_reducible apply inv_setFld | with_reducible refine inv_ite ?_ ?_ | with_reducible refine inv_ite_fst ?_ ?_
    | with_reducible refine inv_ite_snd ?_ ?_ | split | intro

theorem inv_writeHolmCtrl {P : State → Prop} {s : State} {v : Nat} (hc : Closed 0x8002 P) (hk0 : P s) :
    P (State.writeHolmCtrl s v) := by
  unfold State.writeHolmCtrl
  try dsimp only
  repeat' first
    | with_reducible assumption | exact hc.mono rfl | with_reducible apply inv_writeHolm | with_reducible apply inv_setFld
    | with_reducible refine inv_foldl ?_ ?_ | with_reducible refine inv_foldl_fst ?_ ?_ | with_reducible refine inv_ite ?_ ?_
    | with_reducible refine inv_ite_fst ?_ ?_ | with_reducible refine inv_ite_snd ?_ ?_ | split | intro

theorem inv_writeLbCtrl {P : State → Prop} {s : State} {v : Nat} (hc : Closed 0x8002 P) (hk0 : P s) :
    P (State.writeLbCtrl s v) := by
  unfold State.writeLbCtrl
  try dsimp only
  repeat' first
    | with_reducible assumption | exact hc.mono rfl | with_reducible apply inv_upSpine | with_reducible apply inv_writeFields
    | with_reducible apply inv_setFld | with_reducible refine inv_ite ?_ ?_ | with_reducible refine inv_ite_fst ?_ ?_
    | with_reducible refine inv_ite_snd ?_ ?_ | split | intro

theorem inv_holmGoesOffline {P : State → Prop} {s : State} {h : Nat} (hc : Closed 0x2 P) (hk0 : P s) :
    P (State.holmGoesOffline s h) := by
  unfold State.holmGoesOffline
  try dsimp only
  repeat' first
    | with_reducible assumption | exact hc.mono rfl | with_reducible apply inv_setFld | split | intro

theorem inv_failCore {P : State → Prop} {s : State} {c : Nat} (hc : Closed 0xEE07 P) (hk0 : P s) :
    P (State.failCore s c) := by
  unfold State.failCore
  try dsimp only
  repeat' first
    | with_reducible assumption | exact hc.mono rfl | with_reducible apply inv_holmGoesOffline | with_reducible apply inv_fatal
    | with_reducible apply inv_fault | with_reducible apply inv_setFld | with_reducible refine inv_ite ?_ ?_
    | with_reducible refine inv_ite_fst ?_ ?_ | with_reducible refine inv_ite_snd ?_ ?_ | split | intro

theorem inv_restartCore {P : State → Prop} {s : State} {c t : Nat} (hc : Closed 0xEE07 P) (hk0 : P s) :
    P (State.restartCore s c t) := by
  unfold State.restartCore
  try dsimp only
  repeat' first
    | with_reducible assumption | exact hc.mono rfl | with_reducible apply inv_upSec | with_reducible apply inv_failCore
    | with_reducible apply inv_setFld | with_reducible refine inv_ite ?_ ?_ | with_reducible refine inv_ite_fst ?_ ?_
    | with_reducible refine inv_ite_snd ?_ ?_ | split | intro

theorem inv_writeCore {P : State → Prop} {s : State} {c v t : Nat} (hc : Closed 0xEE07 P) (hk0 : P s) :
    P (State.writeCore s c v t) := by
  unfold State.writeCore
  try dsimp only
  repeat' first
    | with_reducible assumption | exact hc.mono rfl | with_reducible apply inv_restartCore | with_reducible apply inv_writeFields
    | with_reducible refine inv_ite ?_ ?_ | with_reducible refine inv_ite_fst ?_ ?_ | with_reducible refine inv_ite_snd ?_ ?_ | split
    | intro

theorem inv_emptyWay {P : State → Prop} {s : State} {sl w : Nat} (hc : Closed 0x200 P) (hk0 : P s) :
    P (State.emptyWay s sl w) := by
  unfold State.emptyWay
  try dsimp only
  repeat' first
    | with_reducible assumption | exact hc.mono rfl | with_reducible apply inv_upCache | with_reducible apply inv_clearWays
    | with_reducible refine inv_ite ?_ ?_ | with_reducible refine inv_ite_fst ?_ ?_ | with_reducible refine inv_ite_snd ?_ ?_ | split
    | intro

theorem inv_writeWayDisable {P : State → Prop} {s : State} {sl v : Nat} (hc : Closed 0x202 P) (hk0 : P s) :
    P (State.writeWayDisable s sl v) := by
  unfold State.writeWayDisable
  try dsimp only
  repeat' first
    | with_reducible assumption | exact hc.mono rfl | with_reducible apply inv_upSlice | with_reducible apply inv_emptyWay
    | with_reducible apply inv_setFld | with_reducible refine inv_foldl ?_ ?_ | with_reducible refine inv_foldl_fst ?_ ?_ | split | intro

theorem inv_writePortCfg {P : State → Prop} {s : State} {k v : Nat} (hc : Closed 0xEE06 P) (hk0 : P s) :
    P (State.writePortCfg s k v) := by
  unfold State.writePortCfg
  try dsimp only
  repeat' first
    | with_reducible assumption | exact hc.mono rfl | with_reducible apply inv_writeFields | with_reducible apply inv_portLeaves
    | with_reducible refine inv_ite ?_ ?_ | with_reducible refine inv_ite_fst ?_ ?_ | with_reducible refine inv_ite_snd ?_ ?_ | split
    | intro

theorem inv_writeMtReg {P : State → Prop} {s : State} {t p v : Nat} (hc : Closed 0x2 P) (hk0 : P s) :
    P (State.writeMtReg s t p v) := by
  unfold State.writeMtReg
  try dsimp only
  repeat' first
    | with_reducible assumption | exact hc.mono rfl | with_reducible apply inv_writeFields | with_reducible apply inv_setFld
    | with_reducible refine inv_ite ?_ ?_ | with_reducible refine inv_ite_fst ?_ ?_ | with_reducible refine inv_ite_snd ?_ ?_ | split
    | intro

theorem inv_writeIndexed {P : State → Prop} {s : State} {off v t : Nat} (hc : Closed 0xEE07 P) (hk0 : P s) :
    P (State.writeIndexed s off v t) := by
  unfold State.writeIndexed
  try dsimp only
  repeat' first
    | with_reducible assumption | exact hc.mono rfl | with_reducible apply inv_writeMtReg | with_reducible apply inv_writePortCfg
    | with_reducible apply inv_writeWayDisable | with_reducible apply inv_writeCore | with_reducible apply inv_writeFields
    | with_reducible refine inv_ite ?_ ?_ | with_reducible refine inv_ite_fst ?_ ?_ | with_reducible refine inv_ite_snd ?_ ?_ | split
    | intro

theorem inv_writeReg {P : State → Prop} {s : State} {off v : Nat} (hc : Closed 0xEFBF P) (hk0 : P s) :
    P (State.writeReg s off v) := by
  unfold State.writeReg
  try dsimp only
  repeat' first
    | with_reducible assumption | exact hc.mono rfl | with_reducible apply inv_writeIndexed | with_reducible apply inv_writeLbCtrl
    | with_reducible apply inv_writeHolmCtrl | with_reducible apply inv_writeFaultCtrl | with_reducible apply inv_writeMbox
    | with_reducible apply inv_writeFailCtrl | with_reducible apply inv_writeInvCtrl | with_reducible apply inv_writeMigCtrl
    | with_reducible apply inv_writeWinCtrl | with_reducible apply inv_writeCtxCtrl | with_reducible apply inv_writeRouteCtrl
    | with_reducible apply inv_writeBufCfg | with_reducible apply inv_writeMapout | with_reducible apply inv_writeSize
    | with_reducible apply inv_writeMdDisable | with_reducible apply inv_writeMdCfg | with_reducible apply inv_writeStop
    | with_reducible apply inv_setLock | with_reducible apply inv_writeFields | with_reducible apply inv_writeRingCtrl
    | with_reducible apply inv_syncTk | with_reducible refine inv_ite ?_ ?_ | with_reducible refine inv_ite_fst ?_ ?_
    | with_reducible refine inv_ite_snd ?_ ?_ | split | intro

theorem inv_tryValid {P : State → Prop} {s : State} (hc : Closed 0x3 P) (hk0 : P s) :
    P (State.tryValid s) := by
  unfold State.tryValid
  try dsimp only
  repeat' first
    | with_reducible assumption | exact hc.mono rfl | with_reducible apply inv_upCtl | with_reducible apply inv_setFld
    | with_reducible refine inv_ite ?_ ?_ | with_reducible refine inv_ite_fst ?_ ?_ | with_reducible refine inv_ite_snd ?_ ?_
    | exact fun _ => Nat.le_refl _ | exact fun _ => Nat.le_max_left _ _ | exact fun _ => Or.inl rfl | exact fun _ => Or.inr rfl | split
    | intro

theorem inv_configure {P : State → Prop} {s : State} {c : BootConfig} (hc : Closed 0xEFBF P) (hk0 : P s) :
    P (State.configure s c) := by
  unfold State.configure
  try dsimp only
  repeat' first
    | with_reducible assumption | exact hc.mono rfl | with_reducible apply inv_upFab | with_reducible apply inv_upCtl
    | with_reducible apply inv_tryValid | with_reducible apply inv_writeReg | with_reducible apply inv_setLock
    | with_reducible apply inv_measure | with_reducible apply inv_syncTk | with_reducible apply inv_setFld
    | with_reducible refine inv_foldl ?_ ?_ | with_reducible refine inv_foldl_fst ?_ ?_ | with_reducible refine inv_ite ?_ ?_
    | with_reducible refine inv_ite_fst ?_ ?_ | with_reducible refine inv_ite_snd ?_ ?_ | exact fun _ => Nat.le_refl _
    | exact fun _ => Nat.le_max_left _ _ | exact fun _ => Or.inl rfl | exact fun _ => Or.inr rfl | split | intro

theorem inv_confirmTrial {P : State → Prop} {s : State} {m1f1 fuseRail : Bool} (hc : Closed 0x3002 P) (hk0 : P s) :
    P (State.confirmTrial s m1f1 fuseRail) := by
  unfold State.confirmTrial
  try dsimp only
  repeat' first
    | with_reducible assumption | exact hc.mono rfl | with_reducible apply inv_writeBootRec | with_reducible apply inv_blowFuses
    | with_reducible apply inv_setFld | with_reducible refine inv_ite ?_ ?_ | with_reducible refine inv_ite_fst ?_ ?_
    | with_reducible refine inv_ite_snd ?_ ?_ | split | intro

theorem inv_corrected {P : State → Prop} {s : State} {tier off : Nat} (hc : Closed 0x8002 P) (hk0 : P s) :
    P (State.corrected s tier off) := by
  unfold State.corrected
  try dsimp only
  repeat' first
    | with_reducible assumption | exact hc.mono rfl | with_reducible apply inv_upSpine | with_reducible apply inv_askRepair
    | with_reducible apply inv_bump | with_reducible refine inv_ite ?_ ?_ | with_reducible refine inv_ite_fst ?_ ?_
    | with_reducible refine inv_ite_snd ?_ ?_ | split | intro

theorem inv_credit {P : State → Prop} {s : State} {p l cost : Nat} {ended : Bool} (hc : Closed 0x400 P) (hk0 : P s) :
    P (State.credit s p l cost ended) := by
  unfold State.credit
  try dsimp only
  repeat' first
    | with_reducible assumption | exact hc.mono rfl | with_reducible apply inv_upFlow | with_reducible refine inv_ite ?_ ?_
    | with_reducible refine inv_ite_fst ?_ ?_ | with_reducible refine inv_ite_snd ?_ ?_ | split | intro

theorem inv_cutWaits {P : State → Prop} {t0 : State} {s : State} {c : Cmd} (hc : Closed 0xF87 P) (hk0 : P s) (e0 : State.cutWaits s c = some t0) :
    P t0 := by
  revert e0
  unfold State.cutWaits
  try dsimp only
  repeat' first
    | with_reducible assumption | exact hc.mono rfl | with_reducible apply inv_freeDest | with_reducible apply inv_endAt
    | with_reducible refine inv_foldl ?_ ?_ | with_reducible refine inv_foldl_fst ?_ ?_ | with_reducible refine inv_ite ?_ ?_
    | with_reducible refine inv_ite_fst ?_ ?_ | with_reducible refine inv_ite_snd ?_ ?_ | (intro e0; cases e0; done)
    | (intro e0; cases e0; skip) | (intro e0; obtain ⟨_, _, rfl⟩ := Option.map_eq_some_iff.mp e0; skip) | split | intro

theorem inv_cutEcho {P : State → Prop} {s : State} {c : Cmd} {d : Desc} (hc : Closed 0xCF87 P) (hk0 : P s) :
    P (State.cutEcho s c d) := by
  unfold State.cutEcho
  try dsimp only
  repeat' first
    | with_reducible assumption | exact hc.mono rfl | with_reducible apply inv_upFab | with_reducible apply inv_endLoopback
    | with_reducible refine inv_ite ?_ ?_ | with_reducible refine inv_ite_fst ?_ ?_ | with_reducible refine inv_ite_snd ?_ ?_ | split
    | intro

theorem inv_cutCmd {P : State → Prop} {s : State} {c : Cmd} (hc : Closed 0xEF9F P) (hk0 : P s) :
    P (State.cutCmd s c) := by
  unfold State.cutCmd
  try dsimp only
  repeat' first
    | with_reducible assumption | exact hc.mono rfl | with_reducible apply inv_cutTable | with_reducible apply inv_cutEcho
    | with_reducible apply inv_cutGroups | with_reducible apply inv_cutRowsWrite | with_reducible apply inv_cutCommit
    | with_reducible apply inv_cutScatter | with_reducible apply inv_cutGather | with_reducible apply inv_runCmd
    | with_reducible apply inv_endAt | with_reducible apply inv_release | with_reducible refine inv_foldl ?_ ?_
    | with_reducible refine inv_foldl_fst ?_ ?_ | with_reducible refine inv_ite ?_ ?_ | with_reducible refine inv_ite_fst ?_ ?_
    | with_reducible refine inv_ite_snd ?_ ?_ | with_reducible refine inv_cutWaits ?_ ?_ (by with_reducible assumption) | split | intro

theorem inv_decay {P : State → Prop} {s : State} (hc : Closed 0x200 P) (hk0 : P s) :
    P (State.decay s) := by
  unfold State.decay
  try dsimp only
  repeat' first
    | with_reducible assumption | exact hc.mono rfl | with_reducible apply inv_upCache | with_reducible refine inv_ite ?_ ?_
    | with_reducible refine inv_ite_fst ?_ ?_ | with_reducible refine inv_ite_snd ?_ ?_ | split | intro

theorem inv_deliverMsg {P : State → Prop} {s : State} {p l : Nat} {bs : List Byte} (hc : Closed 0x402 P) (hk0 : P s) :
    P (State.deliverMsg s p l bs) := by
  unfold State.deliverMsg
  try dsimp only
  repeat' first
    | with_reducible assumption | exact hc.mono rfl | with_reducible apply inv_upFab | with_reducible apply inv_bump
    | with_reducible refine inv_ite ?_ ?_ | with_reducible refine inv_ite_fst ?_ ?_ | with_reducible refine inv_ite_snd ?_ ?_ | split
    | intro

theorem inv_tierSFails {P : State → Prop} {s : State} {die channel : Nat} (hc : Closed 0xEE07 P) (hk0 : P s) :
    P (State.tierSFails s die channel) := by
  unfold State.tierSFails
  try dsimp only
  repeat' first
    | with_reducible assumption | exact hc.mono rfl | with_reducible apply inv_fatal | with_reducible apply inv_setFld | split | intro

theorem inv_moveThrottle {P : State → Prop} {s : State} (hc : Closed 0x1 P) (hk0 : P s) :
    P (State.moveThrottle s) := by
  unfold State.moveThrottle
  try dsimp only
  repeat' first
    | with_reducible assumption | exact hc.mono rfl | with_reducible apply inv_upCtl | with_reducible refine inv_ite ?_ ?_
    | with_reducible refine inv_ite_fst ?_ ?_ | with_reducible refine inv_ite_snd ?_ ?_ | exact fun _ => Nat.le_refl _
    | exact fun _ => Nat.le_max_left _ _ | exact fun _ => Or.inl rfl | exact fun _ => Or.inr rfl | split | intro

theorem inv_syncRefreshC {P : State → Prop} {s : State} (hc : Closed 0x2 P) (hk0 : P s) :
    P (State.syncRefreshC s) := by
  unfold State.syncRefreshC
  try dsimp only
  repeat' first
    | with_reducible assumption | exact hc.mono rfl | with_reducible apply inv_setFld | split | intro

theorem inv_losePool {P : State → Prop} {s : State} (hc : Closed 0x102 P) (hk0 : P s) :
    P (State.losePool s) := by
  unfold State.losePool
  try dsimp only
  repeat' first
    | with_reducible assumption | exact hc.mono rfl | with_reducible apply inv_upTab | with_reducible apply inv_bump
    | with_reducible apply inv_syncPool | split | intro

theorem inv_tierFails {P : State → Prop} {s : State} {tier channel : Nat} (hc : Closed 0xEF9F P) (hk0 : P s) :
    P (State.tierFails s tier channel) := by
  unfold State.tierFails
  try dsimp only
  repeat' first
    | with_reducible assumption | exact hc.mono rfl | with_reducible apply inv_upFlash | with_reducible apply inv_upSpine
    | with_reducible apply inv_reportTier | with_reducible apply inv_losePool | with_reducible apply inv_settle
    | with_reducible apply inv_fault | with_reducible apply inv_syncRepairs | with_reducible apply inv_setFld
    | with_reducible refine inv_ite ?_ ?_ | with_reducible refine inv_ite_fst ?_ ?_ | with_reducible refine inv_ite_snd ?_ ?_ | split
    | intro

theorem inv_deviceTemp {P : State → Prop} {s : State} {tier device temp : Nat} {mult oor : Bool} (hc : Closed 0xEF9F P) (hk0 : P s) :
    P (State.deviceTemp s tier device temp mult oor) := by
  unfold State.deviceTemp
  try dsimp only
  repeat' first
    | with_reducible assumption | exact hc.mono rfl | with_reducible apply inv_upSpine | with_reducible apply inv_tierFails
    | with_reducible apply inv_syncRefreshC | with_reducible apply inv_moveThrottle | with_reducible apply inv_tierSFails
    | with_reducible apply inv_setFld | with_reducible refine inv_ite ?_ ?_ | with_reducible refine inv_ite_fst ?_ ?_
    | with_reducible refine inv_ite_snd ?_ ?_ | split | intro

theorem inv_rehash {P : State → Prop} {s : State} (hc : Closed 0x202 P) (hk0 : P s) :
    P (State.rehash s) := by
  unfold State.rehash
  try dsimp only
  repeat' first
    | with_reducible assumption | exact hc.mono rfl | with_reducible apply inv_upCache | with_reducible apply inv_rcRequest
    | with_reducible refine inv_foldl ?_ ?_ | with_reducible refine inv_foldl_fst ?_ ?_ | with_reducible refine inv_ite ?_ ?_
    | with_reducible refine inv_ite_fst ?_ ?_ | with_reducible refine inv_ite_snd ?_ ?_ | split | intro

theorem inv_emptySlice {P : State → Prop} {s : State} {h : Nat} (hc : Closed 0x202 P) (hk0 : P s) :
    P (State.emptySlice s h) := by
  unfold State.emptySlice
  try dsimp only
  repeat' first
    | with_reducible assumption | exact hc.mono rfl | with_reducible apply inv_upCache | with_reducible apply inv_rehash
    | with_reducible apply inv_clearWays | split | intro

theorem inv_holmLeaves {P : State → Prop} {s : State} {h : Nat} (hc : Closed 0x202 P) (hk0 : P s) :
    P (State.holmLeaves s h) := by
  unfold State.holmLeaves
  try dsimp only
  repeat' first
    | with_reducible assumption | exact hc.mono rfl | with_reducible apply inv_emptySlice | with_reducible apply inv_setFld | split | intro

theorem inv_drainHolm {P : State → Prop} {s : State} {h : Nat} (hc : Closed 0x202 P) (hk0 : P s) :
    P (State.drainHolm s h) := by
  unfold State.drainHolm
  try dsimp only
  repeat' first
    | with_reducible assumption | exact hc.mono rfl | with_reducible apply inv_holmLeaves | with_reducible apply inv_startTest
    | with_reducible refine inv_ite ?_ ?_ | with_reducible refine inv_ite_fst ?_ ?_ | with_reducible refine inv_ite_snd ?_ ?_ | split
    | intro

theorem inv_dropPartials {P : State → Prop} {s : State} {p l : Nat} (hc : Closed 0x402 P) (hk0 : P s) :
    P (State.dropPartials s p l) := by
  unfold State.dropPartials
  try dsimp only
  repeat' first
    | with_reducible assumption | exact hc.mono rfl | with_reducible apply inv_upFlow | with_reducible apply inv_bump | split | intro

theorem inv_dropReply {P : State → Prop} {s : State} {src xid : Nat} (hc : Closed 0x400 P) (hk0 : P s) :
    P (State.dropReply s src xid) := by
  unfold State.dropReply
  try dsimp only
  repeat' first
    | with_reducible assumption | exact hc.mono rfl | with_reducible apply inv_upFab | split | intro

theorem inv_echoBack {P : State → Prop} {s : State} {x : Xchg} {off : Nat} {body : List Byte} (hc : Closed 0xCF87 P) (hk0 : P s) :
    P (State.echoBack s x off body) := by
  unfold State.echoBack
  try dsimp only
  repeat' first
    | with_reducible assumption | exact hc.mono rfl | with_reducible apply inv_upFab | with_reducible apply inv_dropXchg
    | with_reducible apply inv_endLoopback | with_reducible refine inv_ite ?_ ?_ | with_reducible refine inv_ite_fst ?_ ?_
    | with_reducible refine inv_ite_snd ?_ ?_ | split | intro

theorem inv_endMigration {P : State → Prop} {s : State} {ctx vpn : Nat} {pull : Bool} (hc : Closed 0x802 P) (hk0 : P s) :
    P (State.endMigration s ctx vpn pull) := by
  unfold State.endMigration
  try dsimp only
  repeat' first
    | with_reducible assumption | exact hc.mono rfl | with_reducible apply inv_upTu | with_reducible apply inv_setFld
    | with_reducible refine inv_ite ?_ ?_ | with_reducible refine inv_ite_fst ?_ ?_ | with_reducible refine inv_ite_snd ?_ ?_ | split
    | intro

theorem inv_postFloor {P : State → Prop} {s : State} {mv : Nat} (hc : Closed 0x3 P) (hk0 : P s) :
    P (State.postFloor s mv) := by
  unfold State.postFloor
  try dsimp only
  repeat' first
    | with_reducible assumption | exact hc.mono rfl | with_reducible apply inv_upCtl | with_reducible apply inv_setFld
    | with_reducible refine inv_ite ?_ ?_ | with_reducible refine inv_ite_fst ?_ ?_ | with_reducible refine inv_ite_snd ?_ ?_
    | exact fun _ => Nat.le_refl _ | exact fun _ => Nat.le_max_left _ _ | exact fun _ => Or.inl rfl | exact fun _ => Or.inr rfl | split
    | intro

theorem inv_evalFloor {P : State → Prop} {s : State} {hot : Nat} (hc : Closed 0x3 P) (hk0 : P s) :
    P (State.evalFloor s hot) := by
  unfold State.evalFloor
  try dsimp only
  repeat' first
    | with_reducible assumption | exact hc.mono rfl | with_reducible apply inv_postFloor | with_reducible apply inv_setFld
    | with_reducible refine inv_ite ?_ ?_ | with_reducible refine inv_ite_fst ?_ ?_ | with_reducible refine inv_ite_snd ?_ ?_ | split
    | intro

theorem inv_failCtrlSilent {P : State → Prop} {s : State} (hc : Closed 0x502 P) (hk0 : P s) :
    P (State.failCtrlSilent s) := by
  unfold State.failCtrlSilent
  try dsimp only
  repeat' first
    | with_reducible assumption | exact hc.mono rfl | with_reducible apply inv_upTab | with_reducible apply inv_upFab
    | with_reducible apply inv_setFld | with_reducible refine inv_ite ?_ ?_ | with_reducible refine inv_ite_fst ?_ ?_
    | with_reducible refine inv_ite_snd ?_ ?_ | split | intro

theorem inv_failOnHolm {P : State → Prop} {s : State} {c : Cmd} (hc : Closed 0x4D82 P) (hk0 : P s) :
    P (State.failOnHolm s c) := by
  unfold State.failOnHolm
  try dsimp only
  repeat' first
    | with_reducible assumption | exact hc.mono rfl | with_reducible apply inv_endResume | with_reducible apply inv_endWith
    | with_reducible apply inv_abandonSlots | with_reducible refine inv_ite ?_ ?_ | with_reducible refine inv_ite_fst ?_ ?_
    | with_reducible refine inv_ite_snd ?_ ?_ | split | intro

theorem inv_failHolm {P : State → Prop} {s : State} {h : Nat} (hc : Closed 0xEF9F P) (hk0 : P s) :
    P (State.failHolm s h) := by
  unfold State.failHolm
  try dsimp only
  repeat' first
    | with_reducible assumption | exact hc.mono rfl | with_reducible apply inv_upSpine | with_reducible apply inv_failOnHolm
    | with_reducible apply inv_holmLeaves | with_reducible apply inv_settle | with_reducible apply inv_fault
    | with_reducible apply inv_setFld | with_reducible refine inv_foldl ?_ ?_ | with_reducible refine inv_foldl_fst ?_ ?_
    | with_reducible refine inv_ite ?_ ?_ | with_reducible refine inv_ite_fst ?_ ?_ | with_reducible refine inv_ite_snd ?_ ?_ | split
    | intro

theorem inv_fillDone {P : State → Prop} {s : State} {f : RcFill} {b : Nat} (hc : Closed 0x202 P) (hk0 : P s) :
    P (State.fillDone s f b) := by
  unfold State.fillDone
  try dsimp only
  repeat' first
    | with_reducible assumption | exact hc.mono rfl | with_reducible apply inv_upCache | with_reducible apply inv_runWait
    | with_reducible refine inv_ite ?_ ?_ | with_reducible refine inv_ite_fst ?_ ?_ | with_reducible refine inv_ite_snd ?_ ?_ | split
    | intro

theorem inv_install {P : State → Prop} {s : State} {f : RcFill} {w good : Nat} (hc : Closed 0x200 P) (hk0 : P s) :
    P (State.install s f w good) := by
  unfold State.install
  try dsimp only
  repeat' first
    | with_reducible assumption | exact hc.mono rfl | with_reducible apply inv_setWay | with_reducible refine inv_ite ?_ ?_
    | with_reducible refine inv_ite_fst ?_ ?_ | with_reducible refine inv_ite_snd ?_ ?_ | split | intro

theorem inv_fillSector {P : State → Prop} {s : State} {sl a sector : Nat} (hc : Closed 0x202 P) (hk0 : P s) :
    P (State.fillSector s sl a sector) := by
  unfold State.fillSector
  try dsimp only
  repeat' first
    | with_reducible assumption | exact hc.mono rfl | with_reducible apply inv_install | with_reducible apply inv_fillDone
    | with_reducible refine inv_ite ?_ ?_ | with_reducible refine inv_ite_fst ?_ ?_ | with_reducible refine inv_ite_snd ?_ ?_ | split
    | intro

theorem inv_floorEffect {P : State → Prop} {s : State} (hc : Closed 0x3 P) (hk0 : P s) :
    P (State.floorEffect s) := by
  unfold State.floorEffect
  try dsimp only
  repeat' first
    | with_reducible assumption | exact hc.mono rfl | with_reducible apply inv_upCtl | with_reducible apply inv_setFld
    | with_reducible refine inv_ite ?_ ?_ | with_reducible refine inv_ite_fst ?_ ?_ | with_reducible refine inv_ite_snd ?_ ?_
    | exact fun _ => Nat.le_refl _ | exact fun _ => Nat.le_max_left _ _ | exact fun _ => Or.inl rfl | exact fun _ => Or.inr rfl | split
    | intro

theorem inv_h1Done {P : State → Prop} {s : State} (hc : Closed 0xEF9F P) (hk0 : P s) :
    P (State.h1Done s) := by
  unfold State.h1Done
  try dsimp only
  repeat' first
    | with_reducible assumption | exact hc.mono rfl | with_reducible apply inv_upTu | with_reducible apply inv_settle
    | with_reducible apply inv_setFld | with_reducible refine inv_ite ?_ ?_ | with_reducible refine inv_ite_fst ?_ ?_
    | with_reducible refine inv_ite_snd ?_ ?_ | split | intro

theorem inv_h1Packet {P : State → Prop} {s : State} {bs : List Byte} (hc : Closed 0x8800 P) (hk0 : P s) :
    P (State.h1Packet s bs) := by
  unfold State.h1Packet
  try dsimp only
  repeat' first
    | with_reducible assumption | exact hc.mono rfl | with_reducible apply inv_upSpine | with_reducible apply inv_upTu
    | with_reducible refine inv_ite ?_ ?_ | with_reducible refine inv_ite_fst ?_ ?_ | with_reducible refine inv_ite_snd ?_ ?_ | split
    | intro

theorem inv_haltSecurity {P : State → Prop} {s : State} (hc : Closed 0xEE06 P) (hk0 : P s) :
    P (State.haltSecurity s) := by
  unfold State.haltSecurity
  try dsimp only
  repeat' first
    | with_reducible assumption | exact hc.mono rfl | with_reducible apply inv_fault | with_reducible apply inv_setFld
    | with_reducible refine inv_ite ?_ ?_ | with_reducible refine inv_ite_fst ?_ ?_ | with_reducible refine inv_ite_snd ?_ ?_ | split
    | intro

theorem inv_hostError {P : State → Prop} {s : State} {x : HReq} (hc : Closed 0xFA6 P) (hk0 : P s) :
    P (State.hostError s x) := by
  unfold State.hostError
  try dsimp only
  repeat' first
    | with_reducible assumption | exact hc.mono rfl | with_reducible apply inv_upTu | with_reducible apply inv_endFault
    | with_reducible apply inv_putData | with_reducible apply inv_faultRing | with_reducible apply inv_bump
    | with_reducible refine inv_ite ?_ ?_ | with_reducible refine inv_ite_fst ?_ ?_ | with_reducible refine inv_ite_snd ?_ ?_ | split
    | intro

theorem inv_hostAnswered {P : State → Prop} {s : State} {tag : Nat} {err : Bool} (hc : Closed 0xEFBF P) (hk0 : P s) :
    P (State.hostAnswered s tag err) := by
  unfold State.hostAnswered
  try dsimp only
  repeat' first
    | with_reducible assumption | exact hc.mono rfl | with_reducible apply inv_upTu | with_reducible apply inv_hostError
    | with_reducible apply inv_settle | with_reducible refine inv_ite ?_ ?_ | with_reducible refine inv_ite_fst ?_ ?_
    | with_reducible refine inv_ite_snd ?_ ?_ | split | intro

theorem inv_hostResponse {P : State → Prop} {s : State} {tag : Nat} {err : Bool} (hc : Closed 0xEFBF P) (hk0 : P s) :
    P (State.hostResponse s tag err) := by
  unfold State.hostResponse
  try dsimp only
  repeat' first
    | with_reducible assumption | exact hc.mono rfl | with_reducible apply inv_upTab | with_reducible apply inv_hostAnswered
    | with_reducible apply inv_closeHost | with_reducible refine inv_ite ?_ ?_ | with_reducible refine inv_ite_fst ?_ ?_
    | with_reducible refine inv_ite_snd ?_ ?_ | split | intro

theorem inv_lbNoAck {P : State → Prop} {s : State} {k : Nat} (hc : Closed 0xCF87 P) (hk0 : P s) :
    P (State.lbNoAck s k) := by
  unfold State.lbNoAck
  try dsimp only
  repeat' first
    | with_reducible assumption | exact hc.mono rfl | with_reducible apply inv_endLoopback | split | intro

theorem inv_leaveReset {P : State → Prop} {s : State} {headless : Bool} {t : Nat} (hc : Closed 0x10003 P) (h : P s) : P (s.leaveReset headless t) := by
  unfold State.leaveReset
  have h1 := hc.life rfl s (fun c => { c with life := .alive, now := max c.now t, released := max c.now t, pmSafe := false })
    (fun _ => Nat.le_max_left _ _) h
  exact inv_setFld (hc.mono rfl) (inv_setFld (hc.mono rfl) (inv_setFld (hc.mono rfl) (inv_setFld (hc.mono rfl) (inv_setFld (hc.mono rfl)
    (inv_setFld (hc.mono rfl) h1)))))

theorem inv_logRepair {P : State → Prop} {s : State} {tier row : Nat} (hc : Closed 0x2002 P) (hk0 : P s) :
    P (State.logRepair s tier row) := by
  unfold State.logRepair
  try dsimp only
  repeat' first
    | with_reducible assumption | exact hc.mono rfl | with_reducible apply inv_upFlash | with_reducible apply inv_setFld
    | with_reducible refine inv_ite ?_ ?_ | with_reducible refine inv_ite_fst ?_ ?_ | with_reducible refine inv_ite_snd ?_ ?_ | split
    | intro

theorem inv_mailboxCmd {P : State → Prop} {s : State} {src : Src} {op : Nat} {len : BitVec 13} (hc : Closed 0xEE06 P) (hk0 : P s) :
    P (State.mailboxCmd s src op len) := by
  unfold State.mailboxCmd
  try dsimp only
  repeat' first
    | with_reducible assumption | exact hc.mono rfl | with_reducible apply inv_writeMbox | with_reducible refine inv_ite ?_ ?_
    | with_reducible refine inv_ite_fst ?_ ?_ | with_reducible refine inv_ite_snd ?_ ?_ | split | intro

theorem inv_mailboxDone {P : State → Prop} {s : State} (hc : Closed 0x4002 P) (hk0 : P s) :
    P (State.mailboxDone s) := by
  unfold State.mailboxDone
  try dsimp only
  repeat' first
    | with_reducible assumption | exact hc.mono rfl | with_reducible apply inv_upSec | with_reducible apply inv_setStage
    | with_reducible apply inv_setFld | with_reducible refine inv_ite ?_ ?_ | with_reducible refine inv_ite_fst ?_ ?_
    | with_reducible refine inv_ite_snd ?_ ?_ | split | intro

theorem inv_mdArrive {P : State → Prop} {s : State} {g : Nat} (hc : Closed 0xEE06 P) (hk0 : P s) :
    P (State.mdArrive s g) := by
  unfold State.mdArrive
  try dsimp only
  repeat' first
    | with_reducible assumption | exact hc.mono rfl | with_reducible apply inv_upCache | with_reducible apply inv_fault
    | with_reducible refine inv_ite ?_ ?_ | with_reducible refine inv_ite_fst ?_ ?_ | with_reducible refine inv_ite_snd ?_ ?_ | split
    | intro

theorem inv_mdDisable {P : State → Prop} {s : State} {w : Nat} (hc : Closed 0xEE06 P) (hk0 : P s) :
    P (State.mdDisable s w) := by
  unfold State.mdDisable
  try dsimp only
  repeat' first
    | with_reducible assumption | exact hc.mono rfl | with_reducible apply inv_upCache | with_reducible apply inv_mdEmptyWay
    | with_reducible apply inv_fault | with_reducible apply inv_setFld | with_reducible refine inv_ite ?_ ?_
    | with_reducible refine inv_ite_fst ?_ ?_ | with_reducible refine inv_ite_snd ?_ ?_ | split | intro

theorem inv_mdWayError {P : State → Prop} {s : State} {w : Nat} (hc : Closed 0xEE06 P) (hk0 : P s) :
    P (State.mdWayError s w) := by
  unfold State.mdWayError
  try dsimp only
  repeat' first
    | with_reducible assumption | exact hc.mono rfl | with_reducible apply inv_upCache | with_reducible apply inv_mdDisable
    | with_reducible refine inv_ite ?_ ?_ | with_reducible refine inv_ite_fst ?_ ?_ | with_reducible refine inv_ite_snd ?_ ?_ | split
    | intro

theorem inv_memReach {P : State → Prop} {s : State} {a ctx n : Nat} {write : Bool} (hc : Closed 0x2 P) (hk0 : P s) :
    P (State.memReach s a ctx n write).1 := by
  unfold State.memReach
  try dsimp only
  repeat' first
    | with_reducible assumption | exact hc.mono rfl | with_reducible apply inv_reachGlobal | with_reducible apply inv_deny
    | with_reducible apply inv_bump | with_reducible refine inv_ite ?_ ?_ | with_reducible refine inv_ite_fst ?_ ?_
    | with_reducible refine inv_ite_snd ?_ ?_ | split | intro

theorem inv_metaCacheError {P : State → Prop} {s : State} {st w : Nat} {e : SramError} (hc : Closed 0xEE06 P) (hk0 : P s) :
    P (State.metaCacheError s st w e) := by
  unfold State.metaCacheError
  try dsimp only
  repeat' first
    | with_reducible assumption | exact hc.mono rfl | with_reducible apply inv_upCache | with_reducible apply inv_mdWayError
    | with_reducible apply inv_mdFetch | with_reducible apply inv_bump | with_reducible refine inv_foldl ?_ ?_
    | with_reducible refine inv_foldl_fst ?_ ?_ | with_reducible refine inv_ite ?_ ?_ | with_reducible refine inv_ite_fst ?_ ?_
    | with_reducible refine inv_ite_snd ?_ ?_ | split | intro

theorem inv_migratePage {P : State → Prop} {s : State} {ctx vpn : Nat} (hc : Closed 0xA06 P) (hk0 : P s) :
    P (State.migratePage s ctx vpn) := by
  unfold State.migratePage
  try dsimp only
  repeat' first
    | with_reducible assumption | exact hc.mono rfl | with_reducible apply inv_upTu | with_reducible apply inv_endMigration
    | with_reducible apply inv_casPte | with_reducible apply inv_putData | with_reducible apply inv_hostRead
    | with_reducible apply inv_bump | with_reducible refine inv_ite ?_ ?_ | with_reducible refine inv_ite_fst ?_ ?_
    | with_reducible refine inv_ite_snd ?_ ?_ | split | intro

theorem inv_onMsg {P : State → Prop} {s : State} {src : Nat} {msg : List Byte} {mtype : Nat} {f : State → Nat → State} (hc : Closed 0x4402 P) (hk0 : P s) (hf_f : ∀ y0 y1, P y0 → P (f y0 y1)) :
    P (State.onMsg s src msg mtype f) := by
  unfold State.onMsg
  try dsimp only
  repeat' first
    | with_reducible assumption | exact hc.mono rfl | with_reducible apply inv_unlessFailed | with_reducible apply inv_take
    | with_reducible apply hf_f | with_reducible refine inv_ite ?_ ?_ | with_reducible refine inv_ite_fst ?_ ?_
    | with_reducible refine inv_ite_snd ?_ ?_ | split | intro

theorem inv_onTk {P : State → Prop} {s : State} {h : TkHdr} {b : TkBody} {f : State → State} (hc : Closed 0x4402 P) (hk0 : P s) (hf_f : ∀ y0, P y0 → P (f y0)) :
    P (State.onTk s h b f) := by
  unfold State.onTk
  try dsimp only
  repeat' first
    | with_reducible assumption | exact hc.mono rfl | with_reducible apply inv_unlessFailedTk | with_reducible apply inv_take
    | with_reducible apply inv_checkList | with_reducible apply hf_f | with_reducible refine inv_ite ?_ ?_
    | with_reducible refine inv_ite_fst ?_ ?_ | with_reducible refine inv_ite_snd ?_ ?_ | split | intro

theorem inv_pfcExpired {P : State → Prop} {s : State} {k p : Nat} (hc : Closed 0x4402 P) (hk0 : P s) :
    P (State.pfcExpired s k p) := by
  unfold State.pfcExpired
  try dsimp only
  repeat' first
    | with_reducible assumption | exact hc.mono rfl | with_reducible apply inv_upFab | with_reducible apply inv_pumpAll
    | with_reducible apply inv_setFld | with_reducible refine inv_ite ?_ ?_ | with_reducible refine inv_ite_fst ?_ ?_
    | with_reducible refine inv_ite_snd ?_ ?_ | split | intro

theorem inv_phyUpdate {P : State → Prop} {s : State} {tier channel held : Nat} (hc : Closed 0x8002 P) (hk0 : P s) :
    P (State.phyUpdate s tier channel held) := by
  unfold State.phyUpdate
  try dsimp only
  repeat' first
    | with_reducible assumption | exact hc.mono rfl | with_reducible apply inv_upSpine | with_reducible apply inv_bump
    | with_reducible refine inv_ite ?_ ?_ | with_reducible refine inv_ite_fst ?_ ?_ | with_reducible refine inv_ite_snd ?_ ?_ | split
    | intro

theorem inv_poisonWord {P : State → Prop} {s : State} {tier off : Nat} (hc : Closed 0xEE16 P) (hk0 : P s) :
    P (State.poisonWord s tier off) := by
  unfold State.poisonWord
  try dsimp only
  repeat' first
    | with_reducible assumption | exact hc.mono rfl | with_reducible apply inv_addPoison | with_reducible apply inv_fault
    | with_reducible apply inv_bump | with_reducible refine inv_ite ?_ ?_ | with_reducible refine inv_ite_fst ?_ ?_
    | with_reducible refine inv_ite_snd ?_ ?_ | split | intro

theorem inv_portFailed {P : State → Prop} {s : State} {p l : Nat} (hc : Closed 0xEFBF P) (hk0 : P s) :
    P (State.portFailed s p l) := by
  unfold State.portFailed
  try dsimp only
  repeat' first
    | with_reducible assumption | exact hc.mono rfl | with_reducible apply inv_upFab | with_reducible apply inv_peerDown
    | with_reducible apply inv_dropPartials | with_reducible apply inv_sweepWaits | with_reducible apply inv_settle
    | with_reducible apply inv_moveFlow | with_reducible refine inv_foldl ?_ ?_ | with_reducible refine inv_foldl_fst ?_ ?_
    | with_reducible refine inv_ite ?_ ?_ | with_reducible refine inv_ite_fst ?_ ?_ | with_reducible refine inv_ite_snd ?_ ?_ | split
    | intro

theorem inv_readStatus {P : State → Prop} {s : State} {n : Nat} (hc : Closed 0x2 P) (hk0 : P s) :
    P (State.readStatus s n) := by
  unfold State.readStatus
  try dsimp only
  repeat' first
    | with_reducible assumption | exact hc.mono rfl | with_reducible apply inv_setFld | split | intro

theorem inv_readEffect {P : State → Prop} {s : State} {off : Nat} (hc : Closed 0x2 P) (hk0 : P s) :
    P (State.readEffect s off).1 := by
  unfold State.readEffect
  try dsimp only
  repeat' first
    | with_reducible assumption | exact hc.mono rfl | with_reducible apply inv_readStatus | with_reducible refine inv_ite ?_ ?_
    | with_reducible refine inv_ite_fst ?_ ?_ | with_reducible refine inv_ite_snd ?_ ?_ | split | intro

theorem inv_unitError {P : State → Prop} {s : State} {tier off : Nat} (hc : Closed 0xEF9F P) (hk0 : P s) :
    P (State.unitError s tier off) := by
  unfold State.unitError
  try dsimp only
  repeat' first
    | with_reducible assumption | exact hc.mono rfl | with_reducible apply inv_upSpine | with_reducible apply inv_tierFails
    | with_reducible apply inv_tierSFails | with_reducible refine inv_ite ?_ ?_ | with_reducible refine inv_ite_fst ?_ ?_
    | with_reducible refine inv_ite_snd ?_ ?_ | split | intro

theorem inv_readError {P : State → Prop} {s : State} {tier off : Nat} {e : ReadError} (hc : Closed 0xEF9F P) (hk0 : P s) :
    P (State.readError s tier off e) := by
  unfold State.readError
  try dsimp only
  repeat' first
    | with_reducible assumption | exact hc.mono rfl | with_reducible apply inv_unitError | with_reducible apply inv_poisonWord
    | with_reducible apply inv_corrected | with_reducible apply inv_askRepair | with_reducible apply inv_bump
    | with_reducible refine inv_foldl ?_ ?_ | with_reducible refine inv_foldl_fst ?_ ?_ | with_reducible refine inv_ite ?_ ?_
    | with_reducible refine inv_ite_fst ?_ ?_ | with_reducible refine inv_ite_snd ?_ ?_ | split | intro

theorem inv_recentre {P : State → Prop} {s : State} {line point : Nat} (hc : Closed 0xEE06 P) (hk0 : P s) :
    P (State.recentre s line point) := by
  unfold State.recentre
  try dsimp only
  repeat' first
    | with_reducible assumption | exact hc.mono rfl | with_reducible apply inv_calibrate | with_reducible apply inv_fault
    | with_reducible apply inv_bump | with_reducible refine inv_ite ?_ ?_ | with_reducible refine inv_ite_fst ?_ ?_
    | with_reducible refine inv_ite_snd ?_ ?_ | split | intro

theorem inv_recvAck {P : State → Prop} {s : State} {f : Frame} {p l : Nat} (hc : Closed 0xEF9F P) (hk0 : P s) :
    P (State.recvAck s f p l) := by
  unfold State.recvAck
  try dsimp only
  repeat' first
    | with_reducible assumption | exact hc.mono rfl | with_reducible apply inv_takeAck | split | intro

theorem inv_releaseFlow {P : State → Prop} {s : State} {p l : Nat} (hc : Closed 0x4402 P) (hk0 : P s) :
    P (State.releaseFlow s p l) := by
  unfold State.releaseFlow
  try dsimp only
  repeat' first
    | with_reducible assumption | exact hc.mono rfl | with_reducible apply inv_dropPartials | with_reducible apply inv_unstall
    | with_reducible apply inv_setFlows | split | intro

theorem inv_recvClose {P : State → Prop} {s : State} {f : Frame} {p l : Nat} (hc : Closed 0xEF9F P) (hk0 : P s) :
    P (State.recvClose s f p l) := by
  unfold State.recvClose
  try dsimp only
  repeat' first
    | with_reducible assumption | exact hc.mono rfl | with_reducible apply inv_releaseFlow | with_reducible apply inv_takeAck
    | with_reducible apply inv_sendFrame | with_reducible refine inv_ite ?_ ?_ | with_reducible refine inv_ite_fst ?_ ?_
    | with_reducible refine inv_ite_snd ?_ ?_ | split | intro

theorem inv_recvCloseAck {P : State → Prop} {s : State} {p l : Nat} (hc : Closed 0x4402 P) (hk0 : P s) :
    P (State.recvCloseAck s p l) := by
  unfold State.recvCloseAck
  try dsimp only
  repeat' first
    | with_reducible assumption | exact hc.mono rfl | with_reducible apply inv_releaseFlow | with_reducible refine inv_ite ?_ ?_
    | with_reducible refine inv_ite_fst ?_ ?_ | with_reducible refine inv_ite_snd ?_ ?_ | split | intro

theorem inv_takeFrag {P : State → Prop} {s : State} {p l : Nat} {x : Option Frag} (hc : Closed 0x402 P) (hk0 : P s) :
    P (State.takeFrag s p l x) := by
  unfold State.takeFrag
  try dsimp only
  repeat' first
    | with_reducible assumption | exact hc.mono rfl | with_reducible apply inv_deliverMsg | with_reducible apply inv_upFlow
    | with_reducible apply inv_bump | with_reducible refine inv_ite ?_ ?_ | with_reducible refine inv_ite_fst ?_ ?_
    | with_reducible refine inv_ite_snd ?_ ?_ | split | intro

theorem inv_sendAck {P : State → Prop} {s : State} {p l : Nat} (hc : Closed 0x4402 P) (hk0 : P s) :
    P (State.sendAck s p l) := by
  unfold State.sendAck
  try dsimp only
  repeat' first
    | with_reducible assumption | exact hc.mono rfl | with_reducible apply inv_sendFrame | with_reducible apply inv_upFlow
    | with_reducible refine inv_ite ?_ ?_ | with_reducible refine inv_ite_fst ?_ ?_ | with_reducible refine inv_ite_snd ?_ ?_ | split
    | intro

theorem inv_recvData {P : State → Prop} {s : State} {f : Frame} {p l : Nat} (hc : Closed 0xEF9F P) (hk0 : P s) :
    P (State.recvData s f p l) := by
  unfold State.recvData
  try dsimp only
  repeat' first
    | with_reducible assumption | exact hc.mono rfl | with_reducible apply inv_sendAck | with_reducible apply inv_takeFrag
    | with_reducible apply inv_credit | with_reducible apply inv_takeAck | with_reducible apply inv_sendFrame
    | with_reducible apply inv_upFlow | with_reducible refine inv_foldl ?_ ?_ | with_reducible refine inv_foldl_fst ?_ ?_
    | with_reducible refine inv_ite ?_ ?_ | with_reducible refine inv_ite_fst ?_ ?_ | with_reducible refine inv_ite_snd ?_ ?_ | split
    | intro

theorem inv_recvDoorbell {P : State → Prop} {s : State} {src : Nat} {msg : List Byte} (hc : Closed 0x22 P) (hk0 : P s) :
    P (State.recvDoorbell s src msg) := by
  unfold State.recvDoorbell
  try dsimp only
  repeat' first
    | with_reducible assumption | exact hc.mono rfl | with_reducible apply inv_dbErr | with_reducible apply inv_upRing
    | with_reducible refine inv_ite ?_ ?_ | with_reducible refine inv_ite_fst ?_ ?_ | with_reducible refine inv_ite_snd ?_ ?_ | split
    | intro

theorem inv_tookPn {P : State → Prop} {s : State} {k : Nat} {f : Frame} (hc : Closed 0x4000 P) (hk0 : P s) :
    P (State.tookPn s k f) := by
  unfold State.tookPn
  try dsimp only
  repeat' first
    | with_reducible assumption | exact hc.mono rfl | with_reducible apply inv_upSec | with_reducible refine inv_ite ?_ ?_
    | with_reducible refine inv_ite_fst ?_ ?_ | with_reducible refine inv_ite_snd ?_ ?_ | split | intro

theorem inv_recvFrame {P : State → Prop} {s : State} {k : Nat} {f : Frame} {typ : Nat} {act : State → Nat → Nat → State} (hc : Closed 0x4402 P) (hk0 : P s) (hf_act : ∀ y0 y1 y2, P y0 → P (act y0 y1 y2)) :
    P (State.recvFrame s k f typ act) := by
  unfold State.recvFrame
  try dsimp only
  repeat' first
    | with_reducible assumption | exact hc.mono rfl | with_reducible apply inv_upFab | with_reducible apply inv_tookPn
    | with_reducible apply inv_bump | with_reducible apply inv_setFld | with_reducible apply hf_act | with_reducible refine inv_ite ?_ ?_
    | with_reducible refine inv_ite_fst ?_ ?_ | with_reducible refine inv_ite_snd ?_ ?_ | split | intro

theorem inv_recvInv {P : State → Prop} {s : State} {tag ctx a : Nat} (hc : Closed 0x802 P) (hk0 : P s) :
    P (State.recvInv s tag ctx a) := by
  unfold State.recvInv
  try dsimp only
  repeat' first
    | with_reducible assumption | exact hc.mono rfl | with_reducible apply inv_upTu | with_reducible apply inv_addShoot
    | with_reducible apply inv_bump | with_reducible refine inv_ite ?_ ?_ | with_reducible refine inv_ite_fst ?_ ?_
    | with_reducible refine inv_ite_snd ?_ ?_ | split | intro

theorem inv_recvMemAck {P : State → Prop} {s : State} {src : Nat} {msg : List Byte} (hc : Closed 0xEFBF P) (hk0 : P s) :
    P (State.recvMemAck s src msg) := by
  unfold State.recvMemAck
  try dsimp only
  repeat' first
    | with_reducible assumption | exact hc.mono rfl | with_reducible apply inv_noteImage | with_reducible apply inv_settle
    | with_reducible apply inv_closeImage | with_reducible apply inv_dropXchg | with_reducible apply inv_runCmd
    | with_reducible apply inv_endWith | with_reducible apply inv_faultRing | with_reducible apply inv_bump
    | with_reducible refine inv_ite ?_ ?_ | with_reducible refine inv_ite_fst ?_ ?_ | with_reducible refine inv_ite_snd ?_ ?_ | split
    | intro

theorem inv_recvMemRead {P : State → Prop} {s : State} {src lane : Nat} {msg : List Byte} (hc : Closed 0x4F02 P) (hk0 : P s) :
    P (State.recvMemRead s src lane msg) := by
  unfold State.recvMemRead
  try dsimp only
  repeat' first
    | with_reducible assumption | exact hc.mono rfl | with_reducible apply inv_serveHost | with_reducible apply inv_memReach
    | with_reducible apply inv_memReply | with_reducible apply inv_mdRead | with_reducible apply inv_hostCached
    | with_reducible refine inv_ite ?_ ?_ | with_reducible refine inv_ite_fst ?_ ?_ | with_reducible refine inv_ite_snd ?_ ?_ | split
    | intro

theorem inv_recvMemReply {P : State → Prop} {s : State} {src : Nat} {msg : List Byte} (hc : Closed 0xEFBF P) (hk0 : P s) :
    P (State.recvMemReply s src msg) := by
  unfold State.recvMemReply
  try dsimp only
  repeat' first
    | with_reducible assumption | exact hc.mono rfl | with_reducible apply inv_upCmd | with_reducible apply inv_upTab
    | with_reducible apply inv_extArrived | with_reducible apply inv_settle | with_reducible apply inv_dropXchg
    | with_reducible apply inv_answer | with_reducible apply inv_runCmd | with_reducible apply inv_endFault
    | with_reducible apply inv_freeDest | with_reducible apply inv_endAt | with_reducible apply inv_faultRing
    | with_reducible apply inv_upRing | with_reducible refine inv_ite ?_ ?_ | with_reducible refine inv_ite_fst ?_ ?_
    | with_reducible refine inv_ite_snd ?_ ?_ | split | intro

theorem inv_recvMemWrite {P : State → Prop} {s : State} {src lane : Nat} {msg : List Byte} (hc : Closed 0x4F06 P) (hk0 : P s) :
    P (State.recvMemWrite s src lane msg) := by
  unfold State.recvMemWrite
  try dsimp only
  repeat' first
    | with_reducible assumption | exact hc.mono rfl | with_reducible apply inv_serveHost | with_reducible apply inv_memReach
    | with_reducible apply inv_answer | with_reducible apply inv_hostWrite | with_reducible apply inv_putData
    | with_reducible refine inv_ite ?_ ?_ | with_reducible refine inv_ite_fst ?_ ?_ | with_reducible refine inv_ite_snd ?_ ?_ | split
    | intro

theorem inv_recvNak {P : State → Prop} {s : State} {f : Frame} {p l : Nat} (hc : Closed 0xEF9F P) (hk0 : P s) :
    P (State.recvNak s f p l) := by
  unfold State.recvNak
  try dsimp only
  repeat' first
    | with_reducible assumption | exact hc.mono rfl | with_reducible apply inv_takeAck | with_reducible apply inv_resendFlow | split
    | intro

theorem inv_restartFlow {P : State → Prop} {s : State} {f : Flow} {epoch : Nat} (hc : Closed 0x402 P) (hk0 : P s) :
    P (State.restartFlow s f epoch) := by
  unfold State.restartFlow
  try dsimp only
  repeat' first
    | with_reducible assumption | exact hc.mono rfl | with_reducible apply inv_dropPartials | with_reducible apply inv_setFlows
    | with_reducible refine inv_foldl ?_ ?_ | with_reducible refine inv_foldl_fst ?_ ?_ | split | intro

theorem inv_recvOpen {P : State → Prop} {s : State} {f : Frame} {p l : Nat} (hc : Closed 0xEF9F P) (hk0 : P s) :
    P (State.recvOpen s f p l) := by
  unfold State.recvOpen
  try dsimp only
  repeat' first
    | with_reducible assumption | exact hc.mono rfl | with_reducible apply inv_restartFlow | with_reducible apply inv_clearDown
    | with_reducible apply inv_ackOpen | with_reducible apply inv_setFlows | with_reducible refine inv_ite ?_ ?_
    | with_reducible refine inv_ite_fst ?_ ?_ | with_reducible refine inv_ite_snd ?_ ?_
    | with_reducible refine inv_roomForFlow ?_ ?_ (by with_reducible assumption) | split | intro

theorem inv_recvOpenAck {P : State → Prop} {s : State} {k : Nat} {f : Frame} {p l : Nat} (hc : Closed 0xEF9F P) (hk0 : P s) :
    P (State.recvOpenAck s k f p l) := by
  unfold State.recvOpenAck
  try dsimp only
  repeat' first
    | with_reducible assumption | exact hc.mono rfl | with_reducible apply inv_clearDown | with_reducible apply inv_takeAck
    | with_reducible apply inv_resendUpdates | with_reducible apply inv_pump | with_reducible apply inv_upFlow
    | with_reducible refine inv_ite ?_ ?_ | with_reducible refine inv_ite_fst ?_ ?_ | with_reducible refine inv_ite_snd ?_ ?_ | split
    | intro

theorem inv_recvPfc {P : State → Prop} {s : State} {k prios : Nat} {quanta : List Nat} (hc : Closed 0x4402 P) (hk0 : P s) :
    P (State.recvPfc s k prios quanta) := by
  unfold State.recvPfc
  try dsimp only
  repeat' first
    | with_reducible assumption | exact hc.mono rfl | with_reducible apply inv_upFab | with_reducible apply inv_pumpAll
    | with_reducible refine inv_foldl ?_ ?_ | with_reducible refine inv_foldl_fst ?_ ?_ | with_reducible refine inv_ite ?_ ?_
    | with_reducible refine inv_ite_fst ?_ ?_ | with_reducible refine inv_ite_snd ?_ ?_ | split | intro

theorem inv_regEntry {P : State → Prop} {t0 : State × List Byte} {s : State} {src : Nat} {e : List Byte} (hc : Closed 0xEFBF P) (hk0 : P s) (e0 : State.regEntry s src e = some t0) :
    P t0.1 := by
  revert e0
  unfold State.regEntry
  try dsimp only
  repeat' first
    | with_reducible assumption | exact hc.mono rfl | with_reducible apply inv_readEffect | with_reducible apply inv_cqHeadWrite
    | with_reducible apply inv_writeReg | with_reducible refine inv_ite ?_ ?_ | with_reducible refine inv_ite_fst ?_ ?_
    | with_reducible refine inv_ite_snd ?_ ?_ | (intro e0; cases e0; done) | (intro e0; cases e0; skip)
    | (intro e0; obtain ⟨_, _, rfl⟩ := Option.map_eq_some_iff.mp e0; skip) | split | intro

theorem inv_regEntries {P : State → Prop} {src : Nat} {es : List (List Byte)} (hc : Closed 0xEFBF P) : ∀ {s : State}, P s → P (s.regEntries src es).1 := by
  induction es with
  | nil => intro s h; exact h
  | cons e es ih =>
    intro s h
    unfold State.regEntries
    split
    · exact h
    · rename_i heq
      try dsimp only
      exact ih (inv_regEntry (hc.mono rfl) h heq)

theorem inv_recvReg {P : State → Prop} {s : State} {src lane : Nat} {msg : List Byte} (hc : Closed 0xEFBF P) (hk0 : P s) :
    P (State.recvReg s src lane msg) := by
  unfold State.recvReg
  try dsimp only
  repeat' first
    | with_reducible assumption | exact hc.mono rfl | with_reducible apply inv_upFab | with_reducible apply inv_regEntries
    | with_reducible apply inv_send | with_reducible apply inv_bump | with_reducible refine inv_ite ?_ ?_
    | with_reducible refine inv_ite_fst ?_ ?_ | with_reducible refine inv_ite_snd ?_ ?_ | split | intro

theorem inv_refill {P : State → Prop} {s : State} {tier part : Nat} {write : Bool} (hc : Closed 0x8000 P) (hk0 : P s) :
    P (State.refill s tier part write) := by
  unfold State.refill
  try dsimp only
  repeat' first
    | with_reducible assumption | exact hc.mono rfl | with_reducible apply inv_upSpine | split | intro

theorem inv_takeFloor {P : State → Prop} {s : State} {tier part : Nat} (hc : Closed 0x8000 P) (hk0 : P s) :
    P (State.takeFloor s tier part) := by
  unfold State.takeFloor
  try dsimp only
  repeat' first
    | with_reducible assumption | exact hc.mono rfl | with_reducible apply inv_upSpine | with_reducible refine inv_ite ?_ ?_
    | with_reducible refine inv_ite_fst ?_ ?_ | with_reducible refine inv_ite_snd ?_ ?_ | split | intro

theorem inv_refillAll {P : State → Prop} {s : State} (hc : Closed 0x8000 P) (hk0 : P s) :
    P (State.refillAll s) := by
  unfold State.refillAll
  try dsimp only
  repeat' first
    | with_reducible assumption | exact hc.mono rfl | with_reducible apply inv_takeFloor | with_reducible apply inv_refill
    | with_reducible refine inv_foldl ?_ ?_ | with_reducible refine inv_foldl_fst ?_ ?_ | split | intro

theorem inv_repairRow {P : State → Prop} {s : State} {tier off : Nat} {possible : Bool} (hc : Closed 0xEE06 P) (hk0 : P s) :
    P (State.repairRow s tier off possible) := by
  unfold State.repairRow
  try dsimp only
  repeat' first
    | with_reducible assumption | exact hc.mono rfl | with_reducible apply inv_upSpine | with_reducible apply inv_logRepair
    | with_reducible apply inv_fault | with_reducible apply inv_syncRepairs | with_reducible apply inv_bump
    | with_reducible apply inv_setFld | with_reducible refine inv_ite ?_ ?_ | with_reducible refine inv_ite_fst ?_ ?_
    | with_reducible refine inv_ite_snd ?_ ?_ | split | intro

theorem inv_reprobe {P : State → Prop} {s : State} {p : Nat} (hc : Closed 0x4402 P) (hk0 : P s) :
    P (State.reprobe s p) := by
  unfold State.reprobe
  try dsimp only
  repeat' first
    | with_reducible assumption | exact hc.mono rfl | with_reducible apply inv_upFab | with_reducible apply inv_setFlows
    | with_reducible apply inv_sendFrame | with_reducible refine inv_foldl ?_ ?_ | with_reducible refine inv_foldl_fst ?_ ?_
    | with_reducible refine inv_ite ?_ ?_ | with_reducible refine inv_ite_fst ?_ ?_ | with_reducible refine inv_ite_snd ?_ ?_
    | with_reducible refine inv_roomForFlow ?_ ?_ (by with_reducible assumption) | split | intro

theorem inv_restartDone {P : State → Prop} {s : State} {c : Nat} {digestOk : Bool} (hc : Closed 0xEF9F P) (hk0 : P s) :
    P (State.restartDone s c digestOk) := by
  unfold State.restartDone
  try dsimp only
  repeat' first
    | with_reducible assumption | exact hc.mono rfl | with_reducible apply inv_failCore | with_reducible apply inv_event
    | with_reducible apply inv_settle | with_reducible apply inv_setFld | with_reducible refine inv_ite ?_ ?_
    | with_reducible refine inv_ite_fst ?_ ?_ | with_reducible refine inv_ite_snd ?_ ?_ | split | intro

theorem inv_resume {P : State → Prop} {s : State} {h : Option Nat} (hc : Closed 0xEF9F P) (hk0 : P s) :
    P (State.resume s h) := by
  unfold State.resume
  try dsimp only
  repeat' first
    | with_reducible assumption | exact hc.mono rfl | with_reducible apply inv_runCmd | split | intro

theorem inv_syncWays {P : State → Prop} {s : State} {sl : Nat} (hc : Closed 0x2 P) (hk0 : P s) :
    P (State.syncWays s sl) := by
  unfold State.syncWays
  try dsimp only
  repeat' first
    | with_reducible assumption | exact hc.mono rfl | with_reducible apply inv_setFld | split | intro

theorem inv_retireWay {P : State → Prop} {s : State} {sl w : Nat} (hc : Closed 0xEE06 P) (hk0 : P s) :
    P (State.retireWay s sl w) := by
  unfold State.retireWay
  try dsimp only
  repeat' first
    | with_reducible assumption | exact hc.mono rfl | with_reducible apply inv_syncWays | with_reducible apply inv_upSlice
    | with_reducible apply inv_emptyWay | with_reducible apply inv_fault | with_reducible apply inv_setFld
    | with_reducible refine inv_ite ?_ ?_ | with_reducible refine inv_ite_fst ?_ ?_ | with_reducible refine inv_ite_snd ?_ ?_ | split
    | intro

theorem inv_writeRollback {P : State → Prop} {s : State} {prev : Nat} (hc : Closed 0x2000 P) (hk0 : P s) :
    P (State.writeRollback s prev) := by
  unfold State.writeRollback
  try dsimp only
  repeat' first
    | with_reducible assumption | exact hc.mono rfl | with_reducible apply inv_writeBootRec | split | intro

theorem inv_romRecord {P : State → Prop} {s : State} (hc : Closed 0x2000 P) (hk0 : P s) :
    P (State.romRecord s).1 := by
  unfold State.romRecord
  try dsimp only
  repeat' first
    | with_reducible assumption | exact hc.mono rfl | with_reducible apply inv_writeRollback | with_reducible apply inv_writeBootRec
    | with_reducible refine inv_ite ?_ ?_ | with_reducible refine inv_ite_fst ?_ ?_ | with_reducible refine inv_ite_snd ?_ ?_ | split
    | intro

theorem inv_rom {P : State → Prop} {s : State} (hc : Closed 0x1FE07 P) (h : P s) : P s.rom := by
  unfold State.rom
  dsimp only
  split
  · exact inv_bootSlot (hc.mono rfl) (inv_romRecord (hc.mono rfl) h)
  · split
    · exact inv_bootSlot (hc.mono rfl) (inv_writeRollback (hc.mono rfl) (inv_romRecord (hc.mono rfl) h))
    · exact hc.life rfl _ _ (fun _ => Nat.le_refl _) (inv_romRecord (hc.mono rfl) h)

theorem inv_rotate {P : State → Prop} {s : State} {sl : Nat} {pass : Bool} (hc : Closed 0xEE06 P) (hk0 : P s) :
    P (State.rotate s sl pass) := by
  unfold State.rotate
  try dsimp only
  repeat' first
    | with_reducible assumption | exact hc.mono rfl | with_reducible apply inv_syncWays | with_reducible apply inv_upSlice
    | with_reducible apply inv_emptyWay | with_reducible apply inv_fault | with_reducible refine inv_ite ?_ ?_
    | with_reducible refine inv_ite_fst ?_ ?_ | with_reducible refine inv_ite_snd ?_ ?_ | split | intro

theorem inv_rowCacheError {P : State → Prop} {s : State} {sl st w : Nat} {e : SramError} (hc : Closed 0x202 P) (hk0 : P s) :
    P (State.rowCacheError s sl st w e) := by
  unfold State.rowCacheError
  try dsimp only
  repeat' first
    | with_reducible assumption | exact hc.mono rfl | with_reducible apply inv_dropLines | with_reducible apply inv_fetch
    | with_reducible apply inv_setWay | with_reducible apply inv_bump | with_reducible refine inv_ite ?_ ?_
    | with_reducible refine inv_ite_fst ?_ ?_ | with_reducible refine inv_ite_snd ?_ ?_ | split | intro

theorem inv_rtoExpired {P : State → Prop} {s : State} {p l : Nat} (hc : Closed 0x4402 P) (hk0 : P s) :
    P (State.rtoExpired s p l) := by
  unfold State.rtoExpired
  try dsimp only
  repeat' first
    | with_reducible assumption | exact hc.mono rfl | with_reducible apply inv_resendFlow | with_reducible apply inv_upFlow
    | with_reducible refine inv_ite ?_ ?_ | with_reducible refine inv_ite_fst ?_ ?_ | with_reducible refine inv_ite_snd ?_ ?_ | split
    | intro

theorem inv_runAs {P : State → Prop} {s : State} {h : Handle} {ok : Nat → Bool} {f : State → Nat → State} (hc : Closed 0x0 P) (hk0 : P s) (hf_f : ∀ y0 y1, P y0 → P (f y0 y1)) :
    P (State.runAs s h ok f) := by
  unfold State.runAs
  try dsimp only
  repeat' first
    | with_reducible assumption | with_reducible apply hf_f | with_reducible refine inv_ite ?_ ?_ | with_reducible refine inv_ite_fst ?_ ?_
    | with_reducible refine inv_ite_snd ?_ ?_ | split | intro

theorem inv_sampleTelemetry {P : State → Prop} {s : State} {power : Nat} (hc : Closed 0x8003 P) (hk0 : P s) :
    P (State.sampleTelemetry s power) := by
  unfold State.sampleTelemetry
  try dsimp only
  repeat' first
    | with_reducible assumption | exact hc.mono rfl | with_reducible apply inv_upSpine | with_reducible apply inv_draw
    | with_reducible apply inv_setFld | split | intro

theorem inv_scrubWord {P : State → Prop} {s : State} {tier : Nat} {found : Option ReadError} (hc : Closed 0xEF9F P) (hk0 : P s) :
    P (State.scrubWord s tier found) := by
  unfold State.scrubWord
  try dsimp only
  repeat' first
    | with_reducible assumption | exact hc.mono rfl | with_reducible apply inv_upSpine | with_reducible apply inv_readError
    | with_reducible refine inv_ite ?_ ?_ | with_reducible refine inv_ite_fst ?_ ?_ | with_reducible refine inv_ite_snd ?_ ?_ | split
    | intro

theorem inv_selfTested {P : State → Prop} {s : State} {r : MbistResult} (hc : Closed 0xEE07 P) (hk0 : P s) :
    P (State.selfTested s r) := by
  unfold State.selfTested
  try dsimp only
  repeat' first
    | with_reducible assumption | exact hc.mono rfl | with_reducible apply inv_setReg | with_reducible apply inv_upCtl
    | with_reducible apply inv_mdDisable | with_reducible apply inv_tryValid | with_reducible apply inv_emptyWay
    | with_reducible apply inv_fault | with_reducible apply inv_setFld | with_reducible refine inv_foldl ?_ ?_
    | with_reducible refine inv_foldl_fst ?_ ?_ | with_reducible refine inv_ite ?_ ?_ | with_reducible refine inv_ite_fst ?_ ?_
    | with_reducible refine inv_ite_snd ?_ ?_ | exact fun _ => Nat.le_refl _ | exact fun _ => Nat.le_max_left _ _
    | exact fun _ => Or.inl rfl | exact fun _ => Or.inr rfl | split | intro

theorem inv_setRefuseAll {P : State → Prop} {s : State} {temp : Nat} (hc : Closed 0x2 P) (hk0 : P s) :
    P (State.setRefuseAll s temp) := by
  unfold State.setRefuseAll
  try dsimp only
  repeat' first
    | with_reducible assumption | exact hc.mono rfl | with_reducible apply inv_setFld | with_reducible refine inv_ite ?_ ?_
    | with_reducible refine inv_ite_fst ?_ ?_ | with_reducible refine inv_ite_snd ?_ ?_ | split | intro

theorem inv_shotDown {P : State → Prop} {s : State} (hc : Closed 0xEF9F P) (hk0 : P s) :
    P (State.shotDown s) := by
  unfold State.shotDown
  try dsimp only
  repeat' first
    | with_reducible assumption | exact hc.mono rfl | with_reducible apply inv_upTu | with_reducible apply inv_drainShoots
    | with_reducible apply inv_settle | with_reducible refine inv_ite ?_ ?_ | with_reducible refine inv_ite_fst ?_ ?_
    | with_reducible refine inv_ite_snd ?_ ?_ | split | intro

theorem inv_snoop {P : State → Prop} {s : State} {tag a : Nat} (hc : Closed 0xA00 P) (hk0 : P s) :
    P (State.snoop s tag a) := by
  unfold State.snoop
  try dsimp only
  repeat' first
    | with_reducible assumption | exact hc.mono rfl | with_reducible apply inv_hostOut | with_reducible apply inv_mdFlush
    | with_reducible refine inv_ite ?_ ?_ | with_reducible refine inv_ite_fst ?_ ?_ | with_reducible refine inv_ite_snd ?_ ?_ | split
    | intro

theorem inv_wayError {P : State → Prop} {s : State} {sl w : Nat} (hc : Closed 0xEE06 P) (hk0 : P s) :
    P (State.wayError s sl w) := by
  unfold State.wayError
  try dsimp only
  repeat' first
    | with_reducible assumption | exact hc.mono rfl | with_reducible apply inv_retireWay | with_reducible apply inv_upSlice
    | with_reducible refine inv_ite ?_ ?_ | with_reducible refine inv_ite_fst ?_ ?_ | with_reducible refine inv_ite_snd ?_ ?_ | split
    | intro

theorem inv_sramError {P : State → Prop} {s : State} {array index : Nat} {e : SramError} {t : Nat} (hc : Closed 0xEE07 P) (hk0 : P s) :
    P (State.sramError s array index e t) := by
  unfold State.sramError
  try dsimp only
  repeat' first
    | with_reducible assumption | exact hc.mono rfl | with_reducible apply inv_upTu | with_reducible apply inv_wayError
    | with_reducible apply inv_rowCacheError | with_reducible apply inv_metaCacheError | with_reducible apply inv_haltSecurity
    | with_reducible apply inv_restartCore | with_reducible refine inv_ite ?_ ?_ | with_reducible refine inv_ite_fst ?_ ?_
    | with_reducible refine inv_ite_snd ?_ ?_ | split | intro

theorem inv_stopReport {P : State → Prop} {s : State} {f : Frame} {p l : Nat} (hc : Closed 0xEF9F P) (hk0 : P s) :
    P (State.stopReport s f p l) := by
  unfold State.stopReport
  try dsimp only
  repeat' first
    | with_reducible assumption | exact hc.mono rfl | with_reducible apply inv_takeAck | with_reducible apply inv_setFlows
    | with_reducible apply inv_pump | with_reducible apply inv_upFlow | split | intro

theorem inv_taskBehind {P : State → Prop} {s : State} {task : Nat} (hc : Closed 0xEE06 P) (hk0 : P s) :
    P (State.taskBehind s task) := by
  unfold State.taskBehind
  try dsimp only
  repeat' first
    | with_reducible assumption | exact hc.mono rfl | with_reducible apply inv_fault | with_reducible apply inv_setFld
    | with_reducible refine inv_ite ?_ ?_ | with_reducible refine inv_ite_fst ?_ ?_ | with_reducible refine inv_ite_snd ?_ ?_ | split
    | intro

theorem inv_testDone {P : State → Prop} {s : State} {h : Nat} {pass : Bool} (hc : Closed 0xEE06 P) (hk0 : P s) :
    P (State.testDone s h pass) := by
  unfold State.testDone
  try dsimp only
  repeat' first
    | with_reducible assumption | exact hc.mono rfl | with_reducible apply inv_upSpine | with_reducible apply inv_upCache
    | with_reducible apply inv_fault | with_reducible apply inv_bump | with_reducible apply inv_setFld
    | with_reducible refine inv_ite ?_ ?_ | with_reducible refine inv_ite_fst ?_ ?_ | with_reducible refine inv_ite_snd ?_ ?_ | split
    | intro

theorem inv_voltageStep {P : State → Prop} {s : State} (hc : Closed 0x1 P) (hk0 : P s) :
    P (State.voltageStep s) := by
  unfold State.voltageStep
  try dsimp only
  repeat' first
    | with_reducible assumption | exact hc.mono rfl | with_reducible apply inv_upCtl | with_reducible refine inv_ite ?_ ?_
    | with_reducible refine inv_ite_fst ?_ ?_ | with_reducible refine inv_ite_snd ?_ ?_ | exact fun _ => Nat.le_refl _
    | exact fun _ => Nat.le_max_left _ _ | exact fun _ => Or.inl rfl | exact fun _ => Or.inr rfl | split | intro

theorem inv_tierSTemps {P : State → Prop} {s : State} {temps : List Nat} {powerLimit : Nat} (hc : Closed 0x3 P) (hk0 : P s) :
    P (State.tierSTemps s temps powerLimit) := by
  unfold State.tierSTemps
  try dsimp only
  repeat' first
    | with_reducible assumption | exact hc.mono rfl | with_reducible apply inv_upCtl | with_reducible apply inv_voltageStep
    | with_reducible apply inv_setRefuseAll | with_reducible apply inv_evalFloor | with_reducible apply inv_moveThrottle
    | with_reducible apply inv_chooseTarget | with_reducible apply inv_bump | with_reducible apply inv_setFld
    | with_reducible refine inv_foldl ?_ ?_ | with_reducible refine inv_foldl_fst ?_ ?_ | with_reducible refine inv_ite ?_ ?_
    | with_reducible refine inv_ite_fst ?_ ?_ | with_reducible refine inv_ite_snd ?_ ?_ | exact fun _ => Nat.le_refl _
    | exact fun _ => Nat.le_max_left _ _ | exact fun _ => Or.inl rfl | exact fun _ => Or.inr rfl | split | intro

theorem inv_trainC {P : State → Prop} {s : State} {r : TrainResult} (hc : Closed 0x2003 P) (hk0 : P s) :
    P (State.trainC s r) := by
  unfold State.trainC
  try dsimp only
  repeat' first
    | with_reducible assumption | exact hc.mono rfl | with_reducible apply inv_setReg | with_reducible apply inv_upFlash
    | with_reducible apply inv_upCtl | with_reducible apply inv_setFld | with_reducible refine inv_foldl ?_ ?_
    | with_reducible refine inv_foldl_fst ?_ ?_ | with_reducible refine inv_ite ?_ ?_ | with_reducible refine inv_ite_fst ?_ ?_
    | with_reducible refine inv_ite_snd ?_ ?_ | exact fun _ => Nat.le_refl _ | exact fun _ => Nat.le_max_left _ _
    | exact fun _ => Or.inl rfl | exact fun _ => Or.inr rfl | split | intro

theorem inv_trainF {P : State → Prop} {s : State} {r : TrainResult} (hc : Closed 0xEE07 P) (hk0 : P s) :
    P (State.trainF s r) := by
  unfold State.trainF
  try dsimp only
  repeat' first
    | with_reducible assumption | exact hc.mono rfl | with_reducible apply inv_upCtl | with_reducible apply inv_fault
    | with_reducible apply inv_setFld | with_reducible refine inv_foldl ?_ ?_ | with_reducible refine inv_foldl_fst ?_ ?_
    | with_reducible refine inv_ite ?_ ?_ | with_reducible refine inv_ite_fst ?_ ?_ | with_reducible refine inv_ite_snd ?_ ?_
    | exact fun _ => Nat.le_refl _ | exact fun _ => Nat.le_max_left _ _ | exact fun _ => Or.inl rfl | exact fun _ => Or.inr rfl | split
    | intro

theorem inv_trainS {P : State → Prop} {s : State} {r : TrainResult} (hc : Closed 0x8003 P) (hk0 : P s) :
    P (State.trainS s r) := by
  unfold State.trainS
  try dsimp only
  repeat' first
    | with_reducible assumption | exact hc.mono rfl | with_reducible apply inv_upSpine | with_reducible apply inv_upCtl
    | with_reducible apply inv_bump | with_reducible apply inv_setFld | with_reducible refine inv_foldl ?_ ?_
    | with_reducible refine inv_foldl_fst ?_ ?_ | with_reducible refine inv_ite ?_ ?_ | with_reducible refine inv_ite_fst ?_ ?_
    | with_reducible refine inv_ite_snd ?_ ?_ | exact fun _ => Nat.le_refl _ | exact fun _ => Nat.le_max_left _ _
    | exact fun _ => Or.inl rfl | exact fun _ => Or.inr rfl | split | intro

theorem inv_trainTiers {P : State → Prop} {s : State} {r : TrainResult} (hc : Closed 0xEE07 P) (hk0 : P s) :
    P (State.trainTiers s r) := by
  unfold State.trainTiers
  try dsimp only
  repeat' first
    | with_reducible assumption | exact hc.mono rfl | with_reducible apply inv_upFlash | with_reducible apply inv_upCtl
    | with_reducible apply inv_trainS | with_reducible apply inv_trainF | with_reducible apply inv_trainC
    | with_reducible apply inv_tryValid | with_reducible apply inv_setFld | with_reducible refine inv_ite ?_ ?_
    | with_reducible refine inv_ite_fst ?_ ?_ | with_reducible refine inv_ite_snd ?_ ?_ | exact fun _ => Nat.le_refl _
    | exact fun _ => Nat.le_max_left _ _ | exact fun _ => Or.inl rfl | exact fun _ => Or.inr rfl | split | intro

theorem inv_vddSettled {P : State → Prop} {s : State} (hc : Closed 0x3 P) (hk0 : P s) :
    P (State.vddSettled s) := by
  unfold State.vddSettled
  try dsimp only
  repeat' first
    | with_reducible assumption | exact hc.mono rfl | with_reducible apply inv_upCtl | with_reducible apply inv_voltageStep
    | with_reducible apply inv_setFld | with_reducible refine inv_ite ?_ ?_ | with_reducible refine inv_ite_fst ?_ ?_
    | with_reducible refine inv_ite_snd ?_ ?_ | exact fun _ => Nat.le_refl _ | exact fun _ => Nat.le_max_left _ _
    | exact fun _ => Or.inl rfl | exact fun _ => Or.inr rfl | split | intro

theorem inv_walkDone {P : State → Prop} {s : State} {h : Nat} (hc : Closed 0x202 P) (hk0 : P s) :
    P (State.walkDone s h) := by
  unfold State.walkDone
  try dsimp only
  repeat' first
    | with_reducible assumption | exact hc.mono rfl | with_reducible apply inv_upCache | with_reducible apply inv_rehash
    | with_reducible apply inv_setFld | with_reducible refine inv_ite ?_ ?_ | with_reducible refine inv_ite_fst ?_ ?_
    | with_reducible refine inv_ite_snd ?_ ?_ | split | intro



end Sys2Proof.Machine
end

