-- ==== Sys2Proof/Laws/Keeps.lean ====
section
/-! SUPPORT. What every operation keeps: waiting commands, canonical memory and registers, the clock, fuses, the running life; and the
parts of the state that a set of operations touches. -/

namespace Sys2Proof.Machine

theorem fusesGrow_refl (f : Fuses) : FusesGrow f f := ⟨rfl, rfl, rfl, Nat.le_refl _, fun _ _ h => h⟩
theorem fusesGrow_trans {a b c : Fuses} (h : FusesGrow a b) (k : FusesGrow b c) : FusesGrow a c :=
  ⟨k.uds.trans h.uds, k.keys.trans h.keys, k.approved.trans h.approved, Nat.le_trans h.svn k.svn, fun i hi x => k.revoked i hi (h.revoked i hi x)⟩

/-- What every command keeps: registers and memory in their one form, the commands that wait, the device secret; time does not run
backward and the security version does not fall. -/
structure Steady (s t : State) : Prop where
  regs : regsWf s.regs = true → regsWf t.regs = true
  pending : t.pending = s.pending
  now : s.ctl.now ≤ t.ctl.now
  mem : Memory.wf s.mem = true → Memory.wf t.mem = true
  fuses : FusesGrow s.fuses t.fuses

/-- What every operation other than reset and boot keeps: the block also runs on, unless it stops. -/
structure Keeps (s t : State) : Prop extends Steady s t where
  life : t.ctl.life = s.ctl.life ∨ t.ctl.life = .stopped

theorem Steady.refl (s : State) : Steady s s := ⟨id, rfl, Nat.le_refl _, id, fusesGrow_refl _⟩
theorem Steady.trans {a b c : State} (h : Steady a b) (k : Steady b c) : Steady a c :=
  ⟨fun x => k.regs (h.regs x), k.pending.trans h.pending, Nat.le_trans h.now k.now, fun x => k.mem (h.mem x),
    fusesGrow_trans h.fuses k.fuses⟩

theorem Keeps.refl (s : State) : Keeps s s := ⟨Steady.refl s, .inl rfl⟩
theorem Keeps.trans {a b c : State} (h : Keeps a b) (k : Keeps b c) : Keeps a c := by
  refine ⟨h.toSteady.trans k.toSteady, ?_⟩
  rcases k.life with e | e
  · rw [e]; exact h.life
  · exact .inr e

theorem steady_closed (s0 : State) : Closed 0x1FFFF (Steady s0) where
  upCtl := fun _ _ _ hn _ h => h.trans ⟨id, rfl, hn _, id, fusesGrow_refl _⟩
  setReg := fun _ s off v h => h.trans ⟨regsWf_setReg s off v, rfl, Nat.le_refl _, id, fusesGrow_refl _⟩
  store := fun _ s k bs h => h.trans ⟨id, rfl, Nat.le_refl _, store_wf s k bs, fusesGrow_refl _⟩
  wipe := fun _ _ _ _ h => h.trans ⟨id, rfl, Nat.le_refl _, fun x => wfFrom_filter _ _ _ x, fusesGrow_refl _⟩
  addPoison := fun _ _ _ h => h.trans ⟨id, rfl, Nat.le_refl _, id, fusesGrow_refl _⟩
  setRing := fun _ _ _ _ h => h.trans ⟨id, rfl, Nat.le_refl _, id, fusesGrow_refl _⟩
  setLastRef := fun _ _ _ h => h.trans ⟨id, rfl, Nat.le_refl _, id, fusesGrow_refl _⟩
  upCmds := fun _ _ _ h => h.trans ⟨id, rfl, Nat.le_refl _, id, fusesGrow_refl _⟩
  upTab := fun _ _ _ h => h.trans ⟨id, rfl, Nat.le_refl _, id, fusesGrow_refl _⟩
  upCache := fun _ _ _ h => h.trans ⟨id, rfl, Nat.le_refl _, id, fusesGrow_refl _⟩
  upFab := fun _ _ _ h => h.trans ⟨id, rfl, Nat.le_refl _, id, fusesGrow_refl _⟩
  upTu := fun _ _ _ h => h.trans ⟨id, rfl, Nat.le_refl _, id, fusesGrow_refl _⟩
  setFuses := fun _ _ _ _ hv hr h => h.trans ⟨id, rfl, Nat.le_refl _, id, rfl, rfl, rfl, hv, hr⟩
  upFlash := fun _ _ _ h => h.trans ⟨id, rfl, Nat.le_refl _, id, fusesGrow_refl _⟩
  upSec := fun _ _ _ h => h.trans ⟨id, rfl, Nat.le_refl _, id, fusesGrow_refl _⟩
  upSpine := fun _ _ _ h => h.trans ⟨id, rfl, Nat.le_refl _, id, fusesGrow_refl _⟩
  life := fun _ _ _ hn h => h.trans ⟨id, rfl, hn _, id, fusesGrow_refl _⟩

theorem keeps_closed (s0 : State) : Closed 0xFFFF (Keeps s0) where
  upCtl := fun _ s f hn hl h => h.trans ⟨(steady_closed s).upCtl rfl s f hn hl (Steady.refl s), hl _⟩
  setReg := fun _ s off v h => h.trans ⟨(steady_closed s).setReg rfl s off v (Steady.refl s), .inl rfl⟩
  store := fun _ s k bs h => h.trans ⟨(steady_closed s).store rfl s k bs (Steady.refl s), .inl rfl⟩
  wipe := fun _ s k n h => h.trans ⟨(steady_closed s).wipe rfl s k n (Steady.refl s), .inl rfl⟩
  addPoison := fun _ s w h => h.trans ⟨(steady_closed s).addPoison rfl s w (Steady.refl s), .inl rfl⟩
  setRing := fun _ s n r h => h.trans ⟨(steady_closed s).setRing rfl s n r (Steady.refl s), .inl rfl⟩
  setLastRef := fun _ s r h => h.trans ⟨(steady_closed s).setLastRef rfl s r (Steady.refl s), .inl rfl⟩
  upCmds := fun _ s f h => h.trans ⟨(steady_closed s).upCmds rfl s f (Steady.refl s), .inl rfl⟩
  upTab := fun _ s f h => h.trans ⟨(steady_closed s).upTab rfl s f (Steady.refl s), .inl rfl⟩
  upCache := fun _ s f h => h.trans ⟨(steady_closed s).upCache rfl s f (Steady.refl s), .inl rfl⟩
  upFab := fun _ s f h => h.trans ⟨(steady_closed s).upFab rfl s f (Steady.refl s), .inl rfl⟩
  upTu := fun _ s f h => h.trans ⟨(steady_closed s).upTu rfl s f (Steady.refl s), .inl rfl⟩
  setFuses := fun _ s svn r hv hr h => h.trans ⟨(steady_closed s).setFuses rfl s svn r hv hr (Steady.refl s), .inl rfl⟩
  upFlash := fun _ s f h => h.trans ⟨(steady_closed s).upFlash rfl s f (Steady.refl s), .inl rfl⟩
  upSec := fun _ s f h => h.trans ⟨(steady_closed s).upSec rfl s f (Steady.refl s), .inl rfl⟩
  upSpine := fun _ s f h => h.trans ⟨(steady_closed s).upSpine rfl s f (Steady.refl s), .inl rfl⟩
  life := fun k => absurd k (by decide)

theorem keeps_steady {s0 s : State} (h : Keeps s0 s) : Steady s0 s := h.toSteady

-- Parts

/-- The parts that the operations of a mask touch. -/
def partsOf (m : Nat) : List StatePart :=
  (if Nat.land m 0x1 = 0x1 then [StatePart.ctl] else []) ++
  (if Nat.land m 0x2 = 0x2 then [StatePart.regs] else []) ++
  (if Nat.land m 0x4 = 0x4 then [StatePart.mem, StatePart.poison, StatePart.cache, StatePart.spine] else []) ++
  (if Nat.land m 0x8 = 0x8 then [StatePart.mem, StatePart.poison] else []) ++
  (if Nat.land m 0x10 = 0x10 then [StatePart.poison] else []) ++
  (if Nat.land m 0x20 = 0x20 then [StatePart.rings] else []) ++
  (if Nat.land m 0x40 = 0x40 then [StatePart.lastRef] else []) ++
  (if Nat.land m 0x80 = 0x80 then [StatePart.cmds] else []) ++
  (if Nat.land m 0x100 = 0x100 then [StatePart.tab] else []) ++
  (if Nat.land m 0x200 = 0x200 then [StatePart.cache] else []) ++
  (if Nat.land m 0x400 = 0x400 then [StatePart.fab] else []) ++
  (if Nat.land m 0x800 = 0x800 then [StatePart.tu] else []) ++
  (if Nat.land m 0x1000 = 0x1000 then [StatePart.fuses] else []) ++
  (if Nat.land m 0x2000 = 0x2000 then [StatePart.flash] else []) ++
  (if Nat.land m 0x4000 = 0x4000 then [StatePart.sec] else []) ++
  (if Nat.land m 0x8000 = 0x8000 then [StatePart.spine] else []) ++
  (if Nat.land m 0x10000 = 0x10000 then [StatePart.ctl] else [])

theorem onlyParts_refl (ps : List StatePart) (s : State) : OnlyParts ps s s := by
  constructor <;> first | rfl | exact .inr rfl

theorem onlyParts_mono {ps qs : List StatePart} {s t : State} (h : OnlyParts ps s t) (k : ∀ p, p ∈ ps → p ∈ qs) : OnlyParts qs s t :=
  ⟨h.pending, h.ctl.imp_left (k _), h.regs.imp_left (k _), h.mem.imp_left (k _), h.poison.imp_left (k _), h.rings.imp_left (k _),
    h.lastRef.imp_left (k _), h.cmds.imp_left (k _), h.tab.imp_left (k _), h.cache.imp_left (k _), h.fab.imp_left (k _),
    h.tu.imp_left (k _), h.fuses.imp_left (k _), h.flash.imp_left (k _), h.sec.imp_left (k _), h.spine.imp_left (k _)⟩

theorem onlyParts_trans {ps : List StatePart} {a b c : State} (h : OnlyParts ps a b) (k : OnlyParts ps b c) : OnlyParts ps a c := by
  have f : ∀ {α : Type} {p : StatePart} {x y z : α}, p ∈ ps ∨ y = x → p ∈ ps ∨ z = y → p ∈ ps ∨ z = x := by
    intro α p x y z h k
    rcases h with h | h
    · exact .inl h
    · rcases k with k | k
      · exact .inl k
      · exact .inr (k.trans h)
  exact ⟨k.pending.trans h.pending, f h.ctl k.ctl, f h.regs k.regs, f h.mem k.mem, f h.poison k.poison, f h.rings k.rings,
    f h.lastRef k.lastRef, f h.cmds k.cmds, f h.tab k.tab, f h.cache k.cache, f h.fab k.fab, f h.tu k.tu, f h.fuses k.fuses,
    f h.flash k.flash, f h.sec k.sec, f h.spine k.spine⟩

/-- Operations of a mask touch only its parts. -/
theorem only_closed {m : Nat} {ps : List StatePart} (s0 : State) (hk : ∀ p, p ∈ partsOf m → p ∈ ps) : Closed m (OnlyParts ps s0) where
  upCtl := fun e _ _ _ _ h =>
    have e2 : m &&& 0x1 = 0x1 := e
    onlyParts_trans h ⟨rfl, .inl (hk _ (by simp [partsOf, e2])), .inr rfl, .inr rfl, .inr rfl, .inr rfl, .inr rfl, .inr rfl, .inr rfl, .inr rfl, .inr rfl, .inr rfl, .inr rfl, .inr rfl, .inr rfl, .inr rfl⟩
  setReg := fun e _ _ _ h =>
    have e2 : m &&& 0x2 = 0x2 := e
    onlyParts_trans h ⟨rfl, .inr rfl, .inl (hk _ (by simp [partsOf, e2])), .inr rfl, .inr rfl, .inr rfl, .inr rfl, .inr rfl, .inr rfl, .inr rfl, .inr rfl, .inr rfl, .inr rfl, .inr rfl, .inr rfl, .inr rfl⟩
  store := fun e _ k _ h =>
    have e2 : m &&& 0x4 = 0x4 := e
    onlyParts_trans h ⟨rfl, .inr rfl, .inr rfl, .inl (hk _ (by simp [partsOf, e2])), .inl (hk _ (by simp [partsOf, e2])), .inr rfl, .inr rfl, .inr rfl, .inr rfl, .inl (hk _ (by simp [partsOf, e2])), .inr rfl, .inr rfl, .inr rfl, .inr rfl, .inr rfl, .inl (hk _ (by simp [partsOf, e2]))⟩
  wipe := fun e _ k _ h =>
    have e2 : m &&& 0x8 = 0x8 := e
    onlyParts_trans h ⟨rfl, .inr rfl, .inr rfl, .inl (hk _ (by simp [partsOf, e2])), .inl (hk _ (by simp [partsOf, e2])), .inr rfl, .inr rfl, .inr rfl, .inr rfl, .inr rfl, .inr rfl, .inr rfl, .inr rfl, .inr rfl, .inr rfl, .inr rfl⟩
  addPoison := fun e _ _ h =>
    have e2 : m &&& 0x10 = 0x10 := e
    onlyParts_trans h ⟨rfl, .inr rfl, .inr rfl, .inr rfl, .inl (hk _ (by simp [partsOf, e2])), .inr rfl, .inr rfl, .inr rfl, .inr rfl, .inr rfl, .inr rfl, .inr rfl, .inr rfl, .inr rfl, .inr rfl, .inr rfl⟩
  setRing := fun e _ _ _ h =>
    have e2 : m &&& 0x20 = 0x20 := e
    onlyParts_trans h ⟨rfl, .inr rfl, .inr rfl, .inr rfl, .inr rfl, .inl (hk _ (by simp [partsOf, e2])), .inr rfl, .inr rfl, .inr rfl, .inr rfl, .inr rfl, .inr rfl, .inr rfl, .inr rfl, .inr rfl, .inr rfl⟩
  setLastRef := fun e _ _ h =>
    have e2 : m &&& 0x40 = 0x40 := e
    onlyParts_trans h ⟨rfl, .inr rfl, .inr rfl, .inr rfl, .inr rfl, .inr rfl, .inl (hk _ (by simp [partsOf, e2])), .inr rfl, .inr rfl, .inr rfl, .inr rfl, .inr rfl, .inr rfl, .inr rfl, .inr rfl, .inr rfl⟩
  upCmds := fun e _ _ h =>
    have e2 : m &&& 0x80 = 0x80 := e
    onlyParts_trans h ⟨rfl, .inr rfl, .inr rfl, .inr rfl, .inr rfl, .inr rfl, .inr rfl, .inl (hk _ (by simp [partsOf, e2])), .inr rfl, .inr rfl, .inr rfl, .inr rfl, .inr rfl, .inr rfl, .inr rfl, .inr rfl⟩
  upTab := fun e _ _ h =>
    have e2 : m &&& 0x100 = 0x100 := e
    onlyParts_trans h ⟨rfl, .inr rfl, .inr rfl, .inr rfl, .inr rfl, .inr rfl, .inr rfl, .inr rfl, .inl (hk _ (by simp [partsOf, e2])), .inr rfl, .inr rfl, .inr rfl, .inr rfl, .inr rfl, .inr rfl, .inr rfl⟩
  upCache := fun e _ _ h =>
    have e2 : m &&& 0x200 = 0x200 := e
    onlyParts_trans h ⟨rfl, .inr rfl, .inr rfl, .inr rfl, .inr rfl, .inr rfl, .inr rfl, .inr rfl, .inr rfl, .inl (hk _ (by simp [partsOf, e2])), .inr rfl, .inr rfl, .inr rfl, .inr rfl, .inr rfl, .inr rfl⟩
  upFab := fun e _ _ h =>
    have e2 : m &&& 0x400 = 0x400 := e
    onlyParts_trans h ⟨rfl, .inr rfl, .inr rfl, .inr rfl, .inr rfl, .inr rfl, .inr rfl, .inr rfl, .inr rfl, .inr rfl, .inl (hk _ (by simp [partsOf, e2])), .inr rfl, .inr rfl, .inr rfl, .inr rfl, .inr rfl⟩
  upTu := fun e _ _ h =>
    have e2 : m &&& 0x800 = 0x800 := e
    onlyParts_trans h ⟨rfl, .inr rfl, .inr rfl, .inr rfl, .inr rfl, .inr rfl, .inr rfl, .inr rfl, .inr rfl, .inr rfl, .inr rfl, .inl (hk _ (by simp [partsOf, e2])), .inr rfl, .inr rfl, .inr rfl, .inr rfl⟩
  setFuses := fun e _ _ _ _ _ h =>
    have e2 : m &&& 0x1000 = 0x1000 := e
    onlyParts_trans h ⟨rfl, .inr rfl, .inr rfl, .inr rfl, .inr rfl, .inr rfl, .inr rfl, .inr rfl, .inr rfl, .inr rfl, .inr rfl, .inr rfl, .inl (hk _ (by simp [partsOf, e2])), .inr rfl, .inr rfl, .inr rfl⟩
  upFlash := fun e _ _ h =>
    have e2 : m &&& 0x2000 = 0x2000 := e
    onlyParts_trans h ⟨rfl, .inr rfl, .inr rfl, .inr rfl, .inr rfl, .inr rfl, .inr rfl, .inr rfl, .inr rfl, .inr rfl, .inr rfl, .inr rfl, .inr rfl, .inl (hk _ (by simp [partsOf, e2])), .inr rfl, .inr rfl⟩
  upSec := fun e _ _ h =>
    have e2 : m &&& 0x4000 = 0x4000 := e
    onlyParts_trans h ⟨rfl, .inr rfl, .inr rfl, .inr rfl, .inr rfl, .inr rfl, .inr rfl, .inr rfl, .inr rfl, .inr rfl, .inr rfl, .inr rfl, .inr rfl, .inr rfl, .inl (hk _ (by simp [partsOf, e2])), .inr rfl⟩
  upSpine := fun e _ _ h =>
    have e2 : m &&& 0x8000 = 0x8000 := e
    onlyParts_trans h ⟨rfl, .inr rfl, .inr rfl, .inr rfl, .inr rfl, .inr rfl, .inr rfl, .inr rfl, .inr rfl, .inr rfl, .inr rfl, .inr rfl, .inr rfl, .inr rfl, .inr rfl, .inl (hk _ (by simp [partsOf, e2]))⟩
  life := fun e _ _ _ h =>
    have e2 : m &&& 0x10000 = 0x10000 := e
    onlyParts_trans h ⟨rfl, .inl (hk _ (by simp [partsOf, e2])), .inr rfl, .inr rfl, .inr rfl, .inr rfl, .inr rfl, .inr rfl, .inr rfl, .inr rfl, .inr rfl, .inr rfl, .inr rfl, .inr rfl, .inr rfl, .inr rfl⟩

end Sys2Proof.Machine
end

