-- ==== Sys2Proof/Laws/Units.lean ====
section
/-! SUPPORT. Whole effects of shared operations: a register write, a counter, a fault record, and an event that lets nothing go on. -/

namespace Sys2Proof.Machine

-- Register writes

theorem fieldWrite_lt {locked : Bool} {v old : Nat} {x : Fld} (h : old < 2 ^ 64) (hw : x.lo + x.w ≤ 64) :
    fieldWrite locked v old x < 2 ^ 64 := by
  unfold fieldWrite
  split <;> (try split) <;> first | exact h | exact setBits_lt h hw

theorem fieldWrite_same (locked : Bool) (v old : Nat) (x : Fld) :
    bits (fieldWrite locked v old x) x.lo x.w = fieldAfter locked v old x := by
  have e : ∀ n, n < 2 ^ x.w → n % 2 ^ x.w = n := fun n h => Nat.mod_eq_of_lt h
  have b : ∀ n, bits n x.lo x.w < 2 ^ x.w := fun n => bits_lt n x.lo x.w
  unfold fieldWrite fieldAfter
  cases x.acc <;> dsimp only
  case rw => rw [bits_setBits, e _ (b v)]
  case rwl => cases locked <;> simp [bits_setBits, e _ (b v)]
  case w1c => rw [bits_setBits, e _ (Nat.lt_of_le_of_lt Nat.and_le_left (b old))]
  case w1s => rw [bits_setBits, e _ (Nat.or_lt_two_pow (b old) (b v))]

theorem fieldWrite_testBit (locked : Bool) (v old : Nat) (x : Fld) (i : Nat) (h : ¬ (x.lo ≤ i ∧ i < x.lo + x.w)) :
    (fieldWrite locked v old x).testBit i = old.testBit i := by
  have k : ∀ n, (setBits old x.lo x.w n).testBit i = old.testBit i := fun n => by
    rw [setBits_testBit]
    by_cases a : i < x.lo
    · rw [if_pos a]
    · rw [if_neg a, if_neg (by omega)]
  unfold fieldWrite
  split <;> (try split) <;> first | rfl | exact k _

/-- Two fields without a common bit. -/
def Fld.apart (x y : Fld) : Bool := decide (x.lo + x.w ≤ y.lo ∨ y.lo + y.w ≤ x.lo)

theorem bits_congr {a b lo w : Nat} (h : ∀ i, lo ≤ i → i < lo + w → a.testBit i = b.testBit i) : bits a lo w = bits b lo w := by
  apply Nat.eq_of_testBit_eq
  intro i
  rw [bits_testBit, bits_testBit]
  by_cases k : i < w
  · rw [h (lo + i) (by omega) (by omega)]
  · simp [k]

theorem fieldAfter_congr {locked : Bool} {v a b : Nat} {x : Fld} (h : bits a x.lo x.w = bits b x.lo x.w) :
    fieldAfter locked v a x = fieldAfter locked v b x := by
  unfold fieldAfter
  rw [h]

theorem fields_fold (locked : Bool) (v : Nat) (fs : List Fld) (hd : fs.Pairwise (fun x y => x.apart y = true)) (old : Nat) (x : Fld)
    (hx : x ∈ fs) : bits (fs.foldl (fieldWrite locked v) old) x.lo x.w = fieldAfter locked v old x := by
  induction fs generalizing old with
  | nil => cases hx
  | cons y ys ih =>
    rw [List.pairwise_cons] at hd
    rw [List.foldl_cons]
    rcases List.mem_cons.1 hx with e | e
    · subst e
      have keep : ∀ (l : List Fld) (o : Nat), (∀ z ∈ l, x.apart z = true) → bits (l.foldl (fieldWrite locked v) o) x.lo x.w = bits o x.lo x.w := by
        intro l
        induction l with
        | nil => intro _ _; rfl
        | cons z zs iz =>
          intro o hz
          rw [List.foldl_cons, iz _ (fun w hw => hz w (List.mem_cons_of_mem _ hw))]
          have a := hz z List.mem_cons_self
          simp only [Fld.apart, decide_eq_true_eq] at a
          exact bits_congr (fun i _ _ => fieldWrite_testBit locked v o z i (by omega))
      rw [keep ys _ hd.1, fieldWrite_same]
    · rw [ih hd.2 _ e]
      have a := hd.1 x e
      simp only [Fld.apart, decide_eq_true_eq] at a
      exact fieldAfter_congr (bits_congr (fun i _ _ => fieldWrite_testBit locked v old y i (by omega)))

theorem fields_fold_lt {locked : Bool} {v : Nat} {fs : List Fld} (hf : ∀ x ∈ fs, x.lo + x.w ≤ 64) {old : Nat} (h : old < 2 ^ 64) :
    fs.foldl (fieldWrite locked v) old < 2 ^ 64 := by
  induction fs generalizing old with
  | nil => exact h
  | cons y ys ih => exact ih (fun x hx => hf x (List.mem_cons_of_mem _ hx)) (fieldWrite_lt h (hf y List.mem_cons_self))

theorem fields_fold_testBit (locked : Bool) (v : Nat) (fs : List Fld) (old i : Nat) (h : ∀ x ∈ fs, ¬ (x.lo ≤ i ∧ i < x.lo + x.w)) :
    (fs.foldl (fieldWrite locked v) old).testBit i = old.testBit i := by
  induction fs generalizing old with
  | nil => rfl
  | cons y ys ih =>
    rw [List.foldl_cons, ih _ (fun x hx => h x (List.mem_cons_of_mem _ hx)), fieldWrite_testBit _ _ _ _ _ (h y List.mem_cons_self)]

set_option maxRecDepth 20000 in
theorem regTable_fields : ∀ d ∈ regTable, d.fields.Pairwise (fun x y => x.apart y = true) ∧ ∀ x ∈ d.fields, x.lo + x.w ≤ 64 := by decide

/-- A register write by fields takes each field by its access code and touches no other register. -/
theorem State.writeFields_taken (s : State) (off v : Nat) : FieldsTaken off v s (s.writeFields off v) := by
  unfold State.writeFields
  cases hr : regAt off with
  | none => exact ⟨fun d h => absurd (hr.symm.trans h) (by simp), fun _ _ => rfl, fun _ _ => rfl⟩
  | some d =>
    have hd := regTable_fields d (List.mem_of_find?_eq_some hr)
    have lt := fields_fold_lt (locked := s.locked) (v := v) hd.2 (s.reg_lt off)
    have e : ∀ y, (s.setReg off (d.fields.foldl (fieldWrite s.locked v) (s.reg off))).reg y =
        if y = off then d.fields.foldl (fieldWrite s.locked v) (s.reg off) else s.reg y := by
      intro y
      rw [State.reg_setReg]
      split
      · exact Nat.mod_eq_of_lt lt
      · rfl
    refine ⟨fun d' h x hx => ?_, fun i h => ?_, fun y h => ?_⟩
    · rw [hr] at h
      cases h
      unfold State.fld
      rw [e, if_pos rfl]
      exact fields_fold _ _ _ hd.1 _ _ hx
    · rw [e, if_pos rfl]
      exact fields_fold_testBit _ _ _ _ _ (h d hr)
    · rw [e, if_neg (by simpa using h)]

theorem State.writeFields_parts (s : State) (off v : Nat) : OnlyParts [.regs] s (s.writeFields off v) := by
  unfold State.writeFields
  split <;> constructor <;> first | exact .inl (by decide) | exact .inr rfl | rfl

-- Registers that stay

theorem onlyRegs_refl (l : List Nat) (s : State) : OnlyRegs l s s := fun _ _ => rfl
theorem onlyRegs_trans {l : List Nat} {a b c : State} (h : OnlyRegs l a b) (k : OnlyRegs l b c) : OnlyRegs l a c :=
  fun off ho => (k off ho).trans (h off ho)
theorem onlyRegs_mono {l m : List Nat} {a b : State} (h : OnlyRegs l a b) (hs : ∀ x ∈ l, x ∈ m) : OnlyRegs m a b :=
  fun off ho => h off (fun hx => ho (hs off hx))
theorem onlyRegs_of_regs {l : List Nat} {a b : State} (h : b.regs = a.regs) : OnlyRegs l a b := fun off _ => by
  unfold State.reg; rw [h]

theorem inv_of_foldl {α : Type} (P : State → Prop) {f : State → α → State} {i : State} {l : List α} (hi : P i)
    (hf : ∀ s x, P s → P (f s x)) : P (l.foldl f i) := inv_foldl hi hf

theorem State.setReg_regs (s : State) (off v : Nat) : OnlyRegs [off] s (s.setReg off v) := fun y h => by
  rw [State.reg_setReg, if_neg (by simpa using h)]
theorem State.setFld_regs (s : State) (off lo w x : Nat) : OnlyRegs [off] s (s.setFld off lo w x) := s.setReg_regs off _
theorem State.bump_regs (s : State) (off n : Nat) : OnlyRegs [off] s (s.bump off n) := by
  unfold State.bump
  split
  · exact onlyRegs_refl _ _
  · exact s.setReg_regs off _
theorem State.bump_counted (s : State) (off : Nat) : Counted off s (s.bump off 1) := by
  unfold State.bump Counted
  rw [if_neg (by decide), State.reg_setReg, if_pos rfl]
  unfold satAdd
  exact Nat.mod_eq_of_lt (Nat.lt_of_le_of_lt (Nat.min_le_right _ _) (by decide))

-- Events that let nothing go on

theorem State.upTab_self (s : State) (f : Tables → Tables) (h : f s.tab = s.tab) : s.upTab f = s := by
  cases s; simp only [State.upTab] at *; rw [h]

theorem State.settle_quiet (s : State) (h : Quiet s) : s.settle = s := by
  have a : s.pokeAll = s := by
    unfold State.pokeAll
    rw [h.ops]
    simp only [List.map_nil, List.foldl_nil]
    have e : s.retryCarries = s := by unfold State.retryCarries; rw [h.carries]; rfl
    rw [e, h.owed, State.upTab_self s _ (by simp only [h.owed, List.filter_nil]; rw [← h.owed])]
    rfl
  have b : s.runWaiting = s := by
    unfold State.runWaiting
    rw [List.filter_eq_nil_iff.2, List.map_nil, List.foldl_nil]
    intro c hc
    rcases h.cmds c hc with e | e <;> rw [e] <;> simp
  have d : s.runDrains = s := by unfold State.runDrains; rw [h.lb]; rfl
  unfold State.settle
  rw [a, b, d]
  unfold State.owedNotify
  rw [h.notify]
  rfl

-- Faults

/-- Only a change of the spine itself changes its fault records. -/
theorem faults_closed (l : List FaultRec) : Closed 0x17FFF (fun u => u.spine.faults = l) := by
  constructor <;> intros <;> first | assumption | (exfalso; revert ‹Nat.land _ _ = _›; decide)

theorem State.owedNotify_faults (s : State) : s.owedNotify.spine.faults = s.spine.faults := by
  unfold State.owedNotify
  split <;> split <;> first | rfl | exact inv_ownWrite ((faults_closed s.spine.faults).mono (by decide)) rfl

/-- A write through the merging buffer changes no register but its counter of a full buffer (07 R283). -/
theorem State.mbLine_regs (s : State) (line m : Nat) : OnlyRegs [MD_MB_FULL] s (s.mbLine line m) := by
  unfold State.mbLine
  split
  · exact onlyRegs_of_regs rfl
  · dsimp only
    split <;> split <;> first
      | exact onlyRegs_trans (State.bump_regs s MD_MB_FULL 1) (onlyRegs_of_regs rfl)
      | exact onlyRegs_of_regs rfl

theorem State.mbWrite_regs (s : State) (g n : Nat) : OnlyRegs [MD_MB_FULL] s (s.mbWrite g n) :=
  inv_of_foldl (fun u => OnlyRegs [MD_MB_FULL] s u) (onlyRegs_refl _ _) (fun u x h => onlyRegs_trans h (u.mbLine_regs x _))

theorem State.putRecord_regs (s : State) (k : Nat) (bs : List Byte) : OnlyRegs [MD_MB_FULL] s (s.putRecord k bs) :=
  onlyRegs_trans (b := s.putMeta k bs)
    (onlyRegs_trans (b := s.store k bs) (onlyRegs_of_regs rfl) (State.mbWrite_regs _ _ _)) (onlyRegs_of_regs rfl)

theorem State.hostPackets_regs (s : State) (ctx a n : Nat) (ring : Option Nat) (h : Nat) :
    (s.hostPackets ctx a n ring h).regs = s.regs :=
  inv_of_foldl (fun u => u.regs = s.regs) rfl (fun _ _ h => h)

theorem State.ownWrite_regs (s : State) (a : Nat) (bs : List Byte) (h : gBlock a = s.id) : OnlyRegs [MD_MB_FULL] s (s.ownWrite a bs) := by
  unfold State.ownWrite
  rw [if_pos h]
  split
  · exact onlyRegs_refl _ _
  · split
    · unfold State.hostRecord
      split
      · exact onlyRegs_trans (onlyRegs_of_regs (State.hostPackets_regs _ _ _ _ _ _)) (State.putRecord_regs _ _ _)
      · exact onlyRegs_refl _ _
    · exact State.putRecord_regs _ _ _

theorem State.owedNotify_regs (s : State) (h : gBlock (s.reg TT_NOTIFY_ADDR) = s.id) : OnlyRegs [MD_MB_FULL] s s.owedNotify := by
  unfold State.owedNotify
  repeat' split
  all_goals first
    | exact onlyRegs_refl _ _
    | exact onlyRegs_trans (b := s.upSpine _) (onlyRegs_of_regs rfl) (State.ownWrite_regs _ _ _ h)

theorem State.pushFault_newest (s : State) (r : FaultRec) : ∃ rest, (s.pushFault r).spine.faults = r :: rest := by
  refine ⟨(r :: s.spine.faults).tail.take 255, ?_⟩
  have e : (r :: s.spine.faults).take 256 = r :: (r :: s.spine.faults).tail.take 255 := rfl
  unfold State.pushFault
  dsimp only
  have bumpf : ∀ (u : State) o, (u.bump o 1).spine.faults = u.spine.faults := fun u o => by unfold State.bump; split <;> rfl
  rw [← e]
  repeat' split
  all_goals first
    | rfl
    | (rw [State.owedNotify_faults]; rfl)
    | (rw [bumpf]; rfl)
    | (rw [bumpf, State.owedNotify_faults]; rfl)
    | (show (State.owedNotify _).spine.faults = _; rw [State.owedNotify_faults]; rfl)

/-- After a fault the newest record holds its source, cause and detail. -/
theorem State.fault_newest (s : State) (cls source cause detail : Nat) : FaultNewest source cause detail (s.fault cls source cause detail) := by
  unfold State.fault
  split
  · split
    · rename_i h
      exact ⟨_, _, rfl, h.1, h.2.1, h.2.2.1⟩
    · obtain ⟨rest, h⟩ := State.pushFault_newest s _
      exact ⟨_, rest, h, rfl, rfl, rfl⟩
  · obtain ⟨rest, h⟩ := State.pushFault_newest s _
    exact ⟨_, rest, h, rfl, rfl, rfl⟩

theorem State.pushFault_regs (s : State) (r : FaultRec) (h : NotifiesHere s) : OnlyRegs faultRegs s (s.pushFault r) := by
  have mem : ∀ x ∈ [TT_FAULT_SEQ], x ∈ faultRegs := by decide
  have note : ∀ u : State, NotifiesHere u → OnlyRegs faultRegs u
      (if (u.flag TT_CFG 3 && decide (r.cls ≥ u.fld TT_CFG 0 3)) = true then
        (u.upSpine (fun x => { x with notifyOwed := true })).owedNotify else u) := by
    intro u hu
    split
    · rename_i hc
      rcases hu with e | e
      · rw [e] at hc; exact absurd hc (by simp)
      · exact onlyRegs_trans (onlyRegs_of_regs rfl) (onlyRegs_mono (State.owedNotify_regs _ e) (by decide))
    · exact onlyRegs_refl _ _
  have keep : ∀ u : State, OnlyRegs faultRegs s u → NotifiesHere u := by
    intro u hu
    unfold NotifiesHere State.flag State.id State.fld
    rw [hu TT_CFG (by decide), hu TT_NOTIFY_ADDR (by decide), hu CC_BLOCK_ID (by decide)]
    exact h
  have one : ∀ (off : Nat) (u v : State), off ∈ faultRegs → OnlyRegs [off] u v → OnlyRegs faultRegs u v :=
    fun off u v hm k => onlyRegs_mono k (by simpa using hm)
  unfold State.pushFault
  dsimp only
  generalize hs1 : (if decide (s.spine.faults.length ≥ 256) = true then _ else _ : State) = s1
  have h1 : OnlyRegs faultRegs s s1 := by
    rw [← hs1]
    split
    · exact onlyRegs_trans (onlyRegs_trans (onlyRegs_of_regs rfl) (one _ _ _ (by decide) (State.bump_regs _ TT_FAULT_DROP 1)))
        (one _ _ _ (by decide) (State.setFld_regs _ TT_FAULT_STATUS 6 1 1))
    · exact onlyRegs_of_regs rfl
  generalize hs2 : State.setFld (State.setReg s1 TT_FAULT_SEQ _) TT_FAULT_STATUS _ 1 1 = s2
  have h2 : OnlyRegs faultRegs s s2 := by
    rw [← hs2]
    exact onlyRegs_trans (onlyRegs_trans h1 (one _ _ _ (by decide) (State.setReg_regs _ TT_FAULT_SEQ _)))
      (one _ _ _ (by decide) (State.setFld_regs _ TT_FAULT_STATUS _ 1 1))
  have key : ∀ s3 : State, OnlyRegs faultRegs s s3 → OnlyRegs faultRegs s
      (if (r.cls < 4 || s3.fld (CC_CORE 0) 2 2 == 3) = true then s3
       else if (match s3.spine.lastFlash with | none => true | some t => decide (s3.ctl.now ≥ t + 10 * ms)) = true then
        (s3.upSpine (fun x => { x with lastFlash := some s3.ctl.now })).upFlash (fun f => { f with faults := f.faults ++ [r] })
       else s3.bump TT_FLASH_SKIP 1) := by
    intro s3 h3
    repeat' split
    all_goals first
      | exact h3
      | exact onlyRegs_trans h3 (onlyRegs_of_regs rfl)
      | exact onlyRegs_trans h3 (one _ _ _ (by decide) (State.bump_regs _ TT_FLASH_SKIP 1))
  exact key _ (onlyRegs_trans h2 (note s2 (keep s2 h2)))

/-- A fault changes no register but those of the fault log when its notification does not leave for another block. -/
theorem State.fault_regs (s : State) (cls source cause detail : Nat) (h : NotifiesHere s) :
    OnlyRegs faultRegs s (s.fault cls source cause detail) := by
  unfold State.fault
  split
  · split
    · exact onlyRegs_of_regs rfl
    · exact s.pushFault_regs _ h
  · exact s.pushFault_regs _ h

theorem State.fault_parts (s : State) (cls source cause detail : Nat) : OnlyParts faultParts s (s.fault cls source cause detail) :=
  inv_fault (only_closed s (m := 0xEE06) (by decide)) (onlyParts_refl _ _)

end Sys2Proof.Machine
end

