-- ==== Sys2Proof/WellFormed.lean ====
section
/-! DEFINITION. Well-formed commands: block numbers, handles, frames, messages and Table Keeper headers within the ranges that the
manual gives their fields. -/

namespace Sys2Proof

open Sys2Proof.Machine

/-- A REG source is a block number of 15 bits (01 R36). -/
def Src.wf : Src → Bool
  | .reg b => decide (b < 32768)
  | _ => true

/-- A handle that an acceptance record can carry (03 R108). -/
def handleWf (h : Handle) : Bool := h != noHandle

/-- A frame has an Ethernet header and at most the 9,216 B of 09 R327, FCS included. -/
def Frame.wf (f : Frame) : Bool := decide (14 ≤ f.bytes.length ∧ f.bytes.length ≤ 9212)

/-- A message of a type: its header names the type and the length (09 R350). -/
def msgWf (mtype : Nat) (m : List Byte) : Bool :=
  decide (16 ≤ m.length ∧ m.length ≤ 65536) && leAt m 0 1 == mtype && leAt m 4 4 == m.length

/-- A Table Keeper header (09 R350). -/
def TkHdr.wf (h : TkHdr) : Bool := decide (h.src < 32768 ∧ h.lane < 4 ∧ h.handle < 2 ^ 32 ∧ h.xid < 2 ^ 32 ∧ h.list.length ≤ 8)

/-- Table identifier and version (02 R48, R53). -/
def tblWf (t : Nat) : Bool := decide (t < 2 ^ 24)
def verWf (v : Nat) : Bool := decide (v < 65536)

/-- Bodies that CLAIM carries (12 R481). -/
def claimBody : TkBody → Bool
  | .claim t _ => tblWf t
  | .release t => tblWf t
  | .publishReq t i f => tblWf t && decide (i ≤ 1 ∧ f < 2 ^ 64)
  | .switchReq t v => tblWf t && verWf v
  | .migrateReq t v .. => tblWf t && verWf v
  | .entryFetch t v _ => tblWf t && verWf v
  | .mapReq t v _ => tblWf t && verWf v
  | _ => false

/-- Bodies that RESERVE carries. -/
def reserveBody : TkBody → Bool
  | .reserveStorage .. => true
  | .reserveSlots .. => true
  | .releaseSlots .. => true
  | .groupMove .. => true
  | _ => false

/-- Bodies that FAIL_NOTICE carries. -/
def failBody : TkBody → Bool
  | .downReport .. => true
  | .selfReport => true
  | .failed _ => true
  | .tierOut t => decide (t < 3)
  | .declare _ => true
  | .query _ => true
  | .secondaryLost .. => true
  | _ => false

/-- Bodies that IMAGE_PART carries. -/
def imageBody : TkBody → Bool
  | .imagePart .. => true
  | .imageReq .. => true
  | .rowsWrite .. => true
  | .rowsRead .. => true
  | _ => false

/-- A command within the ranges of its fields. -/
def Instr.wf (i : Instr) : Bool :=
  match i with
  | .completionRecord h _ | .nop h | .lookup h _ | .lookupPool h _ | .scatterAdd h _ | .poolBackward h _ | .tableCreate h _
  | .tableDestroy h _ | .versionPublish h _ | .versionSwitch h _ | .rowsWrite h _ | .rowsRead h _ | .migrate h _ | .checkpoint h _
  | .restore h _ | .fence h | .flushCache h | .stats h _ | .commitStep h _ | .attest h _ | .loopbackTest h _ | .diagnostics h
  | .shootDownWaitExpiry h _ | .remoteCutoff h _ => handleWf h
  | .attach s .. | .detach s .. | .dbErrRead s _ | .setupLock s _ | .stop s .. | .restart s .. | .ctxLoad s _ | .ctxStore s _
  | .winLoad s _ | .winStore s _ | .pull s _ | .release s _ | .shootDownGo s _ | .routeLoad s _ | .routeStore s _ | .declare s ..
  | .query s .. | .faultLoad s _ | .holmOfflineWrite s _ | .holmTest s _ | .arm s _ | .mailboxGoIgnored s _ | .mtRegWrite s ..
  | .rcWayDisableWrite s .. | .mdWayDisableWrite s _ | .errSchemeChange s _ | .mcMapoutWrite s _ => s.wf
  | .dlBegin s n | .dlChunk s n | .verify s n | .activate s n | .confirm s n | .certRead s n | .kekSet s n | .sakInstall s n
  | .sakInstallPlain s n | .sakRetire s n | .zeroize s n | .debugUnlock s n => s.wf && decide (n.toNat ≤ 4096)
  | .registerWrite s off _ => s.wf && off.toNat % 8 == 0
  | .apertureAccess _ _ off len bs => decide (off < 2 ^ 41 ∧ 1 ≤ len ∧ len ≤ 4096) && decide (bs.length ≤ len)
  | .data _ f _ | .ack _ f _ | .nak _ f _ | .openFrame _ f _ | .openAck _ f _ | .close _ f _ | .closeAck _ f _ => f.wf
  | .readReq _ m _ => msgWf 0x01 m
  | .poolReq _ m _ => msgWf 0x02 m
  | .readReply _ m _ => msgWf 0x81 m
  | .poolReply _ m _ => msgWf 0x82 m
  | .add _ m _ => msgWf 0x03 m
  | .addAck _ m _ => msgWf 0x83 m
  | .remoteDoorbell _ m _ => msgWf 0x06 m
  | .reg _ m _ => msgWf 0x07 m
  | .regReply _ m => msgWf 0x87 m
  | .memRead _ m => msgWf 0x09 m
  | .memReadReply _ m _ => msgWf 0x89 m
  | .memWrite _ m => msgWf 0x0A m
  | .memWriteAck _ m => msgWf 0x8A m
  | .echo _ m => msgWf 0x0B m
  | .echoReply _ m _ => msgWf 0x8B m
  | .pfcFrame _ _ q _ => q.length == 8 && q.all (fun x => decide (x < 65536))
  | .claim h b => h.wf && claimBody b
  | .recordFetch h t => h.wf && tblWf t
  | .update h _ => h.wf
  | .released h t v _ => h.wf && tblWf t && verWf v
  | .versionPhase h _ t v => h.wf && tblWf t && verWf v
  | .reserve h b => h.wf && reserveBody b
  | .commit h t _ _ l _ => h.wf && tblWf t && decide (l < 32768)
  | .replicaWrite h d _ | .groupCopy h d _ => h.wf && tblWf d.tbl && verWf d.ver
  | .loadReport h r => h.wf && tblWf r.tbl
  | .failNotice h b _ => h.wf && failBody b
  | .redeliverDone h t b => h.wf && tblWf t && decide (b < 32768)
  | .imagePart h b => h.wf && imageBody b
  | .tkReply h _ _ => h.wf
  | .groupMove t v _ d x _ => tblWf t && verWf v && decide (d < 32768 ∧ x < 3)
  | .secondaryRebuild t v _ _ => tblWf t && verWf v
  | .tierReadError _ off _ _ | .rowRepair _ off _ _ => decide (off < 2 ^ 46)
  | .wrapperInstructionUpdate _ => true
  | .h1TurnaroundPacket w => decide (w.length ≤ 256)
  | .doorbellTailWrite .. | .cqHeadWrite .. | .descriptorAcceptance .. | .notifyHoldoffExpiry .. | .ringFault .. | .coreRestartDone ..
  | .watchdogExpiry .. | .coreFault .. | .pageMigration .. | .inv .. | .shootDownDrained | .snpInv .. | .hostResponse ..
  | .hostRequestTimeout .. | .failCtrlNoAnswer .. | .holmDrained .. | .holmTestDone .. | .sliceReturnWalkDone .. | .holmFailure ..
  | .h1TurnaroundDone | .trialConfirmation .. | .confirmWaitExpiry .. | .selfTestFailure .. | .rtoExpiry .. | .retryMaxReached ..
  | .ackDelayExpiry .. | .idleCloseExpiry .. | .reprobeExpiry .. | .coalesceExpiry .. | .pfcWatchdogExpiry .. | .packetNumberExhausted ..
  | .portLinkUp .. | .portAlignTimeout .. | .portLinkDown .. | .fecThresholdReached .. | .loopbackAckTimeout .. | .recentAddLogExpiry ..
  | .loadPeriodEnd .. | .tierFailure .. | .tierSFailure .. | .phyUpdateRequest .. | .phyUpdateOverrun .. | .writeBatchTurn .. | .refresh ..
  | .regulatorRefill .. | .tierSTempRead .. | .floorTakesEffect .. | .logicTempRead .. | .canaryWindow .. | .vddOk .. | .delayLineCalibration ..
  | .marginRecentre .. | .heatDecaySweep | .fillArrival .. | .wayRetire .. | .spareRotation .. | .mdWaySelfDisable .. | .mdFill ..
  | .mbHoldExpiry .. | .patrolScrub .. | .sramScrub .. | .backgroundTaskBehind .. | .telemetrySample .. | .fatalStop .. | .refClkLost ..
  | .packetStallRewind .. | .badPacketRewind .. | .resetAssert .. | .resetRelease .. | .mbistDone .. | .tierTrainingDone .. | .firmwareReady ..
  | .mailboxCommandDone | .emptyFifoRead .. | .errorCountWindowClear | .fecRetryHoldoffExpiry .. | .regReplyRetentionExpiry ..
  | .hpLinkUpChange .. | .deviceTemperatureReport .. | .controllerUpdate .. => true

end Sys2Proof
end

