-- ==== Sys2Proof/Tests/Slice0.lean ====
section
/-! SUPPORT. Tests: single steps on small states with results from the manual, ill-formed commands, and for every statement a state
and operands that meet its hypotheses. -/

namespace Sys2Proof.Tests

open Sys2Proof Sys2Proof.Machine

set_option maxRecDepth 20000

-- Small states

/-- The next state of an outcome. -/
def nx (o : Host.Outcome State Fault Refusal) : State :=
  match o with
  | .next s => s
  | _ => State.reset

/-- Registers written one after the other. -/
def regs (s : State) (l : List (Nat × Nat)) : State := l.foldl (fun s x => s.setReg x.1 x.2) s

/-- A running block whose firmware is ready, without a configuration. -/
def live : State := regs (State.reset.upCtl (fun c => { c with life := .alive, pmSafe := false })) [(CC_ID, setBits (resetAt CC_ID).toNat 20 1 1)]

/-- Block 1, valid, which writes no fault notification. -/
def block : State := regs live [(CC_BLOCK_ID, 1 + 2 ^ 15), (TT_CFG, 4)]

/-- Block 1 with ring 0 attached, 64 slots each, local, with virtual pointers. -/
def ringed : State := regs block [(RF_CFG 0, 6 + 6 * 2 ^ 5), (RF_STATUS 0, 1)]

/-- A stopped block. -/
def dead : State := live.upCtl (fun c => { c with life := .stopped })

/-- `n` bytes with little-endian numbers at offsets (offset, bytes, number), the rest zero. -/
def fill (n : Nat) (l : List (Nat × Nat × Nat)) : List Byte :=
  l.foldl (fun d x => d.take x.1 ++ leBytes x.2.1 x.2.2 ++ d.drop (x.1 + x.2.1)) (zeros n)

/-- A descriptor with fields. -/
def desc (l : List (Nat × Nat × Nat)) : List Byte := fill 128 l

/-- A command on ring 0 with handle 1, accepted and not begun. -/
def cmdOf (d : List Byte) : Cmd :=
  { handle := 1, ring := 0, desc := d, ref := 0, bound := 1000000, fin := 0, cls := 1, cqStart := 0, cqCount := 1, cqFive := false, ver := 1, pver := 0,
    ctx := 0, noPub := true, order := [0], kcmd := 0, work := [], tiers := [], jrsv := 0, phase := .accepted, status := 0, flags := 0, rows := 0, residx := 0,
    failblk := 0xFFFF, faultaddr := 0, result := [], inl := false, fetched := [], pos := [], pieces := [], owners := [], parts := [], got := [], adds := [],
    handedOff := false, events := [], next := 0, stage := 0, offs := [], limit := 0, endStatus := 0, ppos := [], pevents := [], mapByte := 0,
    expired := false, unsent := [], checked := true }

/-- A state with one command. -/
def withCmd (s : State) (c : Cmd) : State := { s with cmds := [c] }


-- Witnesses: the whole block

theorem wit_StepRunsFrontCommand : State.reset.pending = [] := by decide

theorem wit_EveryStepKeepsSoundness : Sound { live with pending := [.nop 1] } ∧ ∃ t, step { live with pending := [.nop 1] } = .next t :=
  ⟨by unfold Sound; decide, _, rfl⟩

theorem wit_CommandsLeaveQueueAndPast : ∃ t, exec (.doorbellTailWrite 0 64 100) ringed = .next t := ⟨_, rfl⟩

theorem wit_FusesOnlyBlow : ∃ t, exec (.trialConfirmation true true) live = .next t := ⟨_, rfl⟩

theorem wit_OnlyResetEndsStop : (∃ t, exec (.nop 1) dead = .next t) ∧ (∀ x, Instr.nop 1 ≠ .resetAssert x) ∧
    (∀ h x, Instr.nop 1 = .resetRelease h x → dead.ctl.life ≠ .inReset) :=
  ⟨⟨_, rfl⟩, ⟨fun _ h => Instr.noConfusion h, fun _ _ h => Instr.noConfusion h⟩⟩

theorem wit_UntakenCommandsChangeNothing_asleep :
    State.reset.ctl.life ≠ .alive ∧ actsAsleep State.reset (.attach .host 0 1) = false ∧ dead.ctl.life ≠ .alive ∧ actsAsleep dead (.nop 1) = false := by
  decide

theorem wit_UntakenCommandsChangeNothing_refused :
    softWrite (.setupLock .jtag 1) = some (.jtag, CC_SETUP_LOCK, 1) ∧ live.writable .jtag CC_SETUP_LOCK 1 = false := by decide

/-- The network's instruction WS_IJTAG is in force. -/
def scanned (s : State) : State := s.upCtl (fun c => { c with wrap := .ijtag })

theorem wit_WindowTakesOnlyItsSources :
    dead.writable .host TT_CFG 0 = true ∧ (scanned (dead.setReg CC_ID 0)).writable .jtag TT_CFG 0 = true ∧
    (scanned { live with ctl := { live.ctl with life := .recovery } }).writable .jtag TT_CFG 0 = true ∧ (live.setReg CC_ID 0).writable .fw MD_CFG 0 = true ∧
    (live.setReg (FP_RA_ALLOW 0) (5 + 5 * 2 ^ 15 + 2 * 2 ^ 30)).writable (.reg 5) MD_CFG 0 = true := by decide

-- Witnesses: rings

theorem wit_DoorbellTailTakenOrCounted :
    ringed.ctl.life = .alive ∧ (ringed.ringState 0 = 1 ∧ ringed.remoteRing 0 = false ∧ 64 < 2 ^ (ringed.sqLog 0 + 1) ∧
      (64 + 128 - (ringed.ring 0).head) % 128 = 2 ^ ringed.sqLog 0) ∧
    ¬ ((65 + 128 - (ringed.ring 0).head) % 128 ≤ 2 ^ ringed.sqLog 0) ∧ live.ringState 0 ≠ 1 := by decide

theorem wit_CqHeadTakenOrCounted :
    (ringed.upRing 0 (fun r => { r with cqTail := 3 })).ctl.life = .alive ∧
    (3 + 128 - ((ringed.upRing 0 (fun r => { r with cqTail := 3 })).ring 0).cqHead) % 128 ≤
      (((ringed.upRing 0 (fun r => { r with cqTail := 3 })).ring 0).cqTail + 128 - 0) % 128 ∧
    ¬ (4 + 128 - 0) % 128 ≤ (((ringed.upRing 0 (fun r => { r with cqTail := 3 })).ring 0).cqTail + 128 - 0) % 128 := by decide

/-- A detached ring 0 with structures at another block, for a context with global pointers. -/
def detached0 : State :=
  { regs block [(RF_CFG 0, 6 + 6 * 2 ^ 5 + 2 ^ 10 + 7 * 2 ^ 19), (RF_SQ_BASE 0, 2 * 2 ^ 49), (RF_AQ_BASE 0, 2 * 2 ^ 49), (RF_CQ_BASE 0, 2 * 2 ^ 49)] with
    tu := { Trans.zero with ctxs := [(7, leBytes 32 (5 * 2 ^ 64))] } }

theorem wit_RingsAttachDetachAndFault_attach :
    ringed.writable .host (RF_CTRL 0) (setBits 0 0 2 1) = true ∧ ringed.ringState 0 ≠ 0 ∧
    live.writable .host (RF_CTRL 0) (setBits 0 0 2 1) = true ∧ live.ringState 0 = 0 ∧ live.attachChecks 0 0 ≠ sOk ∧
    detached0.writable .host (RF_CTRL 0) (setBits 0x100 0 2 1) = true ∧ detached0.ringState 0 = 0 ∧ detached0.attachChecks 0 1 = sOk ∧
    detached0.ptrGlobal 0 = true := by decide

theorem quiet_ringed : Quiet ringed := ⟨by decide, rfl, rfl, rfl, rfl, rfl⟩

theorem wit_RingsAttachDetachAndFault_detach :
    ringed.writable .host (RF_CTRL 0) 2 = true ∧ Quiet ringed ∧ ringed.ringState 0 = 1 ∧ live.ringState 0 = 0 ∧ Quiet live :=
  ⟨by decide, quiet_ringed, by decide, by decide, by decide, rfl, rfl, rfl, rfl, rfl⟩

theorem wit_RingsAttachDetachAndFault_fault : ringed.ctl.life = .alive ∧ Quiet ringed ∧ ringed.ringState 0 = 1 ∧ live.ringState 0 = 0 :=
  ⟨by decide, quiet_ringed, by decide, by decide⟩

-- Witnesses: Control Complex

theorem wit_LockIsMeasuredAndHoldsOffStop :
    live.writable .host CC_SETUP_LOCK 1 = true ∧ bit 1 0 = true ∧ live.locked = false ∧ live.secRuns = true ∧
    (live.setReg CC_SETUP_LOCK 1).writable .host CC_STOP 1 = true ∧ (live.setReg CC_SETUP_LOCK 1).locked = true ∧ bit 0 0 = false := by decide

theorem wit_CoresRestartOrHalt_restart :
    live.ctl.life = .alive ∧ live.coreState 1 = 0 ∧ live.coreState 0 ≠ 3 ∧
    ((live.sec.restarts.filter (fun r => decide (5 < r.2 + Sys2Proof.sec))).filter (fun r => r.1 == 1)).length < 2 ∧
    (live.setReg (CC_CORE 1) (5 * 2 ^ 32)).fld (CC_CORE 1) 32 16 ≠ 0 ∧ (live.setReg (CC_CORE 1) (5 * 2 ^ 32)).coreState 1 = 0 ∧
    live.writable .host (CC_CORE 1) (0 ||| 1) = true := by decide

theorem wit_CoresRestartOrHalt_reloaded :
    (live.setFld (CC_CORE 1) 2 2 1).ctl.life = .alive ∧ Quiet (live.setFld (CC_CORE 1) 2 2 1) ∧ (live.setFld (CC_CORE 1) 2 2 1).coreState 1 = 1 ∧
    (live.setFld (CC_CORE 1) 2 2 1).secRuns = true :=
  ⟨by decide, ⟨by decide, rfl, rfl, rfl, rfl, rfl⟩, by decide, by decide⟩

theorem wit_CoresRestartOrHalt_halted : live.ctl.life = .alive ∧ NotifiesHere live ∧ NotifiesHere block :=
  ⟨by decide, .inr (by decide), .inl (by decide)⟩

theorem wit_FatalCauseStopsTheBlock :
    live.ctl.life = .alive ∧ (live.writable .host CC_STOP 1 = true ∧ bit 1 0 = true ∧ live.locked = false) ∧ 0x40 ≤ (0x49 : Nat) ∧
    2000 < 2001 ∧ (live.setFld SE_STATUS 4 1 1).trial = true ∧ (live.setFld SE_STATUS 4 1 1).secRuns = true ∧
    (live.setFld SE_STATUS 4 1 1).ctl.released + max 1 ((live.setFld SE_STATUS 4 1 1).fld SE_CFG 1 8) * Sys2Proof.sec ≤ 30 * Sys2Proof.sec := by decide


-- Witnesses: opcodes

/-- The command of `withCmd` is ready for its opcode. -/
theorem ready_first (p : Nat → Bool) (c : Cmd) (s : State) (h1 : c.handle = 1) (h2 : p (leAt c.desc 0 1) = true) (h3 : c.phase ≠ .done)
    (h5 : c.checked = true) : Ready p 1 c (withCmd s c) :=
  ⟨by simp [withCmd, State.cmd?, h1], h2, h3, fun _ => by simp [withCmd, State.mayBegin, State.ahead], h5⟩

/-- A command of an opcode with operand fields, on table 3. -/
def opCmd (o : Nat) (l : List (Nat × Nat × Nat)) : Cmd := cmdOf (desc ([(0, 1, o), (8, 3, 3)] ++ l))

/-- Tier S of block 1 from offset 0x1000, as a global address. -/
def dst : Nat := 2 ^ 49 + 0x1000

/-- Table 3, version 1 of 4 FP32 elements and 4096 rows, one group here at offset 0x10000 of Tier S; ring 0 uses global pointers. -/
def tabled : State :=
  { regs block [(RF_CFG 0, 6 + 6 * 2 ^ 5 + 2 ^ 10), (RF_STATUS 0, 1), (TK_FMT 0, 0x30)] with
    tab := { Tables.zero with
      recs := [{ loc := none, tbl := 3, curVer := 1, pubVer := 0, rows := 4096, ctx := 0, flags := 0, recipe := 0, defrow := 0, rcpp := 0, owners := [1]
                 otier := 0, dying := false, used := 0 }]
      vers := [{ tbl := 3, ver := 1, st := .current, pmap := 0, fmt := 0 }]
      groups := [{ tbl := 3, ver := 1, g := 0, res := 0x8000, base := 0x10000, tier := 0, secondary := false, leaving := false, moving := none, step := none
                   load := 0 }] } }

theorem wit_SmallOpcodesEnd_nop : tabled.ctl.life = .alive ∧ Ready (· == oNop) 1 (opCmd oNop []) (withCmd tabled (opCmd oNop [])) :=
  ⟨by decide, ready_first _ _ _ rfl (by decide) (by decide) rfl⟩

/-- A FENCE behind an unfinished command of its ring. -/
def fenced : State := { tabled with cmds := [{ opCmd oStats [] with handle := 2 }, opCmd oFence []] }

theorem wit_SmallOpcodesEnd_fence : Ready (· == oFence) 1 (opCmd oFence []) (withCmd tabled (opCmd oFence [])) ∧
    Ready (· == oFence) 1 (opCmd oFence []) fenced ∧ (withCmd tabled (opCmd oFence [])).ahead (opCmd oFence []) = [] ∧
    (fenced.ahead (opCmd oFence [])).length = 1 :=
  ⟨ready_first _ _ _ rfl (by decide) (by decide) rfl, ⟨by decide, by decide, by decide, fun _ => by decide, rfl⟩, by decide, by decide⟩

/-- STATS of the ring counters, inline and at `dst`. -/
def statsIn : Cmd := { opCmd oStats [(64, 1, 1)] with inl := true }
def statsAt : Cmd := opCmd oStats [(64, 1, 1), (48, 8, dst)]

theorem wit_SmallOpcodesEnd_stats : Ready (· == oStats) 1 statsIn (withCmd tabled statsIn) ∧ statsIn.inl = true ∧
    Ready (· == oStats) 1 statsAt (withCmd tabled statsAt) ∧ statsAt.inl = false ∧
    (((withCmd tabled statsAt).advance 9).writeUnits statsAt 0 [[((Desc.of statsAt.desc).dstp, ((withCmd tabled statsAt).ring 0).stats)]]
      (.ringWrite 0) 1).2 = .done :=
  ⟨ready_first _ _ _ rfl (by decide) (by decide) rfl, rfl, ready_first _ _ _ rfl (by decide) (by decide) rfl, rfl, by decide⟩

theorem wit_SmallOpcodesEnd_flush : Ready (· == oFlush) 1 (opCmd oFlush []) (withCmd tabled (opCmd oFlush [])) ∧
    (Desc.of (opCmd oFlush []).desc).scope = 0 ∧
    Ready (· == oFlush) 1 (opCmd oFlush [(64, 1, 2), (80, 8, 1)]) (withCmd tabled (opCmd oFlush [(64, 1, 2), (80, 8, 1)])) ∧
    (Desc.of (opCmd oFlush [(64, 1, 2), (80, 8, 1)]).desc).scope = 2 ∧ (Desc.of (opCmd oFlush [(64, 1, 2), (80, 8, 1)]).desc).rlen ≠ 0 :=
  ⟨ready_first _ _ _ rfl (by decide) (by decide) rfl, by decide, ready_first _ _ _ rfl (by decide) (by decide) rfl, by decide, by decide⟩

/-- ATTEST at `dst`. -/
def attestAt : Cmd := opCmd oAttest [(48, 8, dst)]

theorem wit_DiagnosticAndAttestEnd : Ready isDiag 1 (opCmd 0xC0 []) (withCmd tabled (opCmd 0xC0 [])) ∧
    Ready (· == oAttest) 1 attestAt (withCmd tabled attestAt) ∧ (withCmd tabled attestAt).flag SE_STATUS 2 = false ∧
    (withCmd tabled attestAt).flag SE_STATUS 3 = false ∧ Ready (· == oAttest) 1 attestAt (withCmd (tabled.setFld SE_STATUS 3 1 1) attestAt) ∧
    (withCmd (tabled.setFld SE_STATUS 3 1 1) attestAt).flag SE_STATUS 3 = true :=
  ⟨ready_first _ _ _ rfl (by decide) (by decide) rfl, ready_first _ _ _ rfl (by decide) (by decide) rfl, by decide, by decide,
    ready_first _ _ _ rfl (by decide) (by decide) rfl, by decide⟩

/-- A LOOKUP of row 5 with its reply in hand, inline. -/
def lookupIn : Cmd :=
  { opCmd oLookup [(2, 2, 0x10), (16, 4, 1)] with
    inl := true, phase := .waiting, stage := 1, limit := 1, pos := [{ idx := 5, kind := .loc, w := 0, v := [1, 2, 3, 4], fnd := 0 }] }

/-- The same with its output at `dst`, as a failed row whose owner does not answer, and as a LOOKUP_POOL. -/
def lookupAt : Cmd := { lookupIn with desc := desc [(0, 1, oLookup), (8, 3, 3), (16, 4, 1), (48, 8, dst)], inl := false }
def lookupBad : Cmd := { lookupIn with pos := [{ idx := 5, kind := .bad, w := 0, v := [], fnd := 0 }] }
def poolIn : Cmd :=
  { lookupIn with desc := desc [(0, 1, oPool), (8, 3, 3), (2, 2, 0x10), (16, 4, 1), (20, 4, 1)], offs := [0, 1], pieces := [0] }

theorem wit_LookupEndsWithItsUnits_forms :
    Ready (· == oLookup) 1 lookupIn (withCmd tabled lookupIn) ∧ Ready (· == oLookup) 1 lookupAt (withCmd tabled lookupAt) ∧
    Ready (· == oLookup) 1 lookupBad (withCmd tabled lookupBad) ∧ Ready (· == oPool) 1 poolIn (withCmd tabled poolIn) ∧
    (∀ c ∈ [lookupIn, lookupAt, lookupBad, poolIn], c.phase = .waiting ∧ c.stage = 1 ∧ c.endStatus = sOk ∧ (withCmd tabled c).gatherWaits c = false) ∧
    ((withCmd tabled lookupIn).rec? 3).isSome = true ∧ ((withCmd tabled lookupIn).ver? 3 1).isSome = true :=
  ⟨ready_first _ _ _ rfl (by decide) (by decide) rfl, ready_first _ _ _ rfl (by decide) (by decide) rfl,
    ready_first _ _ _ rfl (by decide) (by decide) rfl, ready_first _ _ _ rfl (by decide) (by decide) rfl, by decide, rfl, rfl⟩

theorem wit_LookupEndsWithItsUnits_events :
    decideEvents false (lookupBad.allEvents (Desc.of lookupBad.desc) 1).1 (lookupBad.allEvents (Desc.of lookupBad.desc) 1).2 = some (sUncorr, 0xFFFF) ∧
    decideEvents false (lookupIn.allEvents (Desc.of lookupIn.desc) 1).1 (lookupIn.allEvents (Desc.of lookupIn.desc) 1).2 = none ∧
    (Desc.of lookupIn.desc).resume = 0 ∧
    decideEvents false (poolIn.allEvents (Desc.of poolIn.desc) 1).1 (poolIn.allEvents (Desc.of poolIn.desc) 1).2 = none := by decide

theorem wit_LookupEndsWithItsUnits_written :
    (((withCmd tabled lookupAt).advance 9).reachUnits lookupAt 0 [[(dst, leBytes 16 1)]]).2.2 = .done := by decide

/-- A SCATTER_ADD and a POOL_BACKWARD whose adds are acknowledged, with an event denied and one lost. -/
def doneAdds (o : Nat) (evs : List (Nat × Nat)) : Cmd := { opCmd o [] with phase := .waiting, stage := 4, events := evs }

theorem wit_BackwardAndCommitEnd :
    Ready (· == oScatter) 1 (doneAdds oScatter []) (withCmd tabled (doneAdds oScatter [])) ∧
    Ready (· == oBackward) 1 (doneAdds oBackward [(11, 2), (10, 2)]) (withCmd tabled (doneAdds oBackward [(11, 2), (10, 2)])) ∧
    (withCmd tabled (doneAdds oScatter [])).unacked 1 = [] ∧ (withCmd tabled (doneAdds oScatter [])).ownWaits 1 = false ∧
    Ready (· == oCommit) 1 (opCmd oCommit []) (withCmd tabled (opCmd oCommit [])) ∧ (tabled.rec? 3).any (fun r => !r.ordered) = true ∧
    Ready (· == oCommit) 1 { opCmd oCommit [] with stage := 1 } (withCmd tabled { opCmd oCommit [] with stage := 1 }) :=
  ⟨ready_first _ _ _ rfl (by decide) (by decide) rfl, ready_first _ _ _ rfl (by decide) (by decide) rfl, by decide, by decide,
    ready_first _ _ _ rfl (by decide) (by decide) rfl, by decide, ready_first _ _ _ rfl (by decide) (by decide) rfl⟩

/-- A route entry with the flags given and ports 0 and 1 (09 R334). -/
def routeOf (flags : Nat) : List Byte := leBytes 32 (flags * 2 ^ 56 + 3 * 2 ^ 48)

/-- Blocks 1 and 2 in the registry, block 2 the coordinator of table 3, with a route to it and port 0 up. -/
def meshed : State :=
  { regs tabled [(TK_REGISTRY 0, 1 + 2 ^ 15), (TK_REGISTRY 1, 2 + 2 ^ 15), (FP_PORT_STATUS 0, 1)] with
    fab := { Fabric.zero with routes := [(2, routeOf 1)] } }

theorem wit_TableCommandAsksCoordinator :
    Ready (· == oCreate) 1 (opCmd oCreate []) (withCmd meshed (opCmd oCreate [])) ∧ (Desc.of (opCmd oCreate []).desc).recipe = 0 ∧
    Ready (· == oDestroy) 1 (opCmd oDestroy []) (withCmd meshed (opCmd oDestroy [])) ∧
    Ready (· == oPublish) 1 (opCmd oPublish []) (withCmd meshed (opCmd oPublish [])) ∧
    Ready (· == oSwitch) 1 (opCmd oSwitch []) (withCmd meshed (opCmd oSwitch [])) ∧
    Ready (· == oMigrate) 1 (opCmd oMigrate []) (withCmd meshed (opCmd oMigrate [])) ∧
    (withCmd meshed (opCmd oCreate [])).coordinator 3 = some 2 ∧ (withCmd meshed (opCmd oCreate [])).id = 1 ∧
    (withCmd meshed (opCmd oCreate [])).noRoute 2 = false :=
  ⟨ready_first _ _ _ rfl (by decide) (by decide) rfl, by decide, ready_first _ _ _ rfl (by decide) (by decide) rfl,
    ready_first _ _ _ rfl (by decide) (by decide) rfl, ready_first _ _ _ rfl (by decide) (by decide) rfl,
    ready_first _ _ _ rfl (by decide) (by decide) rfl, by decide, by decide, by decide⟩

/-- A LOOKUP of rows 5 and 9 and a LOOKUP_POOL of one bag of row 5, from their acceptance, with indices and result inline. -/
def lookupNew : Cmd := { opCmd oLookup [(2, 2, 0x13), (16, 4, 2), (64, 8, 5), (72, 8, 9)] with inl := true }
def poolNew : Cmd := { opCmd oPool [(2, 2, 0x13), (16, 4, 1), (20, 4, 1), (32, 1, 1), (64, 8, 5)] with inl := true }

/-- `tabled` with the placement entry of group 0, which names this block. -/
def mapped : State :=
  { tabled with mem := memPuts [] 0 (leBytes 4 (entWord { owner := 1, tier := 0, repl := false, state := pResident, epoch := 0 })) }

/-- The state of one of them once it has gathered. -/
def gatheredBy (c : Cmd) : State := ((withCmd mapped c).advance 9).gatherStart c (Desc.of c.desc) (Desc.of c.desc).inlineLists 0

/-- It has gathered all its rows here, and both its records are as they were. -/
def gatheredHere (c : Cmd) : Bool :=
  ((gatheredBy c).cmd? 1).any (fun x => !(gatheredBy c).gatherWaits x && x.endStatus == sOk && x.pos.length != 0 && x.pos.all (fun p => p.kind == .loc)) &&
  (gatheredBy c).rec? 3 == mapped.rec? 3 && (gatheredBy c).ver? 3 1 == mapped.ver? 3 1

theorem wit_RingCommandsRunToTheirEnd_lookups :
    Ready (· == oNop) 1 (opCmd oNop []) (withCmd tabled (opCmd oNop [])) ∧ (opCmd oNop []).phase = .accepted ∧
    Ready (· == oLookup) 1 lookupNew (withCmd mapped lookupNew) ∧ Ready (· == oPool) 1 poolNew (withCmd mapped poolNew) ∧
    (Desc.of poolNew.desc).project = false ∧ (∀ c ∈ [lookupNew, poolNew], c.phase = .accepted ∧ c.stage = 0 ∧ (Desc.of c.desc).inl = true ∧ c.inl = true ∧
      (Desc.of c.desc).resume = 0 ∧ (Desc.of c.desc).tbl = 3 ∧ c.ver = 1 ∧ gatheredHere c = true) ∧
    ((withCmd mapped lookupNew).rec? 3).isSome = true ∧ ((withCmd mapped lookupNew).ver? 3 1).isSome = true :=
  ⟨ready_first _ _ _ rfl (by decide) (by decide) rfl, rfl, ready_first _ _ _ rfl (by decide) (by decide) rfl,
    ready_first _ _ _ rfl (by decide) (by decide) rfl, by decide, by decide, rfl, rfl⟩

/-- Block 1 alone in its registry, with version 2 of table 3 published beside version 1. -/
def alone : State := regs tabled [(TK_REGISTRY 0, 1 + 2 ^ 15)]
def twoVersions : State :=
  { alone with tab := { alone.tab with
    recs := alone.tab.recs.map (fun r => { r with pubVer := 2 })
    vers := alone.tab.vers ++ [{ tbl := 3, ver := 2, st := .published, pmap := dst + 0x40000, fmt := 0 }] } }

/-- TABLE_CREATE of table 4 with 100 rows of 4 FP32 elements; MIGRATE of group 0 to where it is. -/
def createNew : Cmd := opCmd oCreate [(2, 2, 1), (8, 3, 4), (64, 8, 0x30), (72, 8, 100)]
def migrateHere : Cmd := opCmd oMigrate [(72, 4, 1), (76, 2, 1)]
def switchNew : Cmd := { opCmd oSwitch [] with ver := 2 }

/-- What the coordinator answers to `createNew`. -/
def createChecked : Nat × CreateArgs := (withCmd alone createNew).createCheck 4 (createArgs (Desc.of createNew.desc) 0 [] false sOk) 1

/-- The same registry with that entry. -/
def homedAlone : State := { alone with mem := mapped.mem }

theorem wit_RingCommandsRunToTheirEnd_create :
    (1 : Handle) ≠ noHandle ∧ alone.registryList = [alone.id] ∧ alone.tab.ops = [] ∧ createNew.stage = 0 ∧ createNew.endStatus = sOk ∧
    Ready (· == oCreate) 1 createNew (withCmd alone createNew) ∧ (Desc.of createNew.desc).recipe = 0 ∧ bits (Desc.of createNew.desc).fmt 0 4 < 8 ∧
    (withCmd alone createNew).tab.recs.length < 16384 ∧ (withCmd alone createNew).noSlot (Desc.of createNew.desc).fmt = false ∧
    createChecked.1 = sOk ∧ createChecked.2.owners = [1] ∧ bit createChecked.2.tflags 3 = false ∧
    (((((withCmd alone createNew).alloc 0 64 64).map (fun x => x.2)).getD (withCmd alone createNew)).allocMeta 4 [0]).isSome = true :=
  ⟨by decide, by decide, rfl, rfl, rfl, ready_first _ _ _ rfl (by decide) (by decide) rfl, by decide, by decide, by decide, by decide, by decide,
    by decide, by decide, by decide⟩

theorem wit_RingCommandsRunToTheirEnd_others :
    Ready (· == oDestroy) 1 (opCmd oDestroy []) (withCmd alone (opCmd oDestroy [])) ∧ alone.reg? 3 = none ∧ alone.others 3 = [] ∧
    (withCmd alone (opCmd oDestroy [])).canAck (.destroy 3) = true ∧
    Ready (· == oPublish) 1 (opCmd oPublish []) (withCmd alone (opCmd oPublish [])) ∧
    (alone.rec? 3).any (fun r => r.pubVer == 0 && r.curVer == 1) = true ∧ nextVer 1 = 2 ∧ alone.publishFmt 3 0 = true ∧
    (alone.publishReserve 3 2).isSome = true ∧ Ready (· == oSwitch) 1 switchNew (withCmd twoVersions switchNew) ∧
    (twoVersions.rec? 3).any (fun r => r.pubVer == 2 && r.curVer == 1) = true ∧ (Desc.of switchNew.desc).ver = 0 ∧
    (twoVersions.ver? 3 2).isSome = true ∧ (withCmd twoVersions switchNew).canAck (.prepare 3) = true ∧
    (withCmd twoVersions switchNew).boundTo 3 1 = false ∧ twoVersions.others 3 = [] ∧
    Ready (· == oMigrate) 1 migrateHere (withCmd homedAlone migrateHere) ∧ (homedAlone.ver? 3 1).isSome = true ∧
    (Desc.of migrateHere.desc).dblk = homedAlone.id ∧ (Desc.of migrateHere.desc).ngroup = 1 ∧ homedAlone.corrupt (homedAlone.pentry 0 0) = false ∧
    (homedAlone.pentry 0 0).owner = homedAlone.id ∧ (homedAlone.pentry 0 0).tier = (Desc.of migrateHere.desc).dtier ∧
    homedAlone.registryList = [homedAlone.id] :=
  ⟨ready_first _ _ _ rfl (by decide) (by decide) rfl, by decide, by decide, by decide, ready_first _ _ _ rfl (by decide) (by decide) rfl,
    by decide, by decide, by decide, by decide, ready_first _ _ _ rfl (by decide) (by decide) rfl, by decide, by decide, by decide, by decide,
    by decide, by decide, ready_first _ _ _ rfl (by decide) (by decide) rfl, by decide, by decide, by decide, by decide, by decide, by decide,
    by decide⟩

/-- ROWS_WRITE of one row that is written, ROWS_READ of the default row, and of one row at hand. -/
def rowsWritten : Cmd := { opCmd oRowsWrite [] with phase := .waiting, stage := 4, got := [(1, 5, [], true)] }
def rowsDefault : Cmd := { opCmd oRowsRead [(64, 1, 1)] with inl := true }
def rowsHere : Cmd :=
  { opCmd oRowsRead [] with
    inl := true, phase := .waiting, stage := 1, pos := [{ idx := 5, kind := .loc, w := 0, v := [], fnd := 0 }], got := [(1, 5, leBytes 16 7, false)] }

theorem wit_RowCommandsEnd :
    Ready (· == oRowsWrite) 1 rowsWritten (withCmd tabled rowsWritten) ∧ (Desc.of rowsWritten.desc).target = 0 ∧
    (withCmd tabled rowsWritten).asking 1 = false ∧ (withCmd tabled rowsWritten).ownWaits 1 = false ∧ (∀ g ∈ rowsWritten.got, g.2.2.2 = true) ∧
    Ready (· == oRowsRead) 1 rowsDefault (withCmd tabled rowsDefault) ∧ (Desc.of rowsDefault.desc).target = 1 ∧
    Ready (· == oRowsRead) 1 rowsHere (withCmd tabled rowsHere) ∧ (Desc.of rowsHere.desc).target = 0 ∧ (Desc.of rowsHere.desc).resume = 0 ∧
    (∀ p ∈ rowsHere.pos, p.idx ≠ padIndex ∧ ∃ g, rowsHere.got.find? (fun g => g.2.1 == p.idx) = some g ∧ g.2.2.2 = false) :=
  ⟨ready_first _ _ _ rfl (by decide) (by decide) rfl, by decide, by decide, by decide, by decide,
    ready_first _ _ _ rfl (by decide) (by decide) rfl, by decide, ready_first _ _ _ rfl (by decide) (by decide) rfl, by decide, by decide,
    fun p hp => by
      simp only [rowsHere, List.mem_singleton] at hp
      subst hp
      exact ⟨by decide, (1, 5, leBytes 16 7, false), rfl, rfl⟩⟩

/-- A CHECKPOINT whose header is written, and a RESTORE of no group left. -/
def imaged (o : Nat) (st : Nat) (evs : List (Nat × Nat)) : Cmd := { opCmd o [] with phase := .waiting, stage := st, events := evs }

theorem wit_ImageCommandsEnd :
    Ready (· == oCheckpoint) 1 (imaged oCheckpoint 4 [(4, 9)]) (withCmd tabled (imaged oCheckpoint 4 [(4, 9)])) ∧
    (withCmd tabled (imaged oCheckpoint 4 [(4, 9)])).imageWrites 1 = false ∧
    Ready (· == oRestore) 1 (imaged oRestore 2 [(2, 7)]) (withCmd tabled (imaged oRestore 2 [(2, 7)])) ∧
    (Desc.of (imaged oRestore 2 [(2, 7)]).desc).ngroup ≤ (imaged oRestore 2 [(2, 7)]).next ∧
    (withCmd tabled (imaged oRestore 2 [(2, 7)])).asking 1 = false ∧ (withCmd tabled (imaged oRestore 2 [(2, 7)])).ownWaits 1 = false ∧
    Ready (· == oRestore) 1 (imaged oRestore 2 []) (withCmd tabled (imaged oRestore 2 [])) :=
  ⟨ready_first _ _ _ rfl (by decide) (by decide) rfl, by decide, ready_first _ _ _ rfl (by decide) (by decide) rfl, by decide, by decide,
    by decide, ready_first _ _ _ rfl (by decide) (by decide) rfl⟩

/-- An open flow to block 2 on a lane and port 0. -/
def flowOf (lane : Nat) : Flow :=
  { partner := 2, lane := lane, st := .open_, epoch := 1, self := 1, port := some 0, badPorts := [], psn := 0, acked := 0, unacked := [], units := 0
    climit := 64, queue := [], msgId := 0, live := [], window := 0x100000, lastHalve := 0, timeouts := 0, rxPsn := 0, rxUnits := 0, rxLimit := 64
    partials := [], rxHeld := 0, sinceAck := 0, oldestRx := 0, nakAt := none, ece := false, lastUse := 0 }

/-- `meshed` with one flow. -/
def flowing (f : Flow) : State := { meshed with fab := { meshed.fab with flows := [f] } }

/-- LOOPBACK_TEST of F1 on port 0, and of a channel of Tier F. -/
def lbPort : Cmd := opCmd oLoopback [(64, 1, 3), (48, 8, dst)]
def lbChannel : Cmd := opCmd oLoopback [(64, 1, 7), (68, 1, 64), (48, 8, dst)]
def unackedFlow : Flow := { flowOf 0 with unacked := [{ psn := 0, payload := [], cost := 1, sent := 0 }] }

theorem wit_LoopbackDrainsOrPasses :
    Ready (· == oLoopback) 1 lbPort (withCmd (regs (flowing unackedFlow) [(FP_PORT_STATUS 1, 1)]) lbPort) ∧ (Desc.of lbPort.desc).depth = 3 ∧
    (withCmd (regs (flowing unackedFlow) [(FP_PORT_STATUS 1, 1)]) lbPort).otherPort (Desc.of lbPort.desc).port = true ∧
    (∃ f ∈ (withCmd (regs (flowing unackedFlow) [(FP_PORT_STATUS 1, 1)]) lbPort).fab.flows, f.port = some (Desc.of lbPort.desc).port ∧ f.unacked ≠ []) ∧
    Ready (· == oLoopback) 1 lbChannel (withCmd tabled lbChannel) ∧ 7 ≤ (Desc.of lbChannel.desc).depth ∧
    (withCmd tabled lbChannel).channelUp 1 0 = true ∧ (((withCmd tabled lbChannel).advance 9).reachUnits lbChannel 0 [[(dst, zeros 64)]]).2.2 = .done :=
  ⟨ready_first _ _ _ rfl (by decide) (by decide) rfl, by decide, by decide, ⟨unackedFlow, by decide, by decide, by decide⟩,
    ready_first _ _ _ rfl (by decide) (by decide) rfl, by decide, by decide, by decide⟩


-- Witnesses: acceptance, completion, notification, registers

/-- Ring 0 attached, with global pointers to Tier S of block 1, two slots waiting. The second holds an EXPERT descriptor's first half. -/
def waiting : State :=
  ({ regs tabled [(RF_SQ_BASE 0, dst), (RF_AQ_BASE 0, 2 ^ 49 + 0x8000), (RF_CQ_BASE 0, 2 ^ 49 + 0xC000)] with
    mem := memPut [] (0x1000 + 128 + 2) 1 }).upRing 0 (fun r => { r with tail := 1, bells := [(1, 500)] })

def expert : State := waiting.upRing 0 (fun r => { r with head := 1, tail := 3, bells := [(3, 500)] })

/-- A slot that was read, and is an expert descriptor's first one or not. -/
def gotSlot (x : SlotRead) (isExpert : Bool) : Bool :=
  match x with
  | .got b _ => bit (leAt b 2 2) 0 == isExpert
  | _ => false

theorem wit_AcceptancePassesOneDescriptor_plain :
    waiting.ctl.life = .alive ∧ waiting.ringState 0 = 1 ∧ ((waiting.ring 0).tail + 128 - (waiting.ring 0).head) % 128 ≠ 0 ∧
    waiting.ringHeld 0 (waiting.reg (RF_AQ_BASE 0) + 16 * ((waiting.ring 0).head % 64)) = false ∧ waiting.rings.map (fun x => x.1) = [0] ∧
    gotSlot ((waiting.advance 9).slotBytes 0 0).2 false = true := by
  decide

theorem wit_AcceptancePassesOneDescriptor_expert :
    ((expert.ring 0).tail + 128 - (expert.ring 0).head) % 128 = 2 ∧ gotSlot ((expert.advance 9).slotBytes 0 1).2 true = true ∧
    gotSlot (((expert.advance 9).slotBytes 0 1).1.slotBytes 0 2).2 false = true := by decide

/-- A finished NOP. -/
def doneNop : Cmd := { opCmd oNop [] with phase := .done }

theorem wit_CompletionRecordEndsTheCommand :
    Quiet (withCmd waiting doneNop) ∧ (withCmd waiting doneNop).cmd? 1 = some doneNop ∧ doneNop.phase = .done ∧
    max (withCmd waiting doneNop).ctl.now 9 ≤ doneNop.ref + doneNop.bound * ns ∧ ((withCmd waiting doneNop).ring 0).broken = false ∧
    (Desc.of doneNop.desc).notify = false ∧ doneNop.cqCount = (if doneNop.cqFive then 5 else 1) ∧
    ((((withCmd waiting doneNop).advance 9).upCmds (fun _ => [])).ringPut 0 (2 ^ 49 + 0xC000) (zeros 32)).2 = true :=
  ⟨⟨by decide, rfl, rfl, rfl, rfl, rfl⟩, by decide, rfl, by decide, by decide, by decide, by decide, by decide⟩

/-- One record gathered at instant 0 on ring 0, with notifications enabled and a hold-off of 100 ns. -/
def gathered : State :=
  (regs waiting [(RF_CFG 0, 6 + 6 * 2 ^ 5 + 2 ^ 10 + 2 ^ 35), (RF_NOTIFY_ADDR 0, dst), (RF_NOTIFY_CFG 0, 7 + 2 ^ 40)]).upRing 0
    (fun r => { r with notifyCount := 1 })

theorem wit_NotificationAfterHoldOff :
    gathered.ctl.life = .alive ∧ (gathered.ring 0).notifyCount ≠ 0 ∧ gathered.flag (RF_CFG 0) 35 = true ∧
    (gathered.ring 0).notifyFirst + gathered.fld (RF_NOTIFY_CFG 0) 40 16 * 100 * ns = 100000 ∧
    (live.ring 0).notifyCount = 0 := by decide

theorem wit_RegisterWriteObeysAccessCodes :
    live.writable .host MD_LFSR 1 = true ∧ live.writable .host TU_CFG 0 = true ∧ (BitVec.ofNat 20 TU_CFG).toNat = TU_CFG ∧
    (BitVec.ofNat 20 TU_CFG).toNat % 8 = 0 ∧ byFieldsAlone live TU_CFG = true ∧ byFieldsAlone live (RF_CFG 63) = true ∧
    byFieldsAlone ringed (RF_CFG 0) = false ∧ byFieldsAlone live 0xFFFF8 = true ∧ live.readable .host = true := by decide

theorem wit_GuardedFloorAndMapoutWrites :
    (BitVec.ofNat 20 (TU_CFG + 7)).toNat % 8 ≠ 0 ∧ ringGuarded 0 (BitVec.ofNat 20 (RF_CFG 0)).toNat = true ∧ ringed.ringState 0 ≠ 0 ∧
    live.writable .host (MT_REG 0 0) 970 = true ∧
    sumOf (((upTo 16).filter (fun q => q != 0)).map (fun q => live.fld (MT_REG 0 q) 0 10)) + bits 970 0 10 ≤ 970 ∧
    970 < sumOf (((upTo 16).filter (fun q => q != 0)).map (fun q => live.fld (MT_REG 0 q) 0 10)) + bits 971 0 10 ∧
    live.writable .host MC_MAPOUT 3 = true := by decide

theorem wit_DisabledWaysAreEmpty :
    live.writable .host (RC_WAY_DISABLE 0) 1 = true ∧ live.writable .host MD_WAY_DISABLE 1 = true ∧ live.writable .host MD_CFG 1 = true ∧
    live.locked = false := by decide

-- Witnesses: translation

/-- Context 7 with virtual pointers: its page 5 is offered for migration, at 0x20000 of host memory, with two free frames. -/
def paged (leaf : Nat) : State :=
  { regs block [(TU_APERTURE, 0x40000000000 + 2 ^ 63), (TU_MIG_REGION, 0x100000), (TU_MIG_PAGES, 2)] with
    mem := memPuts (memPuts (memPuts (memPuts (memPuts [] (memKey 3 0x10000) (leBytes 8 0x11001)) (memKey 3 0x11000) (leBytes 8 0x12001))
      (memKey 3 0x12000) (leBytes 8 0x13001)) (memKey 3 (0x13000 + 40)) (leBytes 8 leaf)) (memKey 3 0x20000) (leBytes 8 0x1234)
    tu := { Trans.zero with ctxs := [(7, leBytes 32 (0x10000 + 3 * 2 ^ 64))] } }

/-- The same with the migration asked for, and after it. -/
def asked (leaf : Nat) : State := { paged leaf with tu := { (paged leaf).tu with migs := [(7, 5, true)] } }
def migrated : State :=
  { paged (0x40000100020) with tu := { (paged 0).tu with frames := [(0, 7, 5, 0x20000)] } }

theorem wit_TablesAndRoutesAreLoadedAndStored_tables :
    live.writable .host TU_CTX_CTRL (7 ||| 2 ^ 16) = true ∧ live.writable .host TU_CTX_CTRL (7 ||| 2 ^ 17) = true ∧
    live.ctxInUse 7 (leAt (live.storeWords TU_CTX_DATA 4) 8 1) = false ∧
    (live.setReg (TU_CTX_DATA 0) 0x1000).ctxRoot 7 ≠ leAt ((live.setReg (TU_CTX_DATA 0) 0x1000).storeWords TU_CTX_DATA 4) 0 8 ∧
    (regs ringed [(RF_CFG 0, 6 + 6 * 2 ^ 5 + 7 * 2 ^ 19)]).ctxInUse 7 0 = true ∧
    live.writable .host TU_WIN_CTRL (255 ||| 2 ^ 16) = true ∧ live.writable .host TU_WIN_CTRL (255 ||| 2 ^ 17) = true := by decide

theorem wit_TablesAndRoutesAreLoadedAndStored_routes :
    meshed.writable .host FP_ROUTE_CTRL (2 ||| 2 ^ 16) = true ∧ bit (2 ||| 2 ^ 16) 17 = false ∧
    meshed.writable .host FP_ROUTE_CTRL (2 ||| 2 ^ 17) = true ∧ bit (2 ||| 2 ^ 17) 16 = false ∧ Quiet meshed ∧
    (∀ x ∈ meshed.fab.xchg, x.dst ≠ 2) ∧ meshed.routeBit 2 0 = true ∧ bit (leAt (meshed.storeWords FP_ROUTE_DATA 4) 7 1) 0 = false ∧
    (∀ f ∈ meshed.fab.flows, f.partner ≠ 2) :=
  ⟨by decide, by decide, by decide, by decide, ⟨by decide, rfl, rfl, rfl, rfl, rfl⟩, by decide, by decide, by decide, by decide⟩

theorem wit_PagesMigrateAndReturn_pull :
    (paged 0x20020).writable .host TU_MIG_CTRL ((5 + 7 * 2 ^ 36) ||| 2 ^ 52) = true ∧ (paged 0x20020).hostPort = true ∧
    (paged 0x20020).pteOf 7 5 = some (0x13028, 0x20020) ∧ bit 0x20020 0 = false ∧ bit 0x20020 5 = true ∧
    (paged 0x20020).flag TU_MIG_CTRL 54 = false ∧ ((paged 0x20020).setFld TU_MIG_CTRL 54 1 1).flag TU_MIG_CTRL 54 = true ∧
    (paged 0x20000).pteOf 7 5 = some (0x13028, 0x20000) ∧ bit 0x20000 5 = false := by decide

theorem wit_PagesMigrateAndReturn_migration :
    (asked 0x20020).ctl.life = .alive ∧ Sound (asked 0x20020) ∧ (asked 0x20020).hostPort = true ∧
    (asked 0x20020).tu.migs.find? (fun m => m.1 == 7 && m.2.1 == 5) = some (7, 5, true) ∧ (asked 0x20020).fld (CC_CORE 2) 2 2 = 0 ∧
    (asked 0x20020).pteOf 7 5 = some (0x13028, 0x20020) ∧ (asked 0x20020).freeFrame = some 0 ∧
    (asked 0x20000).pteOf 7 5 = some (0x13028, 0x20000) := by unfold Sound; decide

theorem wit_PagesMigrateAndReturn_release :
    Sound migrated ∧ migrated.writable .host TU_MIG_CTRL (setBits (5 + 7 * 2 ^ 36) 52 2 2) = true ∧ migrated.flag TU_MIG_CTRL 54 = false ∧
    migrated.tu.frames.find? (fun f => f.2.1 == 7 && f.2.2.1 == 5) = some (0, 7, 5, 0x20000) ∧
    migrated.pteOf 7 5 = some (0x13028, 0x40000100020) ∧ bits 0x40000100020 12 34 = bits (migrated.frameAperture 0) 12 34 ∧
    (paged 0x20020).tu.frames.find? (fun f => f.2.1 == 7 && f.2.2.1 == 5) = none ∧
    (paged 0x20020).writable .host TU_MIG_CTRL (setBits (5 + 7 * 2 ^ 36) 52 2 2) = true := by unfold Sound; decide

/-- A shoot-down waits, with an entry in scope and one out of it. -/
def tlbOf (ctx : Nat) : Tlb := { ctx := ctx, vpn := 5, size := 1, pa := 0, r := true, w := true, a := true, d := true, pte := 0x13028 }
def shooting : State :=
  { block with tu := { Trans.zero with tlb := [tlbOf 7, tlbOf 8], shoots := [{ scope := .context 7, htag := some 3, silent := false }] } }

def eightWait : State :=
  { shooting with tu := { shooting.tu with shoots := List.replicate 8 { scope := .context 7, htag := some 3, silent := false } } }

theorem wit_ShootDownsEmptyTheirScope :
    block.writable .host TU_INV_CTRL (2 ||| 2 ^ 18) = true ∧ block.flag TU_INV_CTRL 19 = false ∧ bits (2 ||| 2 ^ 18) 0 2 ≠ 3 ∧
    (block.setFld TU_INV_CTRL 19 1 1).flag TU_INV_CTRL 19 = true ∧ block.hostPort = true ∧ bits (3 * 2 ^ 52) 52 2 = 3 ∧
    bits (2 * 2 ^ 52) 52 2 ≠ 3 ∧ (shooting.tu.shoots.filter (fun x => x.htag.isSome)).length < 8 ∧
    8 ≤ (eightWait.tu.shoots.filter (fun x => x.htag.isSome)).length ∧ shooting.tu.shoots ≠ [] := by decide

theorem wit_ShootDownsEmptyTheirScope_drained : shooting.ctl.life = .alive ∧ Quiet shooting := ⟨by decide, by decide, rfl, rfl, rfl, rfl, rfl⟩

/-- A LOOKUP held behind a shoot-down. -/
def heldLookup : State := { withCmd tabled (opCmd oLookup []) with tu := { Trans.zero with waits := [(1, 0x5000)] } }

theorem wit_ShootDownsEmptyTheirScope_wait :
    heldLookup.ctl.life = .alive ∧ heldLookup.cmd? 1 = some (opCmd oLookup []) ∧ (opCmd oLookup []).phase ≠ .done ∧
    (opCmd oLookup []).deadline ≤ 1000000000 ∧ heldLookup.tu.waits.any (fun w => w.1 == (opCmd oLookup []).handle) = true := by decide

/-- A host-port write that waits for its response. -/
def hostAsked : State :=
  { block with tu := { Trans.zero with hreqs := [{ tag := 4, hopc := 3, ctx := 7, addr := 0x13000, len := 8, old := leBytes 8 77, ring := none
                                                   handle := 9 }], tlb := [tlbOf 7] } }

theorem wit_HostPortAnswers :
    hostAsked.ctl.life = .alive ∧ Sound hostAsked ∧ (hostAsked.tu.hreqs.find? (fun y => y.tag == 4)).any (fun x => x.ring == none) = true ∧
    hostAsked.cmd? 9 = none ∧ hostAsked.hostPort = true ∧ (paged 0).hostPort = true ∧ Sound (paged 0) ∧
    (64 ≠ 0 ∧ 0 / 64 = (0 + 64 - 1) / 64 ∧ 64 ≤ (paged 0).capacity 0 ∧ (paged 0).tierOut 0 = false ∧ (paged 0).flag TU_APERTURE 63 = true) ∧
    (paged 0).poisoned (memKey 0 0) 64 = false ∧ ({ paged 0 with poison := [0] }).poisoned (memKey 0 0) 64 = true ∧
    block.flag TU_APERTURE 63 = false := by unfold Sound; decide

theorem wit_HostPortAnswers_quiet : Quiet hostAsked ∧ Quiet block := ⟨⟨by decide, rfl, rfl, rfl, rfl, rfl⟩, ⟨by decide, rfl, rfl, rfl, rfl, rfl⟩⟩

/-- Block 1 alone in its registry. -/
def lonely : State := regs block [(TK_REGISTRY 0, 1 + 2 ^ 15)]

/-- Block 1 behind the lead 2. -/
def follower : State := { meshed with regs := (regs meshed [(TK_REGISTRY 0, 2 + 2 ^ 15), (TK_REGISTRY 1, 1 + 2 ^ 15)]).regs }

theorem wit_FailureControlActs :
    (block.setFld TK_FAIL_CTRL 18 1 1).writable .host TK_FAIL_CTRL (2 ||| 2 ^ 16) = true ∧ (block.setFld TK_FAIL_CTRL 18 1 1).flag TK_FAIL_CTRL 18 = true ∧
    lonely.writable .host TK_FAIL_CTRL (2 ||| 2 ^ 16) = true ∧ bit (2 ||| 2 ^ 16) 17 = false ∧ lonely.flag TK_FAIL_CTRL 18 = false ∧
    lonely.lead = some lonely.id ∧ lonely.isFailed 2 = false ∧ 2 ≠ lonely.id ∧ lonely.tab.recs = [] ∧ lonely.tab.groups = [] ∧
    (∀ r ∈ lonely.fab.routes, r.1 = lonely.id ∨ lonely.routeBit r.1 0 = false) ∧ (∀ b, b ∈ lonely.registryList → b = lonely.id) ∧
    lonely.writable .host TK_FAIL_CTRL (2 ||| 2 ^ 17) = true ∧ bit (2 ||| 2 ^ 17) 16 = false ∧
    (∀ x ∈ lonely.fab.xchg, x.kind ≠ .query) ∧ (∀ x ∈ lonely.tab.served, x.id ≠ lonely.tab.nextOp) ∧
    follower.judges 9 = false ∧ follower.leadOrDeputy 9 = some 2 ∧ follower.lead ≠ some follower.id ∧
    (follower.registryList.filter follower.regAlive).find? (fun b => b != follower.id && !follower.routeBit b 2) = some 2 ∧
    follower.writable .host TK_FAIL_CTRL (9 ||| 2 ^ 16) = true ∧ follower.writable .host TK_FAIL_CTRL (9 ||| 2 ^ 17) = true ∧
    follower.flag TK_FAIL_CTRL 18 = false := by decide

theorem wit_FailureControlActs_quiet : Quiet lonely ∧ Quiet follower := ⟨⟨by decide, rfl, rfl, rfl, rfl, rfl⟩, ⟨by decide, rfl, rfl, rfl, rfl, rfl⟩⟩


-- Witnesses: spine

/-- TT_HOLM_CTRL with three Holms offline: 0 alone is online. -/
def oneHolm : State := block.setReg TT_HOLM_CTRL 0x1E

theorem wit_HolmsDrainLeaveAndReturn_control :
    block.writable .host TT_HOLM_CTRL 0x1 = true ∧ block.holmsOnline.filter (fun h => !bit 0x1 h) ≠ [] ∧
    oneHolm.writable .host TT_HOLM_CTRL 0xF = true ∧ oneHolm.holmsOnline.filter (fun h => !bit 0xF h) = [] ∧
    oneHolm.writable .host TT_HOLM_CTRL 0x200E = true ∧ oneHolm.holmsOnline.filter (fun h => !bit 0x200E h) ≠ [] := by decide

theorem wit_HolmsDrainLeaveAndReturn_events :
    (block.setReg TT_HOLM_CTRL 0xF1).holmOnline 0 = true ∧ (block.setReg TT_HOLM_CTRL 0xF1).flag TT_HOLM_CTRL 0 = true ∧
    (∀ c ∈ block.cmds, block.onHolm c 0 = false) ∧ block.flag TT_HOLM_CTRL 0 = false ∧ block.ctl.life = .alive ∧
    (block.setReg TT_HOLM_CTRL 0x1000E1).flag TT_HOLM_CTRL 20 = true ∧
    0 ∈ ({ block with spine := { Spine.zero with returning := [0] } }).spine.returning ∧
    (0 : Fin 4).val ∈ ({ block with cache := { Caches.zero with walking := [0] } }).cache.walking := by decide

theorem wit_HolmsDrainLeaveAndReturn_notify : NotifiesHere (block.setReg TT_HOLM_CTRL 0x1000E1) := .inl (by decide)

/-- A LOOKUP waiting on Holm 0, and a ROWS_READ. -/
def onHolm0 (o : Nat) : Cmd := { opCmd o [] with phase := .waiting, stage := 1 }

theorem wit_HolmsDrainLeaveAndReturn_failure :
    (withCmd tabled (onHolm0 oLookup)).holmOnline 0 = true ∧ NotifiesHere (withCmd tabled (onHolm0 oLookup)) ∧
    (withCmd tabled (onHolm0 oLookup)).cmds.filter (fun x => (withCmd tabled (onHolm0 oLookup)).onHolm x 0) = [onHolm0 oLookup] ∧
    (withCmd tabled (onHolm0 oLookup)).cmd? 1 = some (onHolm0 oLookup) ∧ Quiet ((withCmd tabled (onHolm0 oLookup)).finish 1 sOk) ∧
    (Desc.of (onHolm0 oLookup).desc).isBack = false ∧ (Desc.of (onHolm0 oLookup).desc).isRead = true ∧
    (withCmd tabled (onHolm0 oRowsRead)).cmds.filter (fun x => (withCmd tabled (onHolm0 oRowsRead)).onHolm x 0) = [onHolm0 oRowsRead] ∧
    (Desc.of (onHolm0 oRowsRead).desc).isBack = false ∧ (Desc.of (onHolm0 oRowsRead).desc).isRead = false ∧
    Quiet ((withCmd tabled (onHolm0 oRowsRead)).finish 1 sOk) :=
  ⟨by decide, .inl (by decide), by decide, by decide, ⟨by decide, rfl, rfl, rfl, rfl, rfl⟩, by decide, by decide, by decide, by decide, by decide,
    ⟨by decide, rfl, rfl, rfl, rfl, rfl⟩⟩

/-- A fault record, and H1 active with packets left. -/
def faulted : State :=
  { block with spine := { Spine.zero with faults := [{ seq := 1, cls := 4, source := 20, cause := 0x23, time := 0, detail := 0, count := 1 }] } }
def turning (left : Nat) : State := { block.setReg TT_LB_CTRL (2 + 3 * 2 ^ 16) with spine := { Spine.zero with h1Left := left } }

theorem wit_FaultLogAndTurnaround :
    faulted.writable .host TT_FAULT_CTRL (0 ||| 2 ^ 8) = true ∧ (faulted.spine.faults[0]?).isSome = true ∧
    (scanned block).writable .jtag TT_LB_CTRL (0 ||| 1) = true ∧ block.headless = false ∧ (∀ n : Fin 64, block.ringState n = 0) ∧
    block.flag TT_LB_CTRL 1 = false ∧ ringed.ringState 0 ≠ 0 ∧ (turning 3).flag TT_LB_CTRL 1 = true ∧ (turning 3).spine.h1Left ≠ 0 ∧
    (turning 0).spine.h1Left = 0 ∧ (scanned (turning 0)).writable .jtag TT_LB_CTRL (0 ||| 1) = true := by decide

theorem wit_FaultLogAndTurnaround_quiet : (turning 0).ctl.life = .alive ∧ Quiet (turning 0) := ⟨by decide, by decide, rfl, rfl, rfl, rfl, rfl⟩

-- Witnesses: security mailbox

/-- The stage of a download, a trial boot, and the approved-only mode. -/
def staged (k : Nat) : State := live.setFld SE_STATUS 8 3 k
def trialBoot : State := live.setFld SE_STATUS 4 1 1

theorem wit_MailboxCommandsAct_serves :
    (∀ op ∈ [0x01, 0x02, 0x03, 0x04, 0x05, 0x08, 0x10, 0x11, 0x12, 0x13, 0x1F, 0x20],
      live.writable .host SE_MBOX_CTRL (op + 2 ^ 8 + 64 * 2 ^ 24) = true) ∧
    live.mboxBusy = false ∧ live.flag SE_STATUS 3 = false ∧ live.flag SE_STATUS 2 = false ∧ live.sec.busyOp = none := by decide

theorem wit_MailboxCommandsAct_download :
    (live.trial = false ∧ 256 ≤ (live.setReg SE_MBOX_ARG 256).mboxArg ∧ (live.setReg SE_MBOX_ARG 256).mboxArg ≤ imgSlotSize) ∧
    ¬ 256 ≤ (live.setReg SE_MBOX_ARG 255).mboxArg ∧ MailboxServes .host 0x01 0 (live.setReg SE_MBOX_ARG 256) ∧
    MailboxServes .host 0x02 4096 { staged 2 with sec := { Sec.zero with dlLen := 4096 } } ∧ (staged 2).stage_ = 2 ∧
    (staged 2).mboxArg = (staged 2).sec.dlDone ∧ (4096#13).toNat = 4096 ∧ MailboxServes .host 0x03 0 (staged 2) ∧
    (staged 2).sec.dlDone = (staged 2).sec.dlLen ∧ MailboxServes .host 0x03 0 (staged 1) ∧ MailboxServes .host 0x04 0 (staged 3) ∧
    (staged 3).trial = false ∧ (staged 3).stage_ = 3 ∧ MailboxServes .host 0x04 0 (staged 2) ∧ MailboxServes .host 0x05 0 trialBoot ∧
    trialBoot.trial = true ∧ MailboxServes .host 0x05 0 live ∧ MailboxServes .host 0x08 0 live := by unfold MailboxServes; decide

theorem wit_MailboxCommandsAct_keys :
    MailboxServes .host 0x10 95 live ∧ MailboxServes .host 0x10 96 live ∧ MailboxServes .host 0x11 64 live ∧ live.sec.kek = none ∧
    MailboxServes .host 0x11 64 { live with sec := { Sec.zero with kek := some (zeros 32) } } ∧
    MailboxServes .host 0x12 56 live ∧ live.approved = false ∧ live.fld (FP_PORT_STATUS (bits live.mboxArg 0 3)) 1 4 ≠ 8 ∧
    MailboxServes .host 0x12 56 (live.setFld SE_STATUS 0 1 1) ∧ (live.setFld SE_STATUS 0 1 1).approved = true ∧
    MailboxServes .host 0x13 0 live ∧ MailboxServes .host 0x1F 0 (live.setFld (FP_PORT_CFG 7) 2 1 1) ∧
    (live.setFld (FP_PORT_CFG 7) 2 1 1).flag (FP_PORT_CFG 7) 2 = true ∧ (live.setFld (FP_PORT_CFG 7) 2 1 1).flag (FP_PORT_CFG 0) 2 = false ∧
    MailboxServes .host 0x20 0 live := by unfold MailboxServes; decide

theorem wit_MailboxCommandsAct_zeroize : NotifiesHere (live.setFld (FP_PORT_CFG 7) 2 1 1) ∧ KeyedPortsIdle (live.setFld (FP_PORT_CFG 7) 2 1 1) :=
  ⟨.inr (by decide), fun _ h => nomatch h⟩

/-- DL_BEGIN in progress. -/
def erasing : State := { (live.setFld SE_MBOX_CTRL 9 1 1) with sec := { Sec.zero with busyOp := some 1 } }

theorem wit_MailboxWaitsAndTrialEvents :
    mailboxCommand (.verify .host 0) = some (.host, 0x03, 0) ∧ erasing.writable .host SE_MBOX_CTRL (0x03 + 2 ^ 8) = true ∧ erasing.mboxBusy = true ∧
    (live.setFld SE_STATUS 3 1 1).mboxBusy = false ∧ (live.setFld SE_STATUS 3 1 1).flag SE_STATUS 3 = true ∧
    (live.setFld SE_STATUS 2 1 1).flag SE_STATUS 2 = true ∧ (live.setFld SE_STATUS 2 1 1).flag SE_STATUS 3 = false ∧
    erasing.writable .host SE_MBOX_CTRL (0 ||| 2 ^ 8) = true ∧ erasing.ctl.life = .alive ∧ erasing.sec.busyOp ≠ none ∧ live.mayConfirm = false ∧
    (∀ k, k < 8 → live.flag (FP_PORT_CFG k) 2 = false) := by decide

/-- A trial boot that has run its self-tests, trained its tiers, is valid and has seen CONFIRM. -/
def trialReady : State :=
  { regs trialBoot [(SE_STATUS, 0x12), (CC_BLOCK_ID, 2 ^ 15)] with
    ctl := { live.ctl with trained := true }, sec := { Sec.zero with confirmSeen := true } }

theorem wit_MailboxWaitsAndTrialEvents_confirm :
    trialReady.mayConfirm = true ∧ trialReady.ctl.life = .alive ∧ NotifiesHere live :=
  ⟨by decide, by decide, .inr (by decide)⟩


-- Witnesses: fabric

/-- A frame of MAC address 2 for MAC address 0 with octets before its EtherType, a Strait header and a payload. -/
def framed (tag hdr payload : List Byte) : Frame :=
  { bytes := beBytes 6 0 ++ beBytes 6 2 ++ tag ++ beBytes 2 0x88B5 ++ hdr ++ payload, icvOk := true }

/-- A frame from block 2 to block 1 that arrives on port 0. -/
def frame (typ flags lane psn apsn climit : Nat) (payload : List Byte) : Frame :=
  framed [] (straitHdr typ flags payload.length 2 1 lane 1 psn apsn climit) payload

/-- A message of a type without a body. -/
def msgOf (mtype : Nat) : List Byte := mkMsg mtype 0 0 0 []

/-- The flow of lane 0 with a frame unacknowledged, with one waiting to open, and with one closing. -/
def opened : State := flowing (flowOf 0)
def sending : State := flowing { unackedFlow with psn := 1 }
def opening : State := flowing { flowOf 0 with st := .opening }
def closing : State := flowing { flowOf 0 with st := .closing }

theorem wit_RejectedFramesAreCounted :
    block.ctl.life = .alive ∧ block.linkUp 0 = false ∧ opened.linkUp 0 = true ∧ opened.flag FP_CFG 0 = false ∧ (frame 1 0 0 0 0 0 []).dmac = opened.baseMac + 0 ∧
    (opened.setFld (FP_PORT_CFG 0) 2 1 1).flag (FP_PORT_CFG 0) 2 = true ∧ (opened.setFld (FP_PORT_CFG 0) 2 1 1).macsecOk 0 (frame 1 0 0 0 0 0 []) = false ∧
    opened.flag (FP_PORT_CFG 0) 2 = false ∧ opened.vlanOk (framed (beBytes 2 0x8100 ++ beBytes 2 5) (zeros 32) []) = false ∧ opened.vlanOk (frame 1 0 0 0 0 0 []) = true ∧
    (frame 1 0 0 0 0 0 []).etype = opened.fld FP_ETYPE 0 16 ∧
    frameSrc (framed [] (straitHdr 1 0 0 1 1 0 1 0 0 0) []) = opened.id ∧
    opened.headerOk (framed [] (zeros 32) []) 1 = false := by decide

theorem arrives (s : State) (f : Frame) (h : s.linkUp 0 = true ∧ s.flag FP_CFG 0 = false ∧ f.dmac = s.baseMac + 0 ∧ s.flag (FP_PORT_CFG 0) 2 = false ∧ f.sealed = false ∧
    s.vlanOk f = true ∧ f.etype = s.fld FP_ETYPE 0 16 ∧ frameSrc f ≠ s.id) : FrameArrives 0 f s :=
  ⟨h.1, fun _ => h.2.2.1, fun x => absurd x (by simp [h.2.2.2.1]), fun _ => h.2.2.2.2.1, h.2.2.2.2.2.1, fun x => absurd x (by simp [h.2.1]),
    fun _ => h.2.2.2.2.2.2.1, h.2.2.2.2.2.2.2⟩

theorem wit_RejectedFramesAreCounted_header : FrameArrives 0 (frame 2 0 0 0 0 0 []) opened ∧
    opened.headerOk (frame 2 0 0 0 0 0 []) 1 = false := ⟨arrives _ _ (by decide), by decide⟩

theorem taken (s : State) (f : Frame) (typ : Nat) (h : s.linkUp 0 = true ∧ s.flag FP_CFG 0 = false ∧ f.dmac = s.baseMac + 0 ∧ s.flag (FP_PORT_CFG 0) 2 = false ∧ f.sealed = false ∧
    s.vlanOk f = true ∧ f.etype = s.fld FP_ETYPE 0 16 ∧ frameSrc f ≠ s.id) (g : s.headerOk f typ = true)
    (e : typ = 4 ∨ (s.flow? (frameSrc f) (frameLane f)).any (fun x => x.epoch == frameEpoch f) = true) : FrameTaken 0 f typ s :=
  ⟨arrives s f h, g, fun n => e.resolve_left n⟩

/-- DATA with a whole message in order, repeated and ahead. -/
def dataAt (psn : Nat) : Frame := frame 1 1 0 psn 0 64 (fragment 0 0 (msgOf 0x0B) true true)

theorem wit_DataAndAcknowledgementsMoveFlows_data :
    FrameTaken 0 (dataAt 0) 1 opened ∧ FrameTaken 0 (dataAt 0xFFFFFFFF) 1 opened ∧ FrameTaken 0 (dataAt 1) 1 opened ∧
    (((opened.arrived 0 (dataAt 0) 9).takeAck 2 0 (dataAt 0).hdr).flow? 2 0).any
      (fun w => w.st == .open_ && w.rxPsn == 0 && w.partials.isEmpty && w.nakAt.isNone && w.port == some 0) = true ∧
    (framePsn (dataAt 0) + 2 ^ 32 - (flowOf 0).rxPsn % 2 ^ 32) % 2 ^ 32 = 0 ∧
    2 ^ 31 ≤ (framePsn (dataAt 0xFFFFFFFF) + 2 ^ 32 - (flowOf 0).rxPsn % 2 ^ 32) % 2 ^ 32 ∧
    0 < (framePsn (dataAt 1) + 2 ^ 32 - (flowOf 0).rxPsn % 2 ^ 32) % 2 ^ 32 ∧ (framePsn (dataAt 1) + 2 ^ 32 - (flowOf 0).rxPsn % 2 ^ 32) % 2 ^ 32 < 2 ^ 31 ∧
    16 ≤ (msgOf 0x0B).length ∧ mLen (msgOf 0x0B) = (msgOf 0x0B).length ∧ knownType (mType (msgOf 0x0B)) = true ∧
    opened.otherLine (msgOf 0x0B) = false ∧ lookupBy 0 (flowOf 0).partials = none :=
  ⟨taken _ _ _ (by decide) (by decide) (.inr (by decide)), taken _ _ _ (by decide) (by decide) (.inr (by decide)),
    taken _ _ _ (by decide) (by decide) (.inr (by decide)), by decide, by decide, by decide, by decide, by decide, by decide, by decide, by decide, by decide, by decide⟩

theorem wit_DataAndAcknowledgementsMoveFlows_ack :
    FrameTaken 0 (frame 2 1 0 0 1 70 []) 2 sending ∧ (sending.flow? 2 0).any (fun w => w.psn == 1 && w.acked == 0) = true ∧ NothingQueued sending ∧
    FrameTaken 0 (frame 2 0 0 0 1 70 []) 2 sending ∧ bit (leAt (frame 2 1 0 0 1 70 []).hdr 1 1) 0 = true ∧
    bit (leAt (frame 2 0 0 0 1 70 []).hdr 1 1) 0 = false :=
  ⟨taken _ _ _ (by decide) (by decide) (.inr (by decide)), by decide, ⟨by decide, rfl, rfl⟩, taken _ _ _ (by decide) (by decide) (.inr (by decide)),
    by decide, by decide⟩

theorem wit_DataAndAcknowledgementsMoveFlows_nak :
    FrameTaken 0 (frame 3 0 0 0 0 0 []) 3 sending ∧
    (((sending.arrived 0 (frame 3 0 0 0 0 0 []) 9).takeAck 2 0 (frame 3 0 0 0 0 0 []).hdr).flow? 2 0).any
      (fun w => w.st != .opening && w.port == some 0) = true ∧
    ((sending.arrived 0 (frame 3 0 0 0 0 0 []) 9).takeAck 2 0 (frame 3 0 0 0 0 0 []).hdr).paused 0 0 = false :=
  ⟨taken _ _ _ (by decide) (by decide) (.inr (by decide)), by decide, by decide⟩

theorem wit_FlowsOpenAndClose :
    FrameTaken 0 (frame 4 0 0 0 0 0 []) 4 meshed ∧ NothingQueued meshed ∧ meshed.valid = true ∧ meshed.flow? 2 0 = none ∧ meshed.fab.flows.length < 8192 ∧
    FrameTaken 0 (frame 5 0 0 0 0 0 []) 5 opening ∧ NothingQueued opening ∧ (opening.flow? 2 0).any (fun w => w.st == .opening) = true ∧
    FrameTaken 0 (frame 5 0 0 0 0 0 []) 5 opened ∧ NothingQueued opened ∧ FrameTaken 0 (frame 6 0 0 0 0 0 []) 6 opened ∧
    ((opened.arrived 0 (frame 6 0 0 0 0 0 []) 9).takeAck 2 0 (frame 6 0 0 0 0 0 []).hdr).flow? 2 0 = some (flowOf 0) ∧
    FrameTaken 0 (frame 6 0 0 0 0 0 []) 6 sending ∧ FrameTaken 0 (frame 7 0 0 0 0 0 []) 7 closing ∧ closing.fab.stalled = [] ∧
    (closing.flow? 2 0).any (fun w => w.st == .closing) = true :=
  ⟨taken _ _ _ (by decide) (by decide) (.inl rfl), ⟨by decide, rfl, rfl⟩, by decide, by decide, by decide,
    taken _ _ _ (by decide) (by decide) (.inr (by decide)), ⟨by decide, rfl, rfl⟩, by decide, taken _ _ _ (by decide) (by decide) (.inr (by decide)),
    ⟨by decide, rfl, rfl⟩, taken _ _ _ (by decide) (by decide) (.inr (by decide)), by decide, taken _ _ _ (by decide) (by decide) (.inr (by decide)),
    taken _ _ _ (by decide) (by decide) (.inr (by decide)), rfl, by decide⟩

/-- A message of which a part waits on lane 2. -/
def outPart : OutMsg := { id := 0, bytes := msgOf 0x0A, off := 0 }
def coalescing : State := flowing { flowOf 2 with queue := [outPart] }
def timedOut (n : Nat) : State := flowing { unackedFlow with psn := 1, timeouts := n }

theorem wit_FlowTimersAct_rto :
    sending.ctl.life = .alive ∧ sending.tab.addWaits = [] ∧ (sending.flow? 2 0).any (fun w => (sending.advance sec).rtoDue w) = true ∧
    (sending.flow? 2 0).any (fun w => !(sending.advance 0).rtoDue w) = true ∧ 0 + 1 < sending.retryMax ∧
    (opening.flow? 2 0).any (fun w => (opening.advance sec).rtoDue w && w.st == .opening && w.port == some 0) = true ∧
    (sending.advance sec).paused 0 0 = false ∧ (timedOut (sending.retryMax - 1)).retryMax ≤ (sending.retryMax - 1) + 1 := by decide

/-- Port 1 comes beside port 0. -/
def twoPorts (n : Nat) : State := (timedOut n).setReg (FP_PORT_STATUS 1) 1
def timedFollower (n : Nat) : State :=
  { timedOut n with regs := (regs meshed [(TK_REGISTRY 0, 5 + 2 ^ 15), (TK_REGISTRY 1, 1 + 2 ^ 15)]).regs }

theorem wit_FlowTimersAct_retryMax :
    ((twoPorts 8).fab.flows.filter (fun g => g.partner == 2)).length = 1 ∧ (twoPorts 8).retryMax ≤ 8 ∧ (twoPorts 8).usable 2 (addOnce 0 []) ≠ [] ∧
    (timedFollower 8).usable 2 (addOnce 0 []) = [] ∧ ((timedFollower 8).route 2).length = 32 ∧ (timedFollower 8).leadOrDeputy 2 = some 5 ∧
    (timedFollower 8).id = 1 ∧ (timedFollower 8).retryMax ≤ 8 ∧ (∀ x ∈ (timedFollower 8).fab.xchg, x.dst ≠ 2) ∧
    (timedFollower 8).tab.addWaits = [] := by decide

theorem wit_FlowTimersAct_retryMax_quiet : Quiet (timedFollower 8) := ⟨by decide, rfl, rfl, rfl, rfl, rfl⟩

theorem wit_FlowTimersAct_others :
    (flowing { flowOf 0 with sinceAck := 1 }).ctl.life = .alive ∧
    ((flowing { flowOf 0 with sinceAck := 1 }).flow? 2 0).any (fun w => w.sinceAck != 0 &&
      decide (w.oldestRx + (flowing { flowOf 0 with sinceAck := 1 }).fld FP_CFG 44 8 * 100 * ns ≤ sec)) = true ∧
    (opened.flow? 2 0).any (fun w => w.st == .open_ && w.unacked == [] && w.queue == [] &&
      decide (w.lastUse + opened.fld FP_CFG 28 8 * ms ≤ sec)) = true ∧
    (meshed.setRouteBit 2 2 true).valid = true ∧ (meshed.setRouteBit 2 2 true).routeBit 2 2 = true ∧ (meshed.setRouteBit 2 2 true).routeBit 2 3 = false ∧
    (meshed.setRouteBit 2 2 true).routeBit 2 0 = true ∧ (meshed.setRouteBit 2 2 true).fab.flows.length < 8192 ∧
    (coalescing.flow? 2 2).any (fun w => w.st == .open_ && w.port == some 0 && w.queue == [outPart]) = true ∧
    (coalescing.advance 9).paused 0 2 = false ∧ coalescing.draining 0 = false ∧ outPart.off < outPart.bytes.length ∧
    outPart.bytes.length - outPart.off + 12 ≤ coalescing.maxPayload ∧ 0 + frameCost (16 + 12) ≤ 64 ∧ coalescing.flag FP_CFG 2 = false ∧
    coalescing.txUse + 16 + 12 ≤ coalescing.fld FP_BUF_CFG 44 12 * 2 ^ 20 := by decide

/-- Priority 3 of port 0 has been paused since instant 0. -/
def pausing : State := { meshed.setFld FP_LANE_CFG 15 1 1 with fab := { meshed.fab with pauses := [(0, 3, 2 * sec, 0)] } }

theorem wit_PausesFollowFramesAndWatchdog :
    pausing.ctl.life = .alive ∧ NothingQueued pausing ∧ pausing.linkUp 0 = true ∧ bit (8#8).toNat 3 = true ∧ pausing.flag FP_LANE_CFG (12 + 3) = true ∧
    (∀ x ∈ pausing.fab.ignorePause, x.1 = 0 → x.2.1 = 3 → x.2.2 ≤ 9) ∧
    pausing.fab.pauses.find? (fun y => y.1 == 0 && y.2.1 == 3) = some (0, 3, 2 * sec, 0) ∧ pausing.fld FP_LANE_CFG 20 8 * ms ≠ 0 ∧
    0 + pausing.fld FP_LANE_CFG 20 8 * ms ≤ sec ∧ sec < 2 * sec :=
  ⟨by decide, ⟨by decide, rfl, rfl⟩, by decide, by decide, by decide, by decide, by decide, by decide, by decide, by decide⟩

/-- Port 0 of `opened` with MACSEC_EN and a transmit association that is used up. -/
def worn : State :=
  { opened.setFld (FP_PORT_CFG 0) 2 1 1 with
    sec := { Sec.zero with sas := [{ port := 0, rx := false, an := 0, key := [], ssci := 0, salt := [], pn := 2 ^ 64 - 1 }] } }
def lbWait : State := { withCmd tabled (opCmd oLoopback [(64, 1, 5), (48, 8, dst)]) with
  fab := { Fabric.zero with lb := [{ handle := 1, depth := 5, port := 0, stage := 1, since := 0, errs := 0, first := none, bytes := 0 }] } }

theorem wit_PortsLeaveAndEnter :
    opened.ctl.life = .alive ∧ worn.pnExhausted 0 = true ∧ meshed.linkUp 1 = false ∧ meshed.lbHolds 1 = false ∧
    meshed.fld (FP_PORT_STATUS 1) 1 4 ≠ 8 ∧ opened.linkUp 0 = true ∧ opened.lbHolds 0 = false ∧ opened.fld (FP_PORT_STATUS 0) 1 4 ≠ 8 ∧
    (opened.fab.flows.map (fun g => (g.partner, g.lane))).Nodup ∧
    (∀ g ∈ opened.fab.flows, g.port = some 0 → g.st ≠ .opening ∧ g.unacked = [] ∧ g.queue = []) ∧
    (worn.fab.flows.map (fun g => (g.partner, g.lane))).Nodup ∧
    (∀ g ∈ worn.fab.flows, g.port = some 0 → g.st ≠ .opening ∧ g.unacked = [] ∧ g.queue = []) ∧
    (∀ g ∈ meshed.fab.flows, g.port ≠ none) ∧ meshed.flag (FP_PORT_CFG 1) 0 = true ∧ (meshed.fab.fecHold = []) ∧
    lbWait.fab.lb.find? (fun x => x.port == 0 && x.stage == 1) = lbWait.fab.lb.head? ∧ lbWait.fab.lb ≠ [] ∧ (lbWait.cmd? 1).isSome = true ∧
    (Desc.of (opCmd oLoopback [(64, 1, 5), (48, 8, dst)]).desc).depth = 5 ∧
    ((lbWait.upFab (fun f => { f with lb := [] })).reachUnits (opCmd oLoopback [(64, 1, 5), (48, 8, dst)]) 0 [[(dst, zeros 64)]]).2.2 = .done := by decide

theorem wit_PortsLeaveAndEnter_notify : NotifiesHere opened ∧ NotifiesHere worn ∧ NotifiesHere meshed :=
  ⟨.inl (by decide), .inl (by decide), .inl (by decide)⟩


-- Witnesses: messages

/-- A message of a type with 16 bytes of header, `n` bytes in all and fields at offsets. -/
def request (mtype n : Nat) (l : List (Nat × Nat × Nat)) : List Byte := fill n ([(0, 1, mtype), (4, 4, n)] ++ l)

/-- `meshed` with table 3 in context 5 and a message of block 2 in the inbox. -/
def served (lane : Nat) (msg : List Byte) : State :=
  { meshed with
    tab := { meshed.tab with recs := meshed.tab.recs.map (fun r => { r with ctx := 5 }) }
    fab := { meshed.fab with inbox := [{ src := 2, lane := lane, bytes := msg }] } }

theorem requested (t lane : Nat) (msg : List Byte) (s : State) (h : mType msg = t ∧ s.inTurn 2 msg = true ∧ s.isFailed 2 = false ∧ s.laneOf 2 msg 0 = lane ∧ s.valid = true ∧
    s.noRoute 2 = false ∧ 2 ≠ s.id ∧ s.fab.flows.length < 8192) : Requested 2 t msg lane s :=
  ⟨h.1, h.2.1, h.2.2.1, h.2.2.2.1, h.2.2.2.2.1, h.2.2.2.2.2.1, h.2.2.2.2.2.2.1, .inr h.2.2.2.2.2.2.2⟩

/-- READ_REQ and POOL_REQ for row 5 of table 3, version 1, by a context. -/
def readReq (ctx row : Nat) : List Byte := request 0x01 56 [(16, 3, 3), (20, 2, 1), (22, 2, ctx), (26, 2, 1), (48, 8, row)]
def poolReq (ctx : Nat) : List Byte := request 0x02 72 [(16, 3, 3), (20, 2, 1), (22, 2, ctx), (26, 2, 1), (52, 4, 1), (64, 8, 5)]

theorem wit_LookupMessagesAreServed_read :
    Requested 2 0x01 (readReq 5 5) 1 (served 1 (readReq 5 5)) ∧ (served 1 (readReq 5 5)).laneOf 2 (readReq 5 5) 1 = 1 ∧
    ((served 1 (readReq 5 5)).rec? 3).any (fun r => !ctxDenied r 5 true && ctxDenied r 6 true && r.tbl == 3) = true ∧ readRows (readReq 5 5) = [5] ∧
    (served 1 (readReq 5 5)).heldRows 3 1 [5] = true ∧ (served 1 (readReq 5 8192)).heldRows 3 1 (readRows (readReq 5 8192)) = false ∧
    ((((served 1 (readReq 5 5)).advance 9).fetchLocal 3 1 0 ((served 1 (readReq 5 5)).verFmt 3 1) [5]).2 ==
      [(5, .row (List.replicate 4 0#32) Findings.none)]) = true ∧ (served 1 (readReq 5 5)).remotePart = 0 ∧
    Requested 2 0x01 (request 0x01 56 [(16, 3, 9)]) 1 (served 1 (request 0x01 56 [(16, 3, 9)])) ∧ (served 1 (request 0x01 56 [(16, 3, 9)])).rec? 9 = none :=
  ⟨requested _ _ _ _ (by decide), by decide, by decide, by decide, by decide, by decide, by decide, by decide, requested _ _ _ _ (by decide), by decide⟩

theorem wit_LookupMessagesAreServed_pool :
    Requested 2 0x02 (poolReq 5) 1 (served 1 (poolReq 5)) ∧ (served 1 (poolReq 5)).laneOf 2 (poolReq 5) 1 = 1 ∧
    msgBags (poolReq 5) = [(0, 1, 0, leBytes 8 5)] ∧ bits (leAt (poolReq 5) 19 1) 0 2 ≠ 3 ∧
    (served 1 (poolReq 5)).heldRows 3 1 (sortUnique (nums (leBytes 8 5) 8 1)) = true ∧
    servable (bit (leAt (poolReq 5) 19 1) 3) (((served 1 (poolReq 5)).advance 9).fetchServed 2 (mHandle (poolReq 5)) (leAt (poolReq 5) 28 4) 3 1
      ((served 1 (poolReq 5)).verFmt 3 1) (sortUnique (nums (leBytes 8 5) 8 1))).2 = true :=
  ⟨requested _ _ _ _ (by decide), by decide, by decide, by decide, by decide, by decide⟩

/-- LOOKUP waiting for row 5 from block 2, and a POOL_BACKWARD-free pool waiting for bag 0. -/
def lookupFar : Cmd := { lookupIn with pos := [{ idx := 5, kind := .remote 2, w := 0, v := [], fnd := 0 }] }
def awaiting (kind : XKind) (c : Cmd) (msg : List Byte) : State :=
  { withCmd meshed c with fab := { meshed.fab with xchg := [{ xid := 7, dst := 2, kind := kind, handle := 1, msg := msg, lane := 1 }] } }
def readReply (st : Nat) : List Byte := request 0x81 64 [(2, 1, st), (12, 4, 7), (16, 4, 1), (32, 4, 9)]
def poolReply : List Byte := request 0x82 56 [(12, 4, 7), (16, 4, 1), (40, 4, 9)]

theorem wit_LookupMessagesAreServed_reply :
    mType (readReply 0) = 0x81 ∧ mType poolReply = 0x82 ∧ meshed.xchg? 2 (mXid (readReply 0)) = none ∧
    ((awaiting .bundle lookupFar (readReq 0 5)).xchg? 2 (mXid (readReply 0))).any (fun x => x.kind == .bundle && x.handle == 1) = true ∧
    (awaiting .bundle lookupFar (readReq 0 5)).cmd? 1 = some lookupFar ∧ mStatus (readReply 0x31) ≠ 0 ∧ mStatus (readReply 0x31) ≠ 0xF0 ∧
    mStatus (readReply 0) = 0 ∧ readRows (readReq 0 5) = [5] ∧ lookupFar.got = [] ∧
    (replyRows ((Desc.of lookupFar.desc).stride 4) ((readReply 0).drop 16)).length = 1 ∧ leAt ((readReply 0).drop 16) 4 1 = 0 ∧
    lookupFar.parts = [] ∧ mStatus poolReply = 0 ∧
    (msgBags (poolReq 0)).all (fun b => (replyParts 2 7 4 false (leAt (poolReply.drop 16) 0 4) ((poolReply.drop 16).drop 16)).any
      (fun q => q.xid == 7 && q.bag == b.1)) = true ∧
    meshed.inTurn 2 poolReply = true ∧ lookupFar.deadline < max meshed.ctl.now 2000000000 ∧ max meshed.ctl.now 9 ≤ lookupFar.deadline := by decide

theorem wit_LookupMessagesAreServed_cutoff :
    (awaiting (.listRead dst) lookupFar []).cmd? 1 = some lookupFar ∧ 0 < lookupFar.deadline ∧ lookupFar.deadline ≤ 1000000000 ∧ lookupFar.phase = .waiting ∧
    ((awaiting (.listRead dst) lookupFar []).fab.xchg.filter (fun x => x.handle == lookupFar.handle &&
      (match x.kind with | .listRead _ => true | _ => false))).map (fun x => x.dst) = [2] ∧
    Quiet ((awaiting (.listRead dst) lookupFar []).finish 1 sOk) ∧ (awaiting (.listRead dst) lookupFar []).tab.addWaits = [] :=
  ⟨by decide, by decide, by decide, rfl, by decide, ⟨by decide, rfl, rfl, rfl, rfl, rfl⟩, rfl⟩

/-- ADD of one row of table 3 by a context. -/
def addMsg (ctx : Nat) : List Byte := request 0x03 72 [(16, 3, 3), (20, 2, 1), (22, 2, ctx), (24, 2, 2), (26, 2, 1), (28, 2, 4), (32, 4, 1000), (48, 8, 5), (56, 4, 0x3F800000)]

theorem wit_AddsDoorbellsAndRegisters_add :
    (served 3 (addMsg 0)).tab.addWaits = [] ∧ Requested 2 0x03 (addMsg 0) 3 (served 3 (addMsg 0)) ∧ leAt (addMsg 0) 22 2 = 0 ∧
    Requested 2 0x03 (addMsg 5) 3 (served 3 (addMsg 5)) ∧ leAt (addMsg 5) 22 2 ≠ 0 ∧ (addsOf (addMsg 5)).map (fun a => (a.tbl, a.ver, a.row)) = [(3, 1, 5)] ∧
    ((served 3 (addMsg 5)).rec? 3).any (fun r => !ctxDenied r 5 false && !r.ordered) = true ∧
    (addsOf (addMsg 5)).all (fun a => !(served 3 (addMsg 5)).recentAdd a) = true ∧
    ((served 3 (addMsg 5)).ver? 3 1).any (fun v => !((served 3 (addMsg 5)).pentry v.pmap 0).repl && v.ver == 1) = true ∧
    ((served 3 (addMsg 5)).rec? 3).any (fun r => !(served 3 (addMsg 5)).verRetired r 1) = true ∧
    ((served 3 (addMsg 5)).group? 3 1 0).any (fun x => !x.secondary && !x.leaving && x.moving == none && x.tbl == 3) = true ∧
    (served 3 (addMsg 5)).tierOut 0 = false :=
  ⟨rfl, requested _ _ _ _ (by decide), by decide, requested _ _ _ _ (by decide), by decide, by decide, by decide, by decide, by decide, by decide, by decide,
    by decide⟩

theorem wit_AddsDoorbellsAndRegisters_applied :
    ((served 3 (addMsg 5)).rec? 3).any (fun r => ((served 3 (addMsg 5)).group? 3 1 0).any (fun x => (addsOf (addMsg 5)).all (fun a =>
      ((served 3 (addMsg 5)).applyRow r x 0 a.row a.kcmd a.origin 0 0 false a.val).2.isSome))) = true := by decide

theorem wit_AddsDoorbellsAndRegisters_repeated :
    (addsOf (addMsg 5)).all (fun a => ({ served 3 (addMsg 5) with tab := { (served 3 (addMsg 5)).tab with recent := [(2, 0, 5, 0)] } }).recentAdd a) = true := by
  decide

/-- ADD_ACK without drops, and the exchange that it ends. -/
def addAckMsg : List Byte := request 0x83 24 [(12, 4, 7)]
def addSent : State := { awaiting .add (opCmd oNop []) [] with cmds := [] }

theorem wit_AddsDoorbellsAndRegisters_ack :
    mType addAckMsg = 0x83 ∧ (addSent.xchg? 2 (mXid addAckMsg)).any (fun x => x.kind == .add) = true ∧ mStatus addAckMsg = 0 ∧ leAt addAckMsg 18 2 = 0 ∧
    addSent.tab.carries = [] ∧ addSent.tab.journal = [] ∧ Quiet addSent := ⟨by decide, by decide, by decide, by decide, rfl, rfl, by decide, rfl, rfl, rfl, rfl, rfl⟩

/-- A remote ring 63 of block 2, and its DOORBELL with one slot. -/
def remoteRinged : State := regs meshed [(RF_CFG 63, 6 + 6 * 2 ^ 5 + 2 ^ 10 + 2 * 2 ^ 37 + 2 ^ 52), (RF_STATUS 63, 1)]
def doorbell (k : Nat) : List Byte := request 0x06 (32 + 128 * k) [(16, 1, 63), (20, 4, k), (28, 2, k)]

theorem wit_AddsDoorbellsAndRegisters_doorbell :
    mType (doorbell 1) = 0x06 ∧ remoteRinged.isFailed 2 = false ∧ leAt (doorbell 1) 16 1 < 64 ∧ remoteRinged.ringState 63 = 1 ∧
    remoteRinged.remoteRing 63 = true ∧ remoteRinged.reqBlock 63 = 2 ∧ leAt (doorbell 1) 24 4 = (remoteRinged.ring 63).tail % 2 ^ remoteRinged.sqLog 63 ∧
    (doorbell 1).length = 32 + 128 * 1 ∧ remoteRinged.tailOk 63 1 = true ∧ 1 = ((remoteRinged.ring 63).tail + 1) % 2 ^ (remoteRinged.sqLog 63 + 1) ∧
    ringed.ringState 63 ≠ 1 := by decide

/-- REG of one entry: offset, no condition, direction and value; block 2 may use every register, or none. -/
def regMsg (off wr v : Nat) : List Byte := request 0x07 48 [(16, 4, 1), (32, 4, off), (37, 1, wr), (40, 8, v)]
def regServed (level : Nat) (msg : List Byte) : State := (served 0 msg).setReg (FP_RA_ALLOW 0) (2 + 2 * 2 ^ 15 + level * 2 ^ 30)

theorem wit_AddsDoorbellsAndRegisters_reg :
    Requested 2 0x07 (regMsg TU_CFG 1 5) 0 (regServed 2 (regMsg TU_CFG 1 5)) ∧ (regServed 2 (regMsg TU_CFG 1 5)).raLevel 2 = 2 ∧
    (regServed 0 (regMsg TU_CFG 1 5)).raLevel 2 = 0 ∧ leAt (regMsg TU_CFG 1 5) 16 4 = 1 ∧ (regMsg TU_CFG 1 5).length = 48 ∧
    leAt ((regMsg TU_CFG 1 5).drop 32) 4 1 ≠ 1 ∧ leAt ((regMsg TU_CFG 1 5).drop 32) 5 1 = 1 ∧ leAt ((regMsg TU_CFG 1 5).drop 32) 0 4 = TU_CFG ∧
    TU_CFG % 8 = 0 ∧ TU_CFG < 2 ^ 20 ∧ (regServed 2 (regMsg TU_CFG 1 5)).fwReady = true ∧ byFieldsAlone (regServed 2 (regMsg TU_CFG 1 5)) TU_CFG = true ∧
    leAt ((regMsg TU_CFG 0 5).drop 32) 5 1 ≠ 1 ∧ ringOfOff TU_CFG = none ∧ TU_CFG ≠ TT_UPTIME ∧
    ({ regServed 2 (regMsg TU_CFG 1 5) with fab := { meshed.fab with regReplies := [(2, 0, [], 0)] } }).fab.regReplies.find?
      (fun x => x.1 == 2 && x.2.1 == mXid (regMsg TU_CFG 1 5) && decide (9 < x.2.2.2 + 2 * Sys2Proof.sec)) = some (2, 0, [], 0) ∧
    mType (request 0x87 16 []) = 0x87 :=
  ⟨requested _ _ _ _ (by decide), by decide, by decide, by decide, by decide, by decide, by decide, by decide, by decide, by decide, by decide, by decide,
    by decide, by decide, by decide, by decide, by decide⟩

theorem wit_AddsDoorbellsAndRegisters_opening : StillOpening 2 0 opening := ⟨{ flowOf 0 with st := .opening }, by decide, rfl⟩

/-- MEM_READ and MEM_WRITE of 8 bytes at offset 0x1000 of Tier S by a context, and a window for context 5. -/
def memMsg (mtype n a ctx : Nat) : List Byte := request mtype n [(16, 8, a), (24, 4, 8), (28, 2, ctx)]
def windowed (lane : Nat) (msg : List Byte) : State :=
  { served lane msg with tu := { Trans.zero with wins := [(0, leBytes 16 (2 ^ 64 + 5 * 2 ^ 96 + 3 * 2 ^ 112 + 2 ^ 120 + 0x1000))] } }

theorem wit_MemoryMessagesAndEchoes_read :
    Requested 2 0x09 (memMsg 0x09 32 dst 5) 1 (windowed 1 (memMsg 0x09 32 dst 5)) ∧ leAt (memMsg 0x09 32 dst 5) 24 4 ≤ 65504 ∧ gBlock dst = 1 ∧ gTier dst = 0 ∧
    (windowed 1 []).addressOk dst 8 = true ∧ (windowed 1 []).windowOk 5 0 0x1000 8 false = true ∧ (windowed 1 []).windowOk 5 0 0x1000 8 true = true ∧
    (windowed 1 []).tierReadOk 0 0x1000 8 = true ∧ Requested 2 0x09 (memMsg 0x09 32 dst 0) 1 (windowed 1 (memMsg 0x09 32 dst 0)) ∧
    65504 < leAt (request 0x09 32 [(24, 4, 65505)]) 24 4 ∧ gOff dst = 0x1000 ∧
    (windowed 1 (memMsg 0x09 32 dst 5)).memHeld (memMsg 0x09 32 dst 5) false = false ∧
    (windowed 1 (memMsg 0x09 32 dst 0)).memHeld (memMsg 0x09 32 dst 0) false = false :=
  ⟨requested _ _ _ _ (by decide), by decide, by decide, by decide, by decide, by decide, by decide, by decide, requested _ _ _ _ (by decide), by decide, by decide,
    by decide, by decide⟩

theorem wit_MemoryMessagesAndEchoes_write :
    Sound (windowed 1 (memMsg 0x0A 40 dst 5)) ∧ Requested 2 0x0A (memMsg 0x0A 40 dst 5) 1 (windowed 1 (memMsg 0x0A 40 dst 5)) ∧
    (memMsg 0x0A 40 dst 5).length = 32 + leAt (memMsg 0x0A 40 dst 5) 24 4 ∧ Requested 2 0x0A (memMsg 0x0A 40 dst 0) 1 (windowed 1 (memMsg 0x0A 40 dst 0)) ∧
    (windowed 1 (memMsg 0x0A 40 dst 5)).memHeld (memMsg 0x0A 40 dst 5) true = false ∧
    (windowed 1 (memMsg 0x0A 40 dst 0)).memHeld (memMsg 0x0A 40 dst 0) true = false ∧ (windowed 1 []).tierOut 0 = false :=
  ⟨by unfold Sound; decide, requested _ _ _ _ (by decide), by decide, requested _ _ _ _ (by decide), by decide, by decide, by decide⟩

/-- Tier F, which a window of context 5 names too, is out of service. -/
def windowedF (msg : List Byte) : State :=
  { (served 1 msg).setFld MT_STATUS 2 1 1 with
    tu := { Trans.zero with wins := [(0, leBytes 16 (2 ^ 64 + 5 * 2 ^ 96 + 3 * 2 ^ 112 + 2 ^ 120 + 2 ^ 46 + 0x1000))] } }

theorem wit_MemoryMessagesAndEchoes_writeOut :
    Requested 2 0x0A (memMsg 0x0A 40 (dst + 2 ^ 46) 5) 1 (windowedF (memMsg 0x0A 40 (dst + 2 ^ 46) 5)) ∧ gTier (dst + 2 ^ 46) = 1 ∧
    (windowedF []).addressOk (dst + 2 ^ 46) 8 = true ∧ (windowedF []).windowOk 5 1 0x1000 8 true = true ∧ (windowedF []).tierOut 1 = true ∧
    (windowedF (memMsg 0x0A 40 (dst + 2 ^ 46) 5)).memHeld (memMsg 0x0A 40 (dst + 2 ^ 46) 5) true = false :=
  ⟨requested _ _ _ _ (by decide), by decide, by decide, by decide, by decide, by decide⟩

/-- Two echoes of a loop-back wait. -/
def echoing : State :=
  { withCmd meshed (opCmd oLoopback []) with
    fab := { meshed.fab with
      xchg := [{ xid := 7, dst := 2, kind := .echo 0, handle := 1, msg := zeros 24, lane := 0 }, { xid := 8, dst := 2, kind := .echo 8, handle := 1, msg := zeros 24, lane := 0 }]
      lb := [{ handle := 1, depth := 6, port := 0, stage := 2, since := 0, errs := 0, first := none, bytes := 0 }] } }

theorem wit_MemoryMessagesAndEchoes_replies :
    mType (request 0x89 40 [(12, 4, 7)]) = 0x89 ∧ ((awaiting (.listRead dst) lookupFar []).xchg? 2 7).any (fun x => x.kind == .listRead dst) = true ∧
    mStatus (request 0x89 40 [(12, 4, 7)]) = 0 ∧ mType (request 0x8A 16 [(12, 4, 7)]) = 0x8A ∧
    ((awaiting .update (opCmd oNop []) []).xchg? 2 7).any (fun x => x.kind == .update) = true ∧ mStatus (request 0x8A 16 [(12, 4, 7)]) = 0 ∧
    mStatus (request 0x8A 16 [(2, 1, 0x30), (12, 4, 7)]) ≠ 0 ∧ (awaiting (.ringWrite 0) (opCmd oNop []) []).ringState 0 = 1 ∧
    mType (request 0x8B 24 [(12, 4, 7)]) = 0x8B ∧ (echoing.xchg? 2 7).any (fun x => x.kind == .echo 0) = true ∧
    (∃ y ∈ echoing.fab.xchg, y.xid ≠ 7 ∧ y.handle = 1 ∧ ∃ o, y.kind = .echo o) ∧ (echoing.fab.lb.map (fun b => b.handle)) = [1] ∧
    fitTo 8 ((request 0x8B 24 [(12, 4, 7)]).drop 16) = (zeros 24).drop 16 :=
  ⟨by decide, by decide, by decide, by decide, by decide, by decide, by decide, by decide, by decide, by decide,
    ⟨{ xid := 8, dst := 2, kind := .echo 8, handle := 1, msg := zeros 24, lane := 0 }, by decide, by decide, by decide, 8, rfl⟩, by decide, by decide⟩

theorem wit_MemoryMessagesAndEchoes_quiet : Quiet (awaiting (.ringWrite 0) (opCmd oNop []) []) := ⟨by decide, rfl, rfl, rfl, rfl, rfl⟩

theorem wit_MemoryMessagesAndEchoes_echo :
    Requested 2 0x0B (request 0x0B 24 []) 0 (regServed 1 (request 0x0B 24 [])) ∧ (regServed 1 (request 0x0B 24 [])).raLevel 2 ≠ 0 ∧
    Requested 2 0x0B (request 0x0B 24 []) 0 (regServed 0 (request 0x0B 24 [])) ∧ (regServed 0 (request 0x0B 24 [])).raLevel 2 = 0 ∧
    requestOf (.echo 2 (request 0x0B 24 [])) = some (2, request 0x0B 24 [], 0x0B) ∧ (meshed.setRouteBit 2 3 true).isFailed 2 = true :=
  ⟨requested _ _ _ _ (by decide), by decide, requested _ _ _ _ (by decide), by decide, rfl, by decide⟩


-- Witnesses: Table Keeper

/-- Block 1 alone in its registry, coordinator of table 3, with a route to block 2. -/
def keeper : State := { regs tabled [(TK_REGISTRY 0, 1 + 2 ^ 15), (FP_PORT_STATUS 0, 1)] with fab := { Fabric.zero with routes := [(2, routeOf 1)] } }

/-- The same with table 3 owned by block 2, and with the entry of its group 0. -/
def keeperOf (word : Nat) (groups : List Group) : State :=
  { keeper with
    mem := memPuts [] 0 (leBytes 4 word)
    tab := { keeper.tab with recs := keeper.tab.recs.map (fun r => { r with owners := [2] }), groups := groups } }

/-- Table Keeper headers from block 2, with the registry list of a block. -/
def hdrOf (list : List Nat) : TkHdr := { src := 2, lane := 0, handle := 9, xid := 4, list := list }

/-- With an empty inbox every message is in turn. -/
theorem inTurn_of_empty (s : State) (src : Nat) (msg : List Byte) (h : s.fab.inbox = []) : s.inTurn src msg = true := by
  simp [State.inTurn, h]

theorem at_hand (h : TkHdr) (b : TkBody) (s : State)
    (a : s.ctl.life = .alive ∧ s.isFailed h.src = false ∧ h.list = s.registryList ∧ s.fab.inbox = []) : TkAtHand h b s :=
  ⟨a.1, inTurn_of_empty _ _ _ a.2.2.2, a.2.1, fun _ => a.2.2.1⟩

theorem tk_requested (h : TkHdr) (b : TkBody) (s : State)
    (a : s.ctl.life = .alive ∧ s.isFailed h.src = false ∧ h.list = s.registryList ∧ s.fab.inbox = [])
    (p : s.valid = true ∧ s.noRoute h.src = false ∧ h.src ≠ s.id ∧ s.fab.flows.length < 8192) : TkRequested h b s :=
  ⟨at_hand h b s a, ⟨p.1, p.2.1, p.2.2.1, .inr p.2.2.2⟩⟩

theorem quiet_keeper : Quiet keeper := ⟨by decide, rfl, rfl, rfl, rfl, rfl⟩
theorem asks_keeper (b : TkBody) : TkRequested (hdrOf [1]) b keeper := tk_requested _ _ _ (by decide) (by decide)
theorem asks_keeperOf (b : TkBody) (gs : List Group) : TkRequested (hdrOf [1]) b (keeperOf 0 gs) :=
  tk_requested _ _ _ ⟨rfl, by show keeper.isFailed 2 = false; decide, by show [1] = keeper.registryList; decide, rfl⟩
    ⟨by show keeper.valid = true; decide, by show keeper.noRoute 2 = false; decide, by show 2 ≠ keeper.id; decide,
      by show keeper.fab.flows.length < 8192; decide⟩

/-- Entries of group 0: unmapped, resident at block 2, promoting at block 5, resident here with a secondary. -/
def entry (owner state : Nat) : PEntry := { owner := owner, tier := 0, repl := false, state := state, epoch := 0 }

theorem wit_RegistryRequestsAreServed_refused :
    tkRequestOf (.recordFetch (hdrOf [1]) 3) = some (hdrOf [1], .recordFetch 3) ∧ (keeper.setRouteBit 2 3 true).isFailed 2 = true ∧
    registryCode (tkCode (.recordFetch 3)).1 = true ∧ (hdrOf [2]).list ≠ keeper.registryList ∧ CanPost 2 0 keeper :=
  ⟨rfl, by decide, by decide, by decide, (asks_keeper (.recordFetch 3)).post⟩

theorem wit_RegistryRequestsAreServed_entries :
    Quiet keeper ∧ TkRequested (hdrOf [1]) (.entryFetch 3 1 0) keeper ∧ (keeper.ver? 3 1).isSome = true ∧ keeper.ver? 3 2 = none ∧
    Sound (keeperOf 0 []) ∧ NoFollowers 3 (keeperOf 0 []) ∧ TkRequested (hdrOf [1]) (.mapReq 3 1 0) (keeperOf 0 []) ∧
    ((keeperOf 0 []).rec? 3).any (fun r => !r.repl2 && r.assigned 0 == 2) = true ∧ ((keeperOf 0 []).ver? 3 1).isSome = true ∧
    (keeperOf 0 []).group? 3 1 0 = none ∧ ((keeperOf 0 []).pentry 0 0).state = pUnmapped ∧ 2 ≠ (keeperOf 0 []).id ∧ (entry 2 pResident).fits :=
  ⟨quiet_keeper, asks_keeper _, by decide, by decide, by unfold Sound; decide, ⟨by decide, rfl⟩, asks_keeperOf _ _, by decide, by decide, by decide, by decide,
    by decide, by unfold PEntry.fits; decide⟩

/-- A TABLE_CREATE without a format. -/
def badCreate : CreateArgs := { fmt := 15, rows := 1, tflags := 0, recipe := 0, place := 0, nblk := 1, ctx := 0, rcp := [], full := false, home := 0,
                                owners := [], tier := 0 }

theorem wit_RegistryRequestsAreServed_claims :
    TkRequested (hdrOf [1]) (.publishReq 9 0 0) keeper ∧ (hdrOf [1]).src ≠ keeper.id ∧ keeper.rec? 9 = none ∧
    TkRequested (hdrOf [1]) (.claim 9 badCreate) keeper ∧ (keeper.createCheck 9 badCreate 2).1 ≠ sOk :=
  ⟨asks_keeper _, by decide, by decide, asks_keeper _, by decide⟩

theorem wit_RegistryRequestsAreServed_records :
    TkRequested (hdrOf [1]) (.recordFetch 3) keeper ∧ (keeper.rec? 3).any (fun r => !r.dying) = true ∧ keeper.coordinator 3 = some keeper.id ∧
    keeper.mirrorOf 3 = none ∧ keeper.rec? 9 = none := ⟨asks_keeper _, by decide, by decide, by decide, by decide⟩

/-- A home block that is not the coordinator, with a group that it owns, and with a command on the table. -/
def homed : State := { meshed with mem := memPuts [] 0 (leBytes 4 (entWord (entry 1 pResident))) }
def naming : State := withCmd keeper (opCmd oLookup [])

theorem wit_RegistryRequestsAreServed_updates :
    TkRequested (hdrOf [1]) (.update (.owners 3 [1, 2])) keeper ∧ keeper.naming 3 = false ∧ naming.naming 3 = true ∧ Quiet naming ∧
    TkRequested (hdrOf [1, 2]) (.update (.entry 3 1 0 (entry 2 pResident))) homed ∧ Quiet homed ∧ Sound homed ∧ homed.tab.journal = [] ∧
    homed.coordinator 3 ≠ some homed.id ∧ (homed.ver? 3 1).any (fun x => x.pmap == 0) = true ∧ (entry 2 pResident).fits ∧ 2 ≠ homed.id ∧
    (homed.pentry 0 0).state ≠ pMigrating ∧ (homed.pentry 0 0).epoch = 0 ∧ (homed.group? 3 1 0).any (fun y => !y.secondary) = true ∧
    keeper.tab.journal = [] ∧ keeper.secondaryOf 3 0 ≠ some keeper.id :=
  ⟨asks_keeper _, by decide, by decide, ⟨by decide, rfl, rfl, rfl, rfl, rfl⟩, tk_requested _ _ _ (by decide) (by decide), ⟨by decide, rfl, rfl, rfl, rfl, rfl⟩,
    by unfold Sound; decide, rfl, by decide, by decide, by unfold PEntry.fits; decide, by decide, by decide, by decide, by decide, rfl, by decide⟩

/-- A source that still answers after its group has left. -/
def left : State := { keeper with tab := { keeper.tab with groups := keeper.tab.groups.map (fun g => { g with leaving := true }) } }

theorem wit_RegistryRequestsAreServed_released :
    TkAtHand (hdrOf [1]) (.released 3 1 0) left ∧ Quiet left ∧ (left.group? 3 1 0).any (fun x => x.leaving) = true ∧ Sound left ∧
    TkAtHand (hdrOf [1]) (.released 3 1 0) keeper ∧ (keeper.group? 3 1 0).any (fun x => !x.leaving) = true :=
  ⟨at_hand _ _ _ (by decide), ⟨by decide, rfl, rfl, rfl, rfl, rfl⟩, by decide, by unfold Sound; decide, at_hand _ _ _ (by decide), by decide⟩

/-- Table 3 with a published version, and with a backward command bound to its old one. -/
def published : State := { keeper with tab := { keeper.tab with recs := keeper.tab.recs.map (fun r => { r with pubVer := 2 }) } }
def oldBackward : State := withCmd keeper (opCmd oBackward [])

theorem wit_VersionsStorageAndCopiesAreServed_phases :
    TkRequested (hdrOf [1]) (.versionPhase .publish 3 1) keeper ∧ TkRequested (hdrOf [1]) (.versionPhase .switch 3 1) published ∧
    (published.rec? 3).any (fun r => r.pubVer != 0) = true ∧ Quiet published ∧ keeper.oldBackward 3 = false ∧ oldBackward.oldBackward 3 = true ∧
    Quiet oldBackward ∧ TkRequested (hdrOf [1]) (.versionPhase .prepare 3 1) oldBackward ∧ keeper.boundTo 3 1 = false ∧ oldBackward.boundTo 3 1 = true ∧
    keeper.ver? 3 2 = none ∧ keeper.rec? 9 = none :=
  ⟨asks_keeper _, tk_requested _ _ _ (by decide) (by decide), by decide, ⟨by decide, rfl, rfl, rfl, rfl, rfl⟩, by decide, by decide, ⟨by decide, rfl, rfl, rfl, rfl, rfl⟩,
    tk_requested _ _ _ (by decide) (by decide), by decide, by decide, by decide, by decide⟩

/-- The record of table 3 lies at offset 0x4000 of Tier S, and a version is published. -/
def recordKept : State := { published with tab := { published.tab with recs := published.tab.recs.map (fun r => { r with loc := some 0x4000 }) } }

theorem wit_VersionsStorageAndCopiesAreServed_record :
    TkRequested (hdrOf [1]) (.versionPhase .switch 3 1) recordKept ∧ Quiet recordKept ∧ Sound recordKept ∧
    (recordKept.rec? 3).any (fun r => r.tbl == 3 && r.pubVer != 0 && r.loc == some 0x4000) = true ∧
    TkRequested (hdrOf [1]) (.versionPhase .publish 3 1) recordKept ∧ (keeper.rec? 3).any (fun r => r.tbl == 3 && r.loc == none) = true :=
  ⟨tk_requested _ _ _ (by decide) (by decide), ⟨by decide, rfl, rfl, rfl, rfl, rfl⟩, by unfold Sound; decide, by decide,
    tk_requested _ _ _ (by decide) (by decide), by decide⟩

/-- An ordered pool of 128 bytes. -/
def pooled : State := keeper.setReg MT_ORD_POOL_SIZE 128

theorem wit_VersionsStorageAndCopiesAreServed_storage :
    TkRequested (hdrOf [1]) (.reserveStorage 3 1 4096) keeper ∧ 4096 ≤ keeper.room 1 ∧ (∀ r ∈ keeper.tab.rsv, ¬ (r.1 = 3 ∧ r.2.1 = 1 ∧ r.2.2.1 = 1)) ∧
    keeper.room 1 < 2 ^ 40 ∧ TkRequested (hdrOf [1]) (.reserveSlots 3 1 9 16 [(5, true)]) pooled ∧
    (∀ z ∈ pooled.tab.slots, sameSlot z 3 1 2 5 true = false) ∧ pooled.fld MT_ORD_POOL_SIZE 0 46 ≠ 0 ∧
    sumOf ((pooled.tab.slots.filter (fun z => !z.mirror)).map (fun z => slotSize z.nel)) + slotSize 16 ≤ pooled.fld MT_ORD_POOL_SIZE 0 46 ∧
    pooled.fld MT_ORD_POOL_SIZE 0 46 < sumOf ((pooled.tab.slots.filter (fun z => !z.mirror)).map (fun z => slotSize z.nel)) + slotSize 17 ∧
    pooled.tierOut 2 = false ∧ keeper.fld MT_ORD_POOL_SIZE 0 46 = 0 ∧ TkAtHand (hdrOf [1]) (.releaseSlots 9 true) pooled :=
  ⟨asks_keeper _, by decide, by decide, by decide, tk_requested _ _ _ (by decide) (by decide), by decide, by decide, by decide, by decide, by decide, by decide,
    at_hand _ _ _ (by decide)⟩

theorem wit_VersionsStorageAndCopiesAreServed_move :
    Sound (keeperOf 0 []) ∧ TkRequested (hdrOf [1]) (.groupMove 3 1 0 (keeperOf 0 []).id 1 false) (keeperOf 0 []) ∧ (keeperOf 0 []).group? 3 1 0 = none ∧
    ((keeperOf 0 []).rec? 3).any (fun r => r.recipe != 3) = true ∧
    ((keeperOf 0 []).alloc 1 (groupBytes ((keeperOf 0 []).verFmt 3 1) 0) 4096).any (fun x => x.1 == 0 && (x.2.alloc 0 8 8).isSome) = true ∧
    (keeperOf 0 []).tab.recs.all (fun r => r.tbl == 3) = true :=
  ⟨by unfold Sound; decide, asks_keeperOf _ _, by decide, by decide, by decide, by decide⟩

/-- Group 0 with a held partial of row 5 and a step already committed. -/
def holding (step : Option Nat) (slots : List Slot) : State :=
  { keeper with tab := { keeper.tab with groups := keeper.tab.groups.map (fun g => { g with step := step }), slots := slots } }
def partial5 : Slot := { tbl := 3, ver := 1, src := 2, row := 5, plain := true, nel := 4, val := some [0x3F800000, 0, 0, 0], users := [], mirror := false }

theorem wit_VersionsStorageAndCopiesAreServed_commit :
    TkRequested (hdrOf [1]) (.commit 3 7 0 2) (holding (some 7) []) ∧ (∀ x ∈ (holding (some 7) []).tab.groups, x.tbl = 3 → ∃ n, x.step = some n ∧ 7 ≤ n) ∧
    (∀ z ∈ (holding (some 7) []).tab.slots, z.tbl ≠ 3) ∧ (∀ w ∈ (holding (some 7) []).tab.addWaits, w.id ≠ (holding (some 7) []).tab.nextOp) ∧
    TkRequested (hdrOf [1]) (.commit 3 7 0 2) (holding (some 6) [partial5]) ∧
    ((holding (some 6) [partial5]).rec? 3).any (fun r => r.tbl == 3 && r.curVer == 1) = true ∧
    ((holding (some 6) [partial5]).ver? 3 1).any (fun v => !((holding (some 6) [partial5]).pentry v.pmap 0).repl) = true ∧
    (holding (some 6) [partial5]).tab.groups.length = 1 ∧ (holding (some 6) [partial5]).tab.groups.all (fun x =>
      x.tbl == 3 && x.ver == 1 && x.g == 0 && x.tier == 0 && !x.secondary && !x.leaving && x.moving == none) = true ∧
    (holding (some 6) [partial5]).tab.addWaits = [] ∧ (holding (some 6) [partial5]).tab.slots = [partial5] :=
  ⟨tk_requested _ _ _ (by decide) (by decide), fun x hx _ => by
      simp only [holding, keeper, regs, tabled, State.setReg, List.foldl, List.map, List.mem_singleton] at hx
      subst hx
      exact ⟨7, rfl, Nat.le_refl 7⟩,
    by decide, by decide, tk_requested _ _ _ (by decide) (by decide), by decide, by decide, by decide, by decide, rfl, rfl⟩

/-- A copy of row 5 of group 0. -/
def copy5 : CopyData :=
  { tbl := 3, ver := 1, group := 0, rows := [(5, leBytes 16 7)], accs := [], held := [], taken := [], bad := [], step := some (some 8), load := 3, log := [] }

/-- Group 0 lies in Tier F, which is out of service. -/
def tierless : State :=
  { keeper.setFld MT_STATUS 2 1 1 with tab := { keeper.tab with groups := keeper.tab.groups.map (fun g => { g with tier := 1 }) } }

theorem wit_VersionsStorageAndCopiesAreServed_copy :
    TkRequested (hdrOf [1]) (.replicaWrite copy5) keeper ∧ TkRequested (hdrOf [1]) (.groupCopy copy5) keeper ∧
    (keeper.group? 3 1 0).any (fun x => decide (x.tier < 3)) = true ∧ Sound keeper ∧ (keeperOf 0 []).group? 3 1 0 = none ∧
    TkRequested (hdrOf [1]) (.replicaWrite copy5) (keeperOf 0 []) ∧ (keeper.group? 3 1 0).any (fun x => !keeper.tierOut x.tier) = true ∧
    TkRequested (hdrOf [1]) (.groupCopy copy5) tierless ∧ (tierless.group? 3 1 0).any (fun x => tierless.tierOut x.tier) = true :=
  ⟨asks_keeper _, asks_keeper _, by decide, by unfold Sound; decide, by decide, asks_keeperOf _ _, by decide, tk_requested _ _ _ (by decide) (by decide),
    by decide⟩

/-- Block 5 failed; the promoted group 0 of table 3 waits for block 2's redelivery, and lies at block 2. -/
def redelivering (owes : List (Nat × Nat)) : State :=
  { keeperOf (entWord (entry 5 pPromoting)) [] with
    tab := { (keeperOf 0 []).tab with registry := [{ tbl := 3, holders := [1], replicas := [(0, 2)], destroying := false, redeliver := owes }] } }

theorem wit_LoadsFailuresAndMovesAct_failures :
    TkAtHand (hdrOf [1]) (.loadReport { tbl := 3, sum := 1, hottest := [], free := [] }) keeper ∧ (hdrOf [1]).src ≠ keeper.id ∧
    TkAtHand (hdrOf [1]) (.failed 5) lonely ∧ Quiet lonely ∧ lonely.isFailed 5 = false ∧ 5 ≠ lonely.id ∧ (lonely.route 5).length = 32 ∧ lonely.tab.recs = [] ∧
    (∀ g ∈ lonely.tab.groups, g.moving ≠ some 5) ∧ (∀ y ∈ lonely.fab.xchg, y.dst = 5 → y.kind = .update ∨ y.kind = .declare ∨ y.kind = .query) ∧
    (lonely.setRouteBit 5 3 true).isFailed 5 = true ∧ TkAtHand (hdrOf [1]) (.failed lonely.id) lonely ∧ lonely.fab.stalled = [] ∧
    (∀ e ∈ lonely.tab.registry, e.destroying = false) ∧
    TkRequested (hdrOf [2, 1]) (.query 5) follower ∧ Quiet follower ∧ follower.lead = some (hdrOf [2, 1]).src :=
  ⟨at_hand _ _ _ (by decide), by decide, at_hand _ _ _ (by decide), ⟨by decide, rfl, rfl, rfl, rfl, rfl⟩, by decide, by decide, by decide, rfl, by decide,
    (fun _ h => absurd h List.not_mem_nil), by decide, at_hand _ _ _ (by decide), rfl, by decide, tk_requested _ _ _ (by decide) (by decide), ⟨by decide, rfl, rfl, rfl, rfl, rfl⟩, by decide⟩

theorem wit_LoadsFailuresAndMovesAct_redelivery :
    TkAtHand (hdrOf [1]) (.redeliverDone 3 5) (redelivering [(2, 5)]) ∧ ((redelivering [(2, 5)]).reg? 3).isSome = true ∧
    (∀ q ∈ [(2, 5)], q.2 = 5 → q.1 = (hdrOf [1]).src) ∧ (∃ q ∈ [(2, 5), (7, 5)], q.2 = 5 ∧ q.1 ≠ (hdrOf [1]).src) ∧ Sound (redelivering [(2, 5)]) ∧
    NoFollowers 3 (redelivering [(2, 5)]) ∧ ((redelivering [(2, 5)]).tab.vers.filter (fun v => v.tbl == 3)).length = 1 ∧
    ((redelivering [(2, 5)]).rec? 3).any (fun r => ((redelivering [(2, 5)]).ver? 3 1).any (fun v =>
      ((redelivering [(2, 5)]).mapped r v).filter (fun q => q.2.state == pPromoting && q.2.owner == 5) == [(0, entry 5 pPromoting)])) = true ∧
    (redelivering [(2, 5)]).secondaryOf 3 0 = some 2 ∧ 2 ≠ (redelivering [(2, 5)]).id ∧ (redelivering [(2, 5)]).group? 3 1 0 = none :=
  ⟨at_hand _ _ _ (by decide), by decide, by decide, ⟨(7, 5), by decide, rfl, by decide⟩, by unfold Sound; decide, ⟨by decide, rfl⟩, by decide, by decide,
    by decide, by decide, by decide⟩

/-- The operation that promotes block 5's groups waits for this block alone. -/
def promoting : State :=
  { redelivering [(2, 5)] with
    tab := { (redelivering [(2, 5)]).tab with ops := [{ id := 0, tbl := 3, kind := .promotion 5, phase := 2, waiting := [1], from_ := 1, handle := 0
                                                        xid := 0, ok := true, count := 0 }] } }

theorem wit_LoadsFailuresAndMovesAct_promotion :
    TkAtHand (hdrOf [1]) (.redeliverDone 3 5) promoting ∧ (promoting.reg? 3).any (fun e => e.redeliver == [(2, 5)]) = true ∧
    promoting.tab.ops.map (fun o => (o.tbl, o.kind, o.phase, o.waiting, o.ok)) = [(3, .promotion 5, 2, [promoting.id], true)] ∧
    Sound promoting ∧ NoFollowers 3 promoting ∧ promoting.mirrorOf 3 = none :=
  ⟨at_hand _ _ _ (by decide), by decide, by decide, by unfold Sound; decide, ⟨by decide, rfl⟩, by decide⟩

theorem wit_LoadsFailuresAndMovesAct_rows :
    TkRequested (hdrOf [1]) (.rowsRead 3 1 0 [5]) keeper ∧ Quiet keeper ∧ keeper.heldRows 3 1 [8192] = false ∧
    (keeper.rec? 3).any (fun r => ctxDenied r 7 true && !ctxDenied r 0 true) = true ∧
    (keeper.group? 3 1 0).any (fun x => !x.secondary && decide (x.tier < 3) && keeper.tierReadOk x.tier (x.rowOff (keeper.verFmt 3 1) 5) 16) = true ∧
    TkRequested (hdrOf [1]) (.rowsWrite 9 1 0 []) keeper ∧ keeper.rec? 9 = none :=
  ⟨asks_keeper _, quiet_keeper, by decide, by decide, by decide, asks_keeper _, by decide⟩

/-- A question of this block's own to block 2, by a TABLE_DESTROY. -/
def destroyAsk : Cmd := { opCmd oDestroy [] with phase := .waiting, stage := 1 }
def asking (kind : XKind) : State := awaiting kind destroyAsk (mkMsg 0x10 0 1 7 [])

theorem wit_LoadsFailuresAndMovesAct_replies :
    (asking .ask).ctl.life = .alive ∧ ((asking .ask).xchg? 2 7).any (fun x => x.kind == .ask && x.handle == 1) = true ∧ (asking .ask).xchg? 2 8 = none ∧
    registryCode (mType (mkMsg 0x10 0 1 7 [])) = true ∧ [1] ≠ (asking .update).registryList ∧ [1, 2] = (asking .ask).registryList ∧
    (asking .ask).cmd? 1 = some destroyAsk ∧ leAt destroyAsk.desc 0 1 ∈ [oCreate, oDestroy, oPublish, oSwitch, oMigrate] ∧
    Quiet ((asking .ask).finish 1 sOk) ∧ Quiet ({ asking .update with cmds := [] }) ∧ (asking .ask).fab.inbox = [] ∧
    (∀ bytes, (asking .ask).inTurn 2 bytes = true) :=
  ⟨by decide, by decide, by decide, by decide, by decide, by decide, by decide, by decide, ⟨by decide, rfl, rfl, rfl, rfl, rfl⟩, ⟨by decide, rfl, rfl, rfl, rfl, rfl⟩, rfl,
    fun _ => inTurn_of_empty _ _ _ rfl⟩

/-- A move of group 0, to block 2 or within this block. -/
def movingTo (dblk dtier from_ : Nat) : State :=
  { keeper with tab := { keeper.tab with ops := [{ id := 0, tbl := 3, kind := .moving 1 0 dblk dtier false, phase := 0, waiting := [], from_ := from_
                                                   handle := 9, xid := 4, ok := true, count := 0 }] } }

theorem wit_LoadsFailuresAndMovesAct_moves :
    Quiet keeper ∧ (movingTo 2 0 1).tab.ops.map (fun o => (o.tbl, o.phase)) = [(3, 0)] ∧ ((movingTo 2 0 1).rec? 3).isSome = true ∧
    (movingTo 2 0 1).quiet 3 1 = true ∧ Quiet ((movingTo 2 0 1).endOp 0) ∧ 2 ≠ (movingTo 2 0 1).id ∧ CanPost 2 0 (movingTo 2 0 1) ∧
    CanPost 2 0 (movingTo 1 1 2) ∧ Sound (movingTo 1 1 2) ∧ ((movingTo 1 1 2).group? 3 1 0).any (fun x => x.tier == 0 && x.base == 0x10000) = true ∧
    ((movingTo 1 1 2).alloc 1 65536 4096).any (fun x => x.1 == 0) = true ∧ (∀ i j, i < 65536 → j < 65536 → memKey 1 0 + i ≠ memKey 0 0x10000 + j) ∧
    (∀ i j, i < 65536 → j < 8 → memKey 1 0 + i ≠ memKey 0 0x8000 + j ∧ memKey 0 0x10000 + i ≠ memKey 0 0x8000 + j) ∧
    StillOpening 2 0 opening :=
  ⟨quiet_keeper, by decide, by decide, by decide, ⟨by decide, rfl, rfl, rfl, rfl, rfl⟩, by decide, ⟨by decide, by decide, by decide, .inr (by decide)⟩,
    ⟨by decide, by decide, by decide, .inr (by decide)⟩, by unfold Sound; decide, by decide, by decide, by unfold memKey; omega, by unfold memKey; omega,
    ⟨{ flowOf 0 with st := .opening }, by decide, rfl⟩⟩

/-- A secondary of group 0 to rebuild; the group is resident at block 2, and block 5 has room. -/
def rebuilding (state : Nat) : State :=
  { keeperOf (entWord (entry 2 state)) [] with
    tab := { (keeperOf 0 []).tab with
      rebuilds := [(3, 1, 0)], freeCap := [(5, [2 ^ 30, 2 ^ 30, 2 ^ 30])], recs := (keeperOf 0 []).tab.recs.map (fun r => { r with owners := [2, 5] }) } }

theorem wit_LoadsFailuresAndMovesAct_rebuild :
    (rebuilding pResident).ctl.life = .alive ∧ Quiet (rebuilding pResident) ∧ (3, 1, 0) ∈ (rebuilding pResident).tab.rebuilds ∧ (3, 1, 0) ∉ keeper.tab.rebuilds ∧
    (rebuilding pResident).coordinator 3 = some (rebuilding pResident).id ∧ ((rebuilding pResident).rec? 3).isSome = true ∧
    ((rebuilding pResident).ver? 3 1).any (fun x => x.pmap == 0) = true ∧ (rebuilding pResident).pentry 0 0 = entry 2 pResident ∧
    2 ≠ (rebuilding pResident).id ∧ NoFollowers 3 (rebuilding pResident) ∧ (rebuilding pResident).group? 3 1 0 = none ∧ Sound (rebuilding pResident) ∧
    ((rebuilding pResident).rec? 3).any (fun r => (rebuilding pResident).nextSecondary r 2 65536 == some 5) = true ∧
    CanPost 2 0 (rebuilding pResident) ∧ ((rebuilding pLost).pentry 0 0).state ≠ pResident ∧
    ((keeperOf 0 []).rec? 3).any (fun r => (keeperOf 0 []).nextSecondary r 2 65536 == none) = true :=
  ⟨by decide, ⟨by decide, rfl, rfl, rfl, rfl, rfl⟩, by decide, by decide, by decide, by decide, by decide, by decide, by decide, ⟨by decide, rfl⟩, by decide,
    by unfold Sound; decide, by decide, ⟨by decide, by decide, by decide, .inr (by decide)⟩, by decide, by decide⟩

theorem wit_LoadsFailuresAndMovesAct_period :
    keeper.tab.addWaits = [] ∧ (∀ b ∈ keeper.registryList, b = keeper.id) ∧ (keeper.setFld TK_CFG 0 1 0).flag TK_CFG 0 = false ∧
    (regs meshed [(TK_REGISTRY 0, 0), (TK_REGISTRY 1, 2 + 2 ^ 15)]).registryList = [2] ∧ CanPost 2 0 meshed :=
  ⟨rfl, by decide, by decide, by decide, by decide, by decide, by decide, .inr (by decide)⟩


-- Witnesses: tiers, power, caches, boot

/-- The flash after a boot record was written: slot 0 active; both slots blank. -/
def recorded : State :=
  State.reset.writeBootRec { seq := 0, active := 0, trial := false, attempted := false, rolled := false, prev := 0, svn := 0 }

/-- A line being filled in slice 0, way 2: sectors 0 and 1 are wanted and 0 has arrived. -/
def fetchingRc : State :=
  live.upCache (fun c => { c with
    lines := [{ slice := 0, set := rcSet 5, way := 2, tag := 5, sectors := 1, heat := 6, st := .filling }]
    fills := [{ slice := 0, line := 5, way := some 2, part := 0, want := 3, arrived := 1, stale := 0 }] })

/-- The same fill for a way that still evicts another line. -/
def evictingRc : State :=
  fetchingRc.upCache (fun c => { c with
    lines := [{ slice := 0, set := rcSet 5, way := 2, tag := 5 + 2 ^ 20, sectors := 1, heat := 0, st := .evicting }] })

/-- The Metadata Cache awaits one line for way 3, or for none. -/
def awaitingMd (stale : Bool) (way : Option Nat) : State :=
  live.upCache (fun c => { c with mdFills := [{ addr := 128, way := way, stale := stale }] })

/-- The awaited line lies in a word that cannot be corrected. -/
def poisonedMd : State := { awaitingMd false (some 3) with poison := [memKey 0 128 / 8] }

/-- A row that waits for repair in Tier S and in Tier F. -/
def wornRows : State := live.upSpine (fun x => { x with repairs := [(0, live.rowOf 0 8), (1, live.rowOf 1 8)] })

/-- The same half a millisecond after a repair in the channel, and beside a P0 command of Tier F. -/
def wornSoon : State := wornRows.upSpine (fun x => { x with repairAt := [(live.unitOf 0 8, 0)] })
def wornBusy : State := { wornRows with cmds := [{ cmdOf (desc []) with cls := 0, tiers := [1] }] }

theorem live_runs : live.ctl.life = .alive := by decide
theorem live_here : NotifiesHere live := .inr (by decide)
theorem quiet_live : Quiet live := ⟨by decide, rfl, rfl, rfl, rfl, rfl⟩

/-- A block that records no notification of faults. -/
def mute : State := regs live [(TT_CFG, 4)]

/-- 63 failures within the second, of the die that holds offset 8 of Tier S or of the channel that holds it in Tier F. -/
def failing (tier : Nat) : State := mute.upSpine (fun x => { x with chanErrs := List.replicate 63 (mute.unitOf tier 8, 0) })

/-- The failures within the second that count with one at 5 of offset 8 of a tier. -/
def failures (s : State) (tier : Nat) : Nat :=
  ((s.spine.chanErrs.filter (fun x : Nat × Nat => decide (5 < x.2 + Sys2Proof.sec)) ++ [(s.unitOf tier 8, 5)]).filter
    (fun x : Nat × Nat => if tier = 0 then x.1 / 64 == s.unitOf tier 8 / 64 else x.1 == s.unitOf tier 8)).length

theorem wit_TierErrorsAreCountedAndRepaired_errors :
    mute.ctl.life = .alive ∧ mute.flag TT_CFG 3 = false ∧ 8 < mute.capacity 0 ∧ mute.tierOut 0 = false ∧ mute.tierOut 1 = false ∧ 8 < mute.capacity 1 ∧
    Quiet mute ∧ (∀ g ∈ mute.tab.groups, g.tier ≠ 1) ∧ mute.poison.contains (memKey 0 8 / 8) = false ∧ failures mute 0 < 64 ∧ failures mute 1 < 64 ∧
    (failing 0).flag TT_CFG 3 = false ∧ (failing 1).flag TT_CFG 3 = false ∧ Quiet (failing 1) :=
  ⟨by decide, by decide, by decide, by decide, by decide, by decide, ⟨by decide, rfl, rfl, rfl, rfl, rfl⟩, by decide, by decide, by decide, by decide,
    by decide, by decide, ⟨by decide, rfl, rfl, rfl, rfl, rfl⟩⟩

theorem wit_TierErrorsAreCountedAndRepaired_fails : failures (failing 0) 0 = 64 ∧ failures (failing 1) 1 = 64 := ⟨rfl, rfl⟩

theorem wit_TierErrorsAreCountedAndRepaired_repairs :
    wornRows.ctl.life = .alive ∧ NotifiesHere wornRows ∧ (0, wornRows.rowOf 0 8) ∈ wornRows.spine.repairs ∧
    (1, wornRows.rowOf 1 8) ∈ wornRows.spine.repairs ∧ wornRows.fastOnTier 1 = false ∧ wornRows.powerRuns = true ∧ wornRows.spine.repairAt = [] ∧
    (lookupBy (tierSBank (wornRows.rowOf 0 8)) wornRows.spine.spares).getD 0 < 16 ∧ wornRows.secRuns = true ∧ (0, live.rowOf 0 8) ∉ live.spine.repairs ∧
    wornBusy.fastOnTier 1 = true ∧ (1, wornBusy.rowOf 1 8) ∈ wornBusy.spine.repairs ∧
    lookupBy (wornSoon.unitOf 0 8) wornSoon.spine.repairAt = some 0 ∧ max wornSoon.ctl.now (500 * us) < 0 + ms :=
  ⟨by decide, .inr (by decide), List.mem_cons_self, List.mem_cons_of_mem _ List.mem_cons_self, by decide, by decide, rfl, by decide, by decide,
    List.not_mem_nil, by decide, List.mem_cons_of_mem _ List.mem_cons_self, by decide, by decide⟩

theorem wit_FailedTiersLeaveService :
    live.ctl.life = .alive ∧ Quiet live ∧ NotifiesHere live ∧ live.tierOut 1 = false ∧ live.tierOut 2 = false ∧ (∀ g ∈ live.tab.groups, g.tier ≠ 1) ∧
    (live.setFld MT_STATUS 2 1 1).tierOut 1 = true ∧ (live.setFld MT_STATUS 2 1 1).ctl.life = .alive ∧
    (∃ k : Fin 64, k.val = 3 ∧ Instr.phyUpdateOverrun 1 k 5 = .phyUpdateOverrun 1 3 5) ∧ live.fld MT_CFG 12 10 < 200000 :=
  ⟨by decide, quiet_live, live_here, by decide, by decide, by decide, by decide, by decide, ⟨3, rfl, rfl⟩, by decide⟩

/-- Channel 3 of Tier F has 31 writes queued since instant 0, channel 4 has 32. -/
def queued : State := live.upSpine (fun x => { x with writeQ := [(67, 31, 0), (68, 32, 0)] })

theorem wit_TiersRunByThemselves :
    live.ctl.life = .alive ∧ (1 : Nat) < 3 ∧ (15 : Nat) < 16 ∧ Quiet live ∧ NotifiesHere live ∧ (∀ g ∈ live.tab.groups, g.tier ≠ 2) ∧
    ((1 : Fin 3).val = 1 ∧ (1 : Fin 64).val < 2) ∧ (2 : Fin 3).val = 2 ∧ (0 : Fin 3).val = 0 ∧ queued.ctl.life = .alive ∧
    lookupBy (1 * 64 + 3) queued.spine.writeQ = some (31, 0) ∧ ¬ 0 + queued.fld MT_CFG 0 12 * 10 * ns ≤ queued.ctl.now ∧
    lookupBy (1 * 64 + 4) queued.spine.writeQ = some (32, 0) ∧ lookupBy (1 * 64 + 5) queued.spine.writeQ = none :=
  ⟨by decide, by decide, by decide, quiet_live, live_here, by decide, by decide, rfl, rfl, by decide, by decide, by decide, by decide, by decide⟩

/-- The floor to come, 700 mV, was acknowledged 100 µs ago. -/
def flooring : State := (live.setFld PW_SPEED 32 16 700).upCtl (fun c => { c with vfpAck := some 0 })

/-- The power core restarts. -/
def powerless : State := live.setFld (CC_CORE 1) 2 2 2

theorem wit_PowerCoreFollowsItsReadings :
    live.ctl.life = .alive ∧ live.powerRuns = true ∧ powerless.powerRuns = false ∧ powerless.ctl.life = .alive ∧
    live.fld MS_THERM_CFG 8 8 ≤ maxOf ((upTo 4).map (fun i => min (([200][i]?).getD 0) 255)) ∧
    maxOf ((upTo 4).map (fun i => min (([20][i]?).getD 0) 255)) + live.fld MS_THERM_CFG 16 4 ≤ live.fld MS_THERM_CFG 8 8 ∧
    flooring.ctl.vfpAck = some 0 ∧ flooring.vfp ≠ 0 ∧ flooring.powerRuns = true ∧ 0 + 100 * us ≤ max flooring.ctl.now (100 * us) ∧
    live.flag PW_STATUS 0 = false ∧ NotifiesHere live ∧ live.vf ≤ stepMv 800 ∧ stepMv 800 < (live.setFld PW_SPEED 16 16 1100).vf :=
  ⟨by decide, by decide, by decide, by decide, by decide, by decide, by decide, by decide, by decide, by decide, by decide, live_here, by decide, by decide⟩

theorem wit_PowerCoreFollowsItsReadings_lines (line : Nat) :
    live.lineRuns line = true ∧ ∃ point, Config.fusedPoint line * 11 ≤ point * 10 := by
  refine ⟨?_, Config.fusedPoint line * 2, by omega⟩
  have h : ∀ o : Nat, o < 5 → (live.coreState (2 + o) == 0) = true := by decide
  unfold State.lineRuns lineOwner
  exact h _ (Nat.mod_lt _ (by decide))

theorem wit_RowCacheFollowsItsEvents :
    fetchingRc.ctl.life = .alive ∧ fetchingRc.fld RC_GLOBAL_CFG 6 16 ≠ 0 ∧ NotifiesHere fetchingRc ∧ (0 : Fin 4).val < fetchingRc.cache.ways.length ∧
    fetchingRc.cache.fills.find? (fun f => f.slice == 0 && f.line == 5 && (f.want &&& 2 ^ 1) != 0 && (f.arrived &&& 2 ^ 1) == 0) =
      some { slice := 0, line := 5, way := some 2, part := 0, want := 3, arrived := 1, stale := 0 } ∧ fetchingRc.cache.rcWait = [] ∧
    fetchingRc.cache.fills.find? (fun f => f.slice == 0 && f.line == 5 && (f.want &&& 2 ^ 0) != 0 && (f.arrived &&& 2 ^ 0) == 0) = none ∧
    (1 : Nat) ||| 2 ^ 1 = 3 ∧ (fetchingRc.rcLineAt 0 (rcSet 5) 2).any (fun l => l.tag == 5) = true ∧
    (evictingRc.rcLineAt 0 (rcSet 5) 2).any (fun l => l.tag != 5 && l.st == .evicting) = true ∧ fetchingRc.wayOff 0 2 = false ∧
    (fetchingRc.sliceWays 0).used = false :=
  ⟨by decide, by decide, .inr (by decide), by decide, by decide, rfl, by decide, by decide, by decide, by decide, by decide, by decide⟩

/-- Holm 0 is online. -/
def rotating : State := regs fetchingRc [(RC_STATUS 0, 1)]

theorem wit_RowCacheFollowsItsEvents_rotation :
    rotating.ctl.life = .alive ∧ NotifiesHere rotating ∧ (0 : Fin 4).val < rotating.cache.ways.length ∧ rotating.nextWay 0 = some 0 ∧
    ¬ (rotating.fld RC_GLOBAL_CFG 34 12 = 0 ∨ (rotating.sliceWays 0).used = true ∨ rotating.coreState (3 + 0) ≠ 0 ∨ rotating.holmOnline 0 = false) ∧
    (live.setFld TT_HOLM_CTRL 4 1 0).holmOnline 0 = false :=
  ⟨by decide, .inr (by decide), by decide, by decide, by decide, by decide⟩

theorem wit_MetadataCacheAndScrubAct :
    live.ctl.life = .alive ∧ NotifiesHere live ∧ live.flag MD_CFG 0 = false ∧ live.flag MD_WAY_DISABLE 7 = false ∧ live.cache.mdSelf.length < 4 ∧
    4 ≤ (live.upCache (fun c => { c with mdSelf := [0, 1, 2, 3] })).cache.mdSelf.length ∧
    (awaitingMd false (some 3)).cache.mdFills.find? (fun f => f.addr == 128) = some { addr := 128, way := some 3, stale := false } ∧
    (awaitingMd false (some 3)).poisoned (memKey (gTier 128) (gOff 128)) 64 = false ∧ poisonedMd.poisoned (memKey (gTier 128) (gOff 128)) 64 = true ∧
    poisonedMd.cache.mdFills.length = 1 ∧ (awaitingMd true none).cache.mdFills.map (fun f => f.addr) = [128] :=
  ⟨by decide, live_here, by decide, by decide, by decide, by decide, by decide, by decide, by decide, by decide, by decide⟩

/-- Way 2 of set 1 of slice 0 holds a line with sector 3, and way 3 of set 1 of the Metadata Cache one. -/
def struck (st : LineSt) : State :=
  live.upCache (fun c => { c with
    lines := [{ slice := 0, set := 1, way := 2, tag := 9, sectors := 8, heat := 0, st := st }]
    md := [{ set := 1, way := 3, tag := 1 }] })

theorem wit_MetadataCacheAndScrubAct_scrub :
    live.ctl.life = .alive ∧ live.tierOut 1 = false ∧ live.capacity 1 ≠ 0 ∧ live.poison.contains (memKey 1 ((live.spine.scrub[1]?).getD 0) / 8) = false ∧
    (3 : Nat) < 4 ∧ ((live.sliceWays 3).errs[15]?).getD 0 + 1 < live.fld RC_GLOBAL_CFG 26 8 ∧ 3 < live.cache.ways.length ∧
    ((live.cache.mdErrs[7]?).getD 0) + 1 < live.fld MD_CFG 2 8 ∧ (7 : Nat) = 7 + (0 : Fin 7) ∧ (13 : Nat) = 7 + (6 : Fin 7) ∧
    ((struck .valid).rcLineAt 0 (18 / 16) (18 % 16)).any (fun l => l.sectors.testBit 3 && !l.sectors.testBit 4) = true ∧
    ((struck .evicting).rcLineAt 0 (18 / 16) (18 % 16)).any (fun l => l.sectors.testBit 3) = true ∧
    (∀ l ∈ (struck .valid).cache.md, (l.set == 11 / 8 && l.way == 11 % 8) = true ∧ gTier (l.tag * 64) ≠ 3) ∧
    (live.setFld MD_CFG 0 1 1).flag MD_CFG 0 = true :=
  ⟨by decide, by decide, by decide, by decide, by decide, by decide, by decide, by decide, rfl, rfl, by decide, by decide, by decide, by decide⟩

theorem wit_BoundaryAndBackgroundEventsAreCounted :
    live.ctl.life = .alive ∧ NotifiesHere live ∧ live.spine.notifyOwed = false ∧ (3 ≤ (3 : Fin 16).val ∧ (6 : Fin 16).val ≤ 6) ∧ (15 : Fin 16).val ≠ 0 ∧
    live.ctl.life ≠ .inReset ∧ State.reset.ctl.life = .inReset ∧ (4 : Fin 8).val = 4 ∧ wrapOf (6 : BitVec 4).toNat ≠ .intest :=
  ⟨by decide, live_here, rfl, by decide, by decide, by decide, by decide, rfl, by decide⟩

/-- A boot record for slot 0 is current; both slots are blank. -/
def booting (trial : Bool) : State :=
  State.reset.writeBootRec { seq := 0, active := 0, trial := trial, attempted := false, rolled := false, prev := 0, svn := 0 }

theorem wit_ResetThenBoot :
    State.reset.ctl.life = .inReset ∧ Sound State.reset ∧ live.ctl.life ≠ .inReset ∧ NotifiesHere recorded ∧ recorded.ctl.life = .inReset ∧
    recorded.bootCurrent = some (0, { seq := 1, active := 0, trial := false, attempted := false, rolled := false, prev := 0, svn := 0 }) ∧
    recorded.verifySlot 0 none none ≠ 0 ∧ recorded.verifySlot 1 none none ≠ 0 ∧ State.reset.bootCurrent = none ∧
    State.reset.verifySlot 0 none none ≠ 0 ∧ State.reset.verifySlot 1 none none ≠ 0 :=
  ⟨by decide, by unfold Sound; decide, by decide, .inr (by decide), by decide, by decide, by decide, by decide, by decide, by decide, by decide⟩

/-- All results of a self-test that passed. -/
def passed : MbistResult :=
  { rcFail := [(0, 3)], mdFail := [], rcOk := 15, mdOk := true, mbOk := true, imOk := true, tlbOk := true, faultRingOk := true, fifoOk := true }

/-- A training that passed. -/
def trainedOk : TrainResult :=
  { sDies := 15, sRemaps := [], fCause := 0, fAttempts := 1, fLanes := [], cPass := 2 ^ 32 - 1, cFail := [], hppr := [] }

/-- The released block, before its firmware is ready. -/
def raw : State := State.reset.upCtl (fun c => { c with life := .alive, pmSafe := false })

/-- A configuration record that asks for VALID. -/
def config : BootConfig :=
  { record := [], writes := [], routes := [(2, routeOf 1)], blockId := 1, valid := true, lock := false, approved := true, phyupdMax := 100 }

theorem wit_BringUpLeadsToValid :
    raw.ctl.life = .alive ∧ NotifiesHere raw ∧ ¬ (raw.flag TT_MBIST_STATUS 10 = true ∧ raw.ctl.wrap ≠ .mbist) ∧
    raw.ctl.trained = false ∧ (raw.upCtl (fun c => { c with trained := true })).ctl.trained = true ∧ raw.valid = false ∧
    raw.fld MC_MAPOUT 0 32 = 0 ∧ raw.flash.failed = 0 ∧ ((upTo 32).filter (fun i => bit trainedOk.cPass i && !bit 0 i)).length = 32 ∧
    raw.fld MC_CFG 0 6 ≤ 32 ∧ raw.fwReady = false ∧ raw.secRuns = true ∧ config.writes = [] ∧ config.routes = [(2, routeOf 1)] ∧ (2 : Nat) < 2 ^ 15 ∧
    live.fwReady = true :=
  ⟨by decide, .inr (by decide), by decide, by decide, by decide, by decide, by decide, rfl, by decide, by decide, by decide, by decide, rfl, rfl, by decide, by decide⟩

/-- Firmware is ready, training has passed, and the record asked for VALID. -/
def prepared : State := live.upCtl (fun c => { c with trained := true, wantValid := true })

theorem wit_BringUpLeadsToValid_goes : prepared.ctl.wantValid = true ∧ prepared.ctl.trained = true ∧ prepared.ctl.trainBad = false ∧
    prepared.fwReady = true ∧ NotifiesHere prepared ∧ prepared.valid = false ∧ ({ passed with rcFail := [] }).rcOk = 15 :=
  ⟨rfl, rfl, rfl, by decide, .inr (by decide), by decide, rfl⟩

-- Tests with results from the manual

theorem test_reset_idles : step State.reset = .next State.reset := rfl
theorem test_no_words : decodeTableWord 32 5 = none := by decide
theorem test_bring_up_reaches_valid : (nx (exec (.mbistDone { passed with rcFail := [] }) prepared)).valid = true := by decide +kernel

/-- 01, forming and checking a global address. -/
theorem test_global_address : gAddr 1234 1 0x1134567800 = 0x09A4401134567800 ∧ gBlock 0x09A4401134567800 = 1234 ∧ gTier 0x09A4401134567800 = 1 := by
  decide
theorem test_address_check :
    live.addressOk (gAddr 1234 1 0x1134567800) 512 = true ∧ live.addressOk (gAddr 1234 1 0x1234567800) 512 = false := by decide

/-- 02, an INT8 row. -/
theorem test_int8_row : (Fmt.of (5 + 199 * 16)).size = 208 ∧ 145925 / 4096 = 35 ∧ 145925 % 4096 = 2565 := by decide
theorem test_placement_entry : entOf 0x00CC8205 = { owner := 517, tier := 1, repl := true, state := 1, epoch := 3 } := by decide
theorem test_scale_and_bias : (fp32.rne (fp16.decode 0x3000)).1 = 0x3E000000 ∧ (fp32.rne (fp16.decode 0xBC00)).1 = 0xBF800000 := by decide +kernel

/-- 03, TAIL and CQ_HEAD of ring 0 with 64 slots: 64 is taken, 65 is ahead of it; nothing is in the completion ring. -/
theorem test_tail_taken : ((nx (exec (.doorbellTailWrite 0 64#64 7) ringed)).ring 0).tail = 64 := by decide
theorem test_tail_ignored :
    ((nx (exec (.doorbellTailWrite 0 65#64 7) ringed)).ring 0).tail = 0 ∧
    (nx (exec (.doorbellTailWrite 0 65#64 7) ringed)).fld (RF_STATUS 0) 10 16 = 1 := by decide
theorem test_head_ignored : (nx (exec (.cqHeadWrite 0 1#64) ringed)).fld (RF_STATUS 0) 10 16 = 1 := by decide

/-- 05, a long sum that cancels: plain and compensated. -/
theorem test_plain_sum :
    (fadd (fadd (fadd 0x4B800000#32 0x3F800000#32).1 0x3F800000#32).1 0xCB800000#32).1 = 0#32 := by decide +kernel
theorem test_compensated_sum :
    (foldPair (compAdd (compAdd (compAdd (compAdd (0#32, 0#32) 0x4B800000#32).1 0x3F800000#32).1 0x3F800000#32).1 0xCB800000#32).1).1 = 0x40000000#32 := by
  decide +kernel

/-- 05, a stochastic add to a BF16 element: the key, and the choice for two draws of 16 bits. -/
theorem test_rounding_key : roundingKey 0x0123456700000005 0x3B70 40 = 0x0118356728000005 := by decide
theorem test_stochastic_bf16 :
    (bf16.stoch (.fin false 1027 1024) 0x3A7C).1 = 0x3F81 ∧ (bf16.stoch (.fin false 1027 1024) 0xA000).1 = 0x3F80 := by decide +kernel

/-- 05, a mean of 1.0 over three terms, converted to BF16. -/
theorem test_mean_to_bf16 : (fdivCount 0x3F800000#32 3).1 = 0x3EAAAAAB#32 ∧ (ofF32 1 0x3EAAAAAB#32).1 = 0x3EAB := by decide +kernel

/-- 07, placing a row: slice 3 and set 544; slice 1 with Holm 3 offline. -/
theorem test_row_cache_place :
    rcSlice [0, 1, 2, 3] 0x1000D14209 = 3 ∧ rcSet 0x1000D14209 = 544 ∧ rcSlice [0, 1, 2] 0x1000D14209 = 1 := by decide

/-- 08, a Tier C offset with channels 6 and 19 out. -/
theorem test_tier_c_channel : tierCChannel (2 ^ 32 - 1 - 2 ^ 6 - 2 ^ 19) 0x100005A40 = 23 := by decide

/-- 10, admission at a lowered floor: 0.876 with it, 1.015 without. -/
theorem test_admission_speed :
    (regs live [(PW_SPEED, 1052 + 750 * 2 ^ 16 + 700 * 2 ^ 32), (PW_VDD, 750), (PW_TEMP, 92), (NW_CFG, 3)]).sadm false = 876 ∧
    (regs live [(PW_SPEED, 1052 + 750 * 2 ^ 16), (PW_VDD, 750), (PW_TEMP, 92), (NW_CFG, 3)]).sadm false = 1015 := by decide +kernel

/-- 12, sizing an image: code 5, d = 200, recipe 3, 8 groups. -/
theorem test_image_size : sectionBytes (Fmt.of (5 + 199 * 16)) 3 = 868416 ∧ imageBytes (Fmt.of (5 + 199 * 16)) 3 8 = 6947392 := by decide

/-- 16, addresses and the step of MD_LFSR. -/
theorem test_register_addresses : RF_CFG 37 = 0x04D58 ∧ RF_STATUS 37 = 0x04D78 ∧ RC_HIT 2 = 0x19010 ∧ MT_REG 1 2 = 0x28490 := by decide
theorem test_lfsr : lfsrStep 0x1234 = 0x2469 := by decide

/-- 16 R570, R571: a register that no subsystem has ignores writes, and so does a write from a source without the level. -/
theorem test_reserved_offset : nx (exec (.registerWrite .host 0xFFFF8#20 1#64) live) = live := by decide +kernel
theorem test_counter_written : (nx (exec (.registerWrite .host (BitVec.ofNat 20 (RC_HIT 2)) 0#64) (regs live [(RC_HIT 2, 9)]))).reg (RC_HIT 2) = 0 := by
  decide +kernel

-- Ill-formed commands: one for each check

theorem test_wf_src : (Instr.attach (.reg 32768) 0 1#64).wf = false := by decide
theorem test_wf_handle : (Instr.nop noHandle).wf = false := by decide
theorem test_wf_frame : (Instr.data 0 { bytes := zeros 13, icvOk := true } 0).wf = false := by decide
theorem test_wf_message_type : (Instr.readReq 2 (zeros 16) 0).wf = false := by decide
theorem test_wf_message_length : (Instr.readReq 2 (1#8 :: zeros 15) 0).wf = false := by decide
theorem test_wf_header : (Instr.claim { src := 2, lane := 4, handle := 0, xid := 0, list := [] } (.release 3)).wf = false := by decide
theorem test_wf_table : (Instr.recordFetch (hdrOf [1]) (2 ^ 24)).wf = false := by decide
theorem test_wf_version : (Instr.versionPhase (hdrOf [1]) .prepare 3 65536).wf = false := by decide
theorem test_wf_claim_body : (Instr.claim (hdrOf [1]) .selfReport).wf = false := by decide
theorem test_wf_reserve_body : (Instr.reserve (hdrOf [1]) .selfReport).wf = false := by decide
theorem test_wf_fail_body : (Instr.failNotice (hdrOf [1]) (.tierOut 3) 0).wf = false := by decide
theorem test_wf_image_body : (Instr.imagePart (hdrOf [1]) .selfReport).wf = false := by decide
theorem test_wf_mailbox_length : (Instr.verify .host 4097#13).wf = false := by decide
theorem test_wf_register_offset : (Instr.registerWrite .host 4#20 0#64).wf = false := by decide
theorem test_wf_aperture : (Instr.apertureAccess false 0#16 0 4097 []).wf = false := by decide
theorem test_wf_quanta : (Instr.pfcFrame 0 0xFF#8 [0] 0).wf = false := by decide
theorem test_wf_leader : (Instr.commit (hdrOf [1]) 3 0 0 32768 0).wf = false := by decide
theorem test_wf_failed_block : (Instr.redeliverDone (hdrOf [1]) 3 32768).wf = false := by decide
theorem test_wf_move : (Instr.groupMove 3 1 0 1 3 0).wf = false := by decide
theorem test_wf_offset : (Instr.tierReadError 0 (2 ^ 46) .single 0).wf = false := by decide
theorem test_wf_turnaround : (Instr.h1TurnaroundPacket (zeros 257)).wf = false := by decide
theorem test_wf_accepts : (Instr.nop 5#32).wf = true ∧ (Instr.recordFetch (hdrOf [1]) 3).wf = true ∧ (Instr.readReq 2 (fill 16 [(0, 1, 1), (4, 4, 16)]) 0).wf = true := by
  decide

end Sys2Proof.Tests
end

section
/-! PROOFS. One inversion of the dispatch: every command but the fall of rst_n ends in a next state made by the operations on its parts, so
a property that these operations keep holds of that state. -/

namespace Sys2Proof.Machine

/-- The outcome is a next state, and the property holds of it. -/
def Ends (P : State → Prop) (o : Out) : Prop := ∃ t, o = .next t ∧ P t

/-- The operations that a command is made of, as a mask of `Closed`: those on the parts that `mayTouch` lists for it; a change of life
(bit 16) is part of the release of rst_n alone. -/
def opsMask : Instr → Nat
  | .refresh .. | .controllerUpdate .. => 0x0
  | .heatDecaySweep | .errorCountWindowClear => 0x200
  | .wrapperInstructionUpdate .. => 0x1
  | .fecRetryHoldoffExpiry .. => 0x400
  | .setupLock .. | .mtRegWrite .. | .packetStallRewind .. | .badPacketRewind .. | .emptyFifoRead .. => 0x2
  | .writeBatchTurn .. | .delayLineCalibration .. => 0x8000
  | .snpInv .. => 0xA00
  | .mbHoldExpiry .. => 0x201
  | .regReplyRetentionExpiry .. => 0x401
  | .dbErrRead .. | .faultLoad .. | .tierSTempRead .. | .floorTakesEffect .. | .logicTempRead .. | .vddOk .. => 0x3
  | .regulatorRefill .. => 0x8001
  | .holmDrained .. | .sliceReturnWalkDone .. | .rcWayDisableWrite .. | .mdWayDisableWrite .. | .errSchemeChange .. |
    .fillArrival .. => 0x202
  | .mcMapoutWrite .. => 0x2002
  | .cqHeadWrite .. => 0x22
  | .mailboxCommandDone => 0x4002
  | .holmOfflineWrite .. | .holmTest .. | .arm .. => 0x8002
  | .ctxLoad .. | .ctxStore .. | .winLoad .. | .winStore .. | .shootDownGo .. | .inv .. => 0x802
  | .h1TurnaroundPacket .. => 0x8800
  | .doorbellTailWrite .. => 0x23
  | .phyUpdateRequest .. => 0x8003
  | .portLinkUp .. | .regReply .. | .echo .. => 0x4402
  | .trialConfirmation .. => 0x3002
  | .closeAck .. | .ackDelayExpiry .. | .idleCloseExpiry .. | .reprobeExpiry .. | .coalesceExpiry .. | .pfcFrame .. |
    .pfcWatchdogExpiry .. => 0x4403
  | .failCtrlNoAnswer .. => 0x503
  | .recordFetch .. | .loadReport .. => 0x4502
  | .remoteDoorbell .. => 0x4423
  | .apertureAccess .. => 0x8A1C
  | .nop .. | .fence .. => 0x4D82
  | .pull .. | .release .. | .pageMigration .. => 0x8A1E
  | .memRead .. => 0x4F02
  | .diagnostics .. => 0x4D83
  | .flushCache .. => 0x4F82
  | .readReq .. | .poolReq .. => 0xCF03
  | .reserve .. => 0xC71E
  | .telemetrySample .. => 0xCE1F
  | .replicaWrite .. | .groupCopy .. => 0xC71F
  | .dlBegin .. | .dlChunk .. | .verify .. | .activate .. | .confirm .. | .certRead .. | .kekSet .. | .sakInstall .. |
    .sakInstallPlain .. | .sakRetire .. | .zeroize .. | .debugUnlock .. | .mailboxGoIgnored .. | .mdFill .. => 0xEE1E
  | .memWrite .. => 0xCF1E
  | .stop .. | .restart .. | .watchdogExpiry .. | .coreFault .. | .holmTestDone .. | .confirmWaitExpiry .. | .selfTestFailure .. |
    .packetNumberExhausted .. | .portAlignTimeout .. | .portLinkDown .. | .fecThresholdReached .. | .tierSFailure .. |
    .rowRepair .. | .canaryWindow .. | .marginRecentre .. | .wayRetire .. | .spareRotation .. | .mdWaySelfDisable .. |
    .sramScrub .. | .backgroundTaskBehind .. | .fatalStop .. | .refClkLost .. | .mbistDone .. | .tierTrainingDone .. => 0xEE1F
  | .rtoExpiry .. | .add .. | .recentAddLogExpiry .. | .commit .. => 0xC79F
  | .redeliverDone .. => 0xCF9E
  | .resetRelease .. => 0x1FE1F
  | .lookup .. | .lookupPool .. | .scatterAdd .. | .poolBackward .. | .tableCreate .. | .tableDestroy .. | .versionPublish .. |
    .versionSwitch .. | .rowsWrite .. | .rowsRead .. | .migrate .. | .checkpoint .. | .restore .. | .stats .. | .commitStep .. |
    .attest .. | .loopbackAckTimeout .. | .echoReply .. | .loadPeriodEnd .. => 0xCF9F
  | .notifyHoldoffExpiry .. => 0xCEBF
  | .loopbackTest .. | .coreRestartDone .. | .shootDownDrained | .shootDownWaitExpiry .. | .holmFailure .. | .h1TurnaroundDone |
    .data .. | .ack .. | .nak .. | .openFrame .. | .openAck .. | .close .. | .readReply .. | .poolReply .. | .remoteCutoff .. |
    .addAck .. | .claim .. | .update .. | .released .. | .versionPhase .. | .imagePart .. | .tkReply .. | .groupMove .. |
    .secondaryRebuild .. | .tierFailure .. | .phyUpdateOverrun .. | .tierReadError .. | .patrolScrub .. | .hpLinkUpChange .. |
    .deviceTemperatureReport .. => 0xEF9F
  | .descriptorAcceptance .. => 0xCEFF
  | .completionRecord .. | .attach .. | .detach .. | .ringFault .. | .hostResponse .. | .hostRequestTimeout .. | .routeLoad .. |
    .routeStore .. | .declare .. | .query .. | .registerWrite .. | .retryMaxReached .. | .reg .. | .memReadReply .. |
    .memWriteAck .. | .failNotice .. | .firmwareReady .. => 0xEFBF
  | .resetAssert .. => 0xCFFF


/-- The mask stays within the parts that the command may touch. -/
theorem opsMask_parts (c : Instr) : ∀ p ∈ partsOf (opsMask c), p ∈ mayTouch c := by
  cases c <;> (dsimp only [opsMask, mayTouch]; decide)

section
variable {P : State → Prop} {s : State}

-- The shapes of the commands' meanings

theorem ends_next {u : State} (h : P u) : Ends P (.next u) := ⟨u, rfl, h⟩

theorem ends_alive {f : State → State} (hs : P s) (hf : ∀ u, P u → P (f u)) : Ends P (.next (whenAlive s f)) := by
  unfold whenAlive
  exact ends_next (inv_ite (hf s hs) hs)

/-- An event with an instant: the clock moves first. -/
theorem ends_timed {f : State → State} {t : Nat} (hc : Closed 0x1 P) (hs : P s) (hf : ∀ u, P (u.advance t) → P (f u)) :
    Ends P (.next (whenAlive s f)) :=
  ends_alive hs fun u h => hf u (inv_advance hc h)

/-- A step of an accepted command. -/
theorem ends_opcode {h : Handle} {t : Nat} {ok : Nat → Bool} {run : State → Nat → State} (hc : Closed 0x1 P) (hs : P s)
    (hr : ∀ u k, P u → P (run u k)) : Ends P (.next (whenAlive s fun u => (u.advance t).runAs h ok run)) :=
  ends_timed hc hs fun _ hu => inv_runAs (hc.mono rfl) hu hr

/-- A received frame. -/
theorem ends_frame {k t typ : Nat} {f : Frame} {act : State → Nat → Nat → State} (hc : Closed 0x4403 P) (hs : P s)
    (ha : ∀ u p l, P u → P (act u p l)) : Ends P (.next (whenAlive s fun u => (u.advance t).recvFrame k f typ act)) :=
  ends_timed (hc.mono rfl) hs fun _ hu => inv_recvFrame (hc.mono rfl) hu ha

/-- A delivered message. -/
theorem ends_msg {src t mtype : Nat} {msg : List Byte} {f : State → Nat → State} (hc : Closed 0x4403 P) (hs : P s)
    (hf : ∀ u lane, P u → P (f u lane)) : Ends P (.next (whenAlive s fun u => (u.advance t).onMsg src msg mtype f)) :=
  ends_timed (hc.mono rfl) hs fun _ hu => inv_onMsg (hc.mono rfl) hu hf

/-- A Table Keeper message that carries no instant. -/
theorem ends_tk {hdr : TkHdr} {b : TkBody} {f : State → State} (hc : Closed 0x4402 P) (hs : P s) (hf : ∀ u, P u → P (f u)) :
    Ends P (.next (whenAlive s fun u => u.onTk hdr b f)) :=
  ends_alive hs fun _ hu => inv_onTk hc hu hf

-- Commands whose meaning looks into the state before it acts

theorem completionRecord_ends {h : Handle} {t : Nat} (hc : Closed 0xEFBF P) (hs : P s) : Ends P (execCompletionRecord h t s) :=
  ends_alive hs fun _ hu => by
    split
    · exact inv_ite (inv_settle (hc.mono rfl) (inv_writeCompletion (hc.mono rfl) (inv_advance (hc.mono rfl) hu))) hu
    · exact hu

theorem watchdogExpiry_ends {core : Fin 7} {t : Nat} (hc : Closed 0xEE07 P) (hs : P s) : Ends P (execWatchdogExpiry core t s) :=
  ends_timed (hc.mono rfl) hs fun _ hu => by
    dsimp only
    exact inv_ite (inv_haltSecurity (hc.mono rfl) hu) (inv_ite hu (inv_restartCore (hc.mono rfl) hu))

theorem coreFault_ends {core : Fin 7} {t : Nat} (hc : Closed 0xEE07 P) (hs : P s) : Ends P (execCoreFault core t s) :=
  ends_timed (hc.mono rfl) hs fun _ hu => by
    dsimp only
    exact inv_ite (inv_haltSecurity (hc.mono rfl) hu) (inv_restartCore (hc.mono rfl) hu)

theorem shootDownWaitExpiry_ends {h : Handle} {t : Nat} (hc : Closed 0xEF9F P) (hs : P s) : Ends P (execShootDownWaitExpiry h t s) :=
  ends_alive hs fun _ hu => by
    split
    · exact inv_ite hu (inv_runCmd (hc.mono rfl) (inv_upTu (hc.mono rfl)
        (inv_bump (hc.mono rfl) (inv_upCmd (hc.mono rfl) (inv_advance (hc.mono rfl) hu)))))
    · exact hu

theorem remoteCutoff_ends {h : Handle} {t : Nat} (hc : Closed 0xEF9F P) (hs : P s) : Ends P (execRemoteCutoff h t s) :=
  ends_alive hs fun _ hu => by
    split
    · exact inv_ite hu (inv_settle (hc.mono rfl) (inv_sweepWaits (hc.mono rfl) (inv_cutCmd (hc.mono rfl) (inv_advance (hc.mono rfl) hu))))
    · exact hu

theorem confirmWaitExpiry_ends {t : Nat} (hc : Closed 0xEE07 P) (hs : P s) : Ends P (execConfirmWaitExpiry t s) :=
  ends_alive hs fun _ hu =>
    inv_ite hu (inv_fatal (hc.mono rfl) (inv_writeRollback (hc.mono rfl) (inv_advance (hc.mono rfl) hu)))

theorem selfTestFailure_ends {test t : Nat} (hc : Closed 0xEE07 P) (hs : P s) : Ends P (execSelfTestFailure test t s) :=
  ends_timed (hc.mono rfl) hs fun _ hu => by
    have stopped {u : State} (h : P u) : P (if u.fwReady then u else u.setFld SE_STATUS 1 1 0) := inv_ite h (inv_setFld (hc.mono rfl) h)
    have marked {u : State} (h : P u) : P (if test < 2 && !u.valid then u.upCtl (fun c => { c with mbistBad := true }) else u) :=
      inv_ite (inv_upCtl (hc.mono rfl) h (fun _ => Nat.le_refl _) fun _ => .inl rfl) h
    exact inv_macsecPortsLeave (hc.mono rfl) (marked (stopped (inv_fault (hc.mono rfl) (inv_setFld (hc.mono rfl) hu))))

theorem openAck_ends {port : Fin 8} {f : Frame} {t : Nat} (hc : Closed 0xEF9F P) (hs : P s) : Ends P (execOpenAck port f t s) := by
  have taken {act : State → Nat → Nat → State} (ha : ∀ u p l, P u → P (act u p l)) : P ((s.advance t).recvFrame port f 5 act) :=
    inv_recvFrame (hc.mono rfl) (inv_advance (hc.mono rfl) hs) ha
  exact ends_next (inv_ite (taken fun _ _ _ => inv_recvOpenAck (hc.mono rfl))
    (inv_ite (taken fun _ _ _ => inv_stopReport (hc.mono rfl)) hs))

theorem ackDelayExpiry_ends {partner : BitVec 15} {lane : Fin 4} {t : Nat} (hc : Closed 0x4403 P) (hs : P s) :
    Ends P (execAckDelayExpiry partner lane t s) :=
  ends_timed (hc.mono rfl) hs fun _ hu => by
    dsimp only
    split
    · exact hu
    · exact inv_ite hu (inv_sendAck (hc.mono rfl) hu)

theorem idleCloseExpiry_ends {partner : BitVec 15} {lane : Fin 4} {t : Nat} (hc : Closed 0x4403 P) (hs : P s) :
    Ends P (execIdleCloseExpiry partner lane t s) :=
  ends_timed (hc.mono rfl) hs fun _ hu => by
    dsimp only
    split
    · exact hu
    · exact inv_ite hu (inv_upFlow (hc.mono rfl) (inv_sendFrame (hc.mono rfl) hu))

theorem packetNumberExhausted_ends {port : Fin 8} {t : Nat} (hc : Closed 0xEE07 P) (hs : P s) :
    Ends P (execPacketNumberExhausted port t s) :=
  ends_timed (hc.mono rfl) hs fun _ hu => by
    dsimp only
    exact inv_ite (inv_portLeaves (hc.mono rfl) hu) hu

theorem echoReply_ends {src : BitVec 15} {msg : List Byte} {t : Nat} (hc : Closed 0xCF9F P) (hs : P s) :
    Ends P (execEchoReply src msg t s) :=
  ends_msg (hc.mono rfl) hs fun _ _ hu => by
    split
    · exact hu
    · split
      · exact inv_echoBack (hc.mono rfl) hu
      · exact hu

theorem tkReply_ends {hdr : TkHdr} {a : TkAnswer} {t : Nat} (hc : Closed 0xEF9F P) (hs : P s) : Ends P (execTkReply hdr a t s) :=
  ends_timed (hc.mono rfl) hs fun _ hu => by
    dsimp only
    split
    · exact inv_dropReply (hc.mono rfl) hu
    · refine inv_ite (inv_take (hc.mono rfl) (inv_settle (hc.mono rfl) (inv_resume (hc.mono rfl) ?_))) hu
      exact inv_ite_fst (inv_setFld (hc.mono rfl) hu) (inv_recvReply (hc.mono rfl) hu)

theorem writeBatchTurn_ends {tier : Fin 3} {channel : Fin 64} (hc : Closed 0x8000 P) (hs : P s) :
    Ends P (execWriteBatchTurn tier channel s) :=
  ends_alive hs fun _ hu => by
    dsimp only
    split
    · exact hu
    · exact inv_ite (inv_upSpine (hc.mono rfl) hu) hu

theorem badPacketRewind_ends {edge : Fin 8} {port : Option (Fin 8)} (hc : Closed 0x2 P) (hs : P s) :
    Ends P (execBadPacketRewind edge port s) := by
  have counted {off : Nat} : P ((s.bump TT_BF_REWIND 1).bump off 1) := inv_bump hc (inv_bump hc hs)
  refine ends_next (inv_ite hs ?_)
  cases port with
  | none => exact inv_bump hc hs
  | some k => exact inv_ite counted (inv_bump hc hs)

theorem hpLinkUpChange_ends {up : Bool} (hc : Closed 0xEF9F P) (hs : P s) : Ends P (execHpLinkUpChange up s) := by
  have pin : P (s.upCtl fun c => { c with hpLinkUp := up }) :=
    inv_upCtl (hc.mono rfl) hs (fun _ => Nat.le_refl _) fun _ => .inl rfl
  exact ends_next (inv_ite (inv_whenAlive (hc.mono rfl) pin fun _ h => inv_settle (hc.mono rfl) (inv_upTu (hc.mono rfl) h)) pin)

end

-- The dispatch

/-- Every command but the fall of rst_n ends in a next state, of which every property holds that the command's operations keep. -/
theorem exec_ends {P : State → Prop} {s : State} (c : Instr) (hr : ∀ t, c ≠ .resetAssert t) (hc : Closed (opsMask c) P) (hs : P s) :
    Ends P (exec c s) := by
  cases c
  all_goals dsimp only [opsMask] at hc
  -- Rings (03)
  case doorbellTailWrite => exact ends_timed (hc.mono rfl) hs fun _ => inv_tailWrite (hc.mono rfl)
  case cqHeadWrite => exact ends_alive hs fun _ => inv_cqHeadWrite (hc.mono rfl)
  case descriptorAcceptance => exact ends_timed (hc.mono rfl) hs fun _ => inv_acceptNext (hc.mono rfl)
  case completionRecord => exact completionRecord_ends (hc.mono rfl) hs
  case notifyHoldoffExpiry => exact ends_timed (hc.mono rfl) hs fun _ => inv_notifyDue (hc.mono rfl)
  -- Opcodes (03 R127)
  case nop => exact ends_alive hs fun _ h => inv_runAs (hc.mono rfl) h fun _ _ => inv_runNop (hc.mono rfl)
  case lookup => exact ends_opcode (hc.mono rfl) hs fun _ _ => inv_runGather (hc.mono rfl)
  case lookupPool => exact ends_opcode (hc.mono rfl) hs fun _ _ => inv_runGather (hc.mono rfl)
  case scatterAdd => exact ends_opcode (hc.mono rfl) hs fun _ _ => inv_runScatter (hc.mono rfl)
  case poolBackward => exact ends_opcode (hc.mono rfl) hs fun _ _ => inv_runScatter (hc.mono rfl)
  case tableCreate => exact ends_opcode (hc.mono rfl) hs fun _ _ => inv_runTable (hc.mono rfl)
  case tableDestroy => exact ends_opcode (hc.mono rfl) hs fun _ _ => inv_runTable (hc.mono rfl)
  case versionPublish => exact ends_opcode (hc.mono rfl) hs fun _ _ => inv_runTable (hc.mono rfl)
  case versionSwitch => exact ends_opcode (hc.mono rfl) hs fun _ _ => inv_runTable (hc.mono rfl)
  case rowsWrite => exact ends_opcode (hc.mono rfl) hs fun _ _ => inv_runRowsWrite (hc.mono rfl)
  case rowsRead => exact ends_opcode (hc.mono rfl) hs fun _ _ => inv_runRowsRead (hc.mono rfl)
  case migrate => exact ends_opcode (hc.mono rfl) hs fun _ _ => inv_runTable (hc.mono rfl)
  case checkpoint => exact ends_opcode (hc.mono rfl) hs fun _ _ => inv_runCheckpoint (hc.mono rfl)
  case restore => exact ends_opcode (hc.mono rfl) hs fun _ _ => inv_runRestore (hc.mono rfl)
  case fence => exact ends_alive hs fun _ h => inv_runAs (hc.mono rfl) h fun _ _ => inv_runFence (hc.mono rfl)
  case flushCache => exact ends_alive hs fun _ h => inv_runAs (hc.mono rfl) h fun _ _ => inv_runFlush (hc.mono rfl)
  case stats => exact ends_opcode (hc.mono rfl) hs fun _ _ => inv_runStats (hc.mono rfl)
  case commitStep => exact ends_opcode (hc.mono rfl) hs fun _ _ => inv_runCommit (hc.mono rfl)
  case attest => exact ends_opcode (hc.mono rfl) hs fun _ _ => inv_runAttest (hc.mono rfl)
  case loopbackTest => exact ends_opcode (hc.mono rfl) hs fun _ _ => inv_runLoopback (hc.mono rfl)
  case diagnostics => exact ends_alive hs fun _ h => inv_runAs (hc.mono rfl) h fun _ _ => inv_runDiag (hc.mono rfl)
  -- Ring control (03)
  case attach => exact ends_next (inv_ite (inv_writeRingCtrl (hc.mono rfl) hs) hs)
  case detach => exact ends_next (inv_ite (inv_writeRingCtrl (hc.mono rfl) hs) hs)
  case ringFault => exact ends_alive hs fun _ h => inv_settle (hc.mono rfl) (inv_faultRing (hc.mono rfl) h)
  case dbErrRead =>
    exact ends_next (inv_ite (inv_upCtl (hc.mono rfl) (inv_readStatus (hc.mono rfl) hs) (fun _ => Nat.le_refl _) fun _ => .inl rfl) hs)
  -- Control Complex (13, 16)
  case setupLock => exact ends_next (inv_ite (inv_setLock (hc.mono rfl) hs) hs)
  case stop => exact ends_next (inv_ite (inv_writeStop (hc.mono rfl) (inv_advance (hc.mono rfl) hs)) hs)
  case restart => exact ends_next (inv_ite (inv_writeCore (hc.mono rfl) (inv_advance (hc.mono rfl) hs)) hs)
  case coreRestartDone => exact ends_timed (hc.mono rfl) hs fun _ => inv_restartDone (hc.mono rfl)
  case watchdogExpiry => exact watchdogExpiry_ends (hc.mono rfl) hs
  case coreFault => exact coreFault_ends (hc.mono rfl) hs
  -- Translation (11)
  case ctxLoad => exact ends_next (inv_ite (inv_writeCtxCtrl (hc.mono rfl) hs) hs)
  case ctxStore => exact ends_next (inv_ite (inv_writeCtxCtrl (hc.mono rfl) hs) hs)
  case winLoad => exact ends_next (inv_ite (inv_writeWinCtrl (hc.mono rfl) hs) hs)
  case winStore => exact ends_next (inv_ite (inv_writeWinCtrl (hc.mono rfl) hs) hs)
  case pull => exact ends_next (inv_ite (inv_writeMigCtrl (hc.mono rfl) hs) hs)
  case release => exact ends_next (inv_ite (inv_writeMigCtrl (hc.mono rfl) hs) hs)
  case pageMigration => exact ends_alive hs fun _ => inv_migratePage (hc.mono rfl)
  case shootDownGo => exact ends_next (inv_ite (inv_writeInvCtrl (hc.mono rfl) hs) hs)
  case inv => exact ends_alive hs fun _ => inv_recvInv (hc.mono rfl)
  case shootDownDrained => exact ends_alive hs fun _ => inv_shotDown (hc.mono rfl)
  case shootDownWaitExpiry => exact shootDownWaitExpiry_ends (hc.mono rfl) hs
  case snpInv => exact ends_alive hs fun _ => inv_snoop (hc.mono rfl)
  case hostResponse => exact ends_alive hs fun _ h => inv_ite h (inv_hostResponse (hc.mono rfl) h)
  case hostRequestTimeout => exact ends_alive hs fun _ h => inv_ite (inv_hostResponse (hc.mono rfl) (inv_bump (hc.mono rfl) h)) h
  case apertureAccess => exact ends_alive hs fun _ => inv_aperture (hc.mono rfl)
  case routeLoad => exact ends_next (inv_ite (inv_writeRouteCtrl (hc.mono rfl) hs) hs)
  case routeStore => exact ends_next (inv_ite (inv_writeRouteCtrl (hc.mono rfl) hs) hs)
  case declare => exact ends_next (inv_ite (inv_writeFailCtrl (hc.mono rfl) (inv_advance (hc.mono rfl) hs)) hs)
  case query => exact ends_next (inv_ite (inv_writeFailCtrl (hc.mono rfl) (inv_advance (hc.mono rfl) hs)) hs)
  case failCtrlNoAnswer => exact ends_timed (hc.mono rfl) hs fun _ => inv_failCtrlSilent (hc.mono rfl)
  -- Spine (14)
  case faultLoad => exact ends_next (inv_ite (inv_writeFaultCtrl (hc.mono rfl) hs) hs)
  case holmOfflineWrite => exact ends_next (inv_ite (inv_writeHolmCtrl (hc.mono rfl) hs) hs)
  case holmDrained => exact ends_alive hs fun _ => inv_drainHolm (hc.mono rfl)
  case holmTest => exact ends_next (inv_ite (inv_writeHolmCtrl (hc.mono rfl) hs) hs)
  case holmTestDone => exact ends_timed (hc.mono rfl) hs fun _ => inv_testDone (hc.mono rfl)
  case sliceReturnWalkDone => exact ends_alive hs fun _ => inv_walkDone (hc.mono rfl)
  case holmFailure => exact ends_timed (hc.mono rfl) hs fun _ => inv_failHolm (hc.mono rfl)
  case arm => exact ends_next (inv_ite (inv_writeLbCtrl (hc.mono rfl) hs) hs)
  case h1TurnaroundDone => exact ends_alive hs fun _ => inv_h1Done (hc.mono rfl)
  -- Security mailbox (13 R499)
  case dlBegin => exact ends_next (inv_mailboxCmd (hc.mono rfl) hs)
  case dlChunk => exact ends_next (inv_mailboxCmd (hc.mono rfl) hs)
  case verify => exact ends_next (inv_mailboxCmd (hc.mono rfl) hs)
  case activate => exact ends_next (inv_mailboxCmd (hc.mono rfl) hs)
  case confirm => exact ends_next (inv_mailboxCmd (hc.mono rfl) hs)
  case certRead => exact ends_next (inv_mailboxCmd (hc.mono rfl) hs)
  case kekSet => exact ends_next (inv_mailboxCmd (hc.mono rfl) hs)
  case sakInstall => exact ends_next (inv_mailboxCmd (hc.mono rfl) hs)
  case sakInstallPlain => exact ends_next (inv_mailboxCmd (hc.mono rfl) hs)
  case sakRetire => exact ends_next (inv_mailboxCmd (hc.mono rfl) hs)
  case zeroize => exact ends_next (inv_mailboxCmd (hc.mono rfl) hs)
  case debugUnlock => exact ends_next (inv_mailboxCmd (hc.mono rfl) hs)
  case mailboxGoIgnored => exact ends_next (inv_ite (inv_writeMbox (hc.mono rfl) hs) hs)
  case trialConfirmation => exact ends_alive hs fun _ => inv_confirmTrial (hc.mono rfl)
  case confirmWaitExpiry => exact confirmWaitExpiry_ends (hc.mono rfl) hs
  case selfTestFailure => exact selfTestFailure_ends (hc.mono rfl) hs
  -- Registers with effects (07, 08, 16)
  case mtRegWrite => exact ends_next (inv_ite (inv_writeMtReg (hc.mono rfl) hs) hs)
  case rcWayDisableWrite => exact ends_next (inv_ite (inv_writeWayDisable (hc.mono rfl) hs) hs)
  case mdWayDisableWrite => exact ends_next (inv_ite (inv_writeMdDisable (hc.mono rfl) hs) hs)
  case errSchemeChange => exact ends_next (inv_ite (inv_writeMdCfg (hc.mono rfl) hs) hs)
  case mcMapoutWrite => exact ends_next (inv_ite (inv_writeMapout (hc.mono rfl) hs) hs)
  case registerWrite => exact ends_next (inv_ite (inv_writeReg (hc.mono rfl) hs) hs)
  -- Fabric (09)
  case data => exact ends_frame (hc.mono rfl) hs fun _ _ _ => inv_recvData (hc.mono rfl)
  case ack => exact ends_frame (hc.mono rfl) hs fun _ _ _ => inv_recvAck (hc.mono rfl)
  case nak => exact ends_frame (hc.mono rfl) hs fun _ _ _ => inv_recvNak (hc.mono rfl)
  case openFrame => exact ends_frame (hc.mono rfl) hs fun _ _ _ => inv_recvOpen (hc.mono rfl)
  case openAck => exact openAck_ends (hc.mono rfl) hs
  case close => exact ends_frame (hc.mono rfl) hs fun _ _ _ => inv_recvClose (hc.mono rfl)
  case closeAck => exact ends_frame (hc.mono rfl) hs fun _ _ _ => inv_recvCloseAck (hc.mono rfl)
  case rtoExpiry => exact ends_timed (hc.mono rfl) hs fun _ h => inv_sweepWaits (hc.mono rfl) (inv_rtoExpired (hc.mono rfl) h)
  case retryMaxReached => exact ends_timed (hc.mono rfl) hs fun _ => inv_portFailed (hc.mono rfl)
  case ackDelayExpiry => exact ackDelayExpiry_ends (hc.mono rfl) hs
  case idleCloseExpiry => exact idleCloseExpiry_ends (hc.mono rfl) hs
  case reprobeExpiry => exact ends_timed (hc.mono rfl) hs fun _ => inv_reprobe (hc.mono rfl)
  case coalesceExpiry => exact ends_timed (hc.mono rfl) hs fun _ => inv_pump (hc.mono rfl)
  case pfcFrame => exact ends_timed (hc.mono rfl) hs fun _ => inv_recvPfc (hc.mono rfl)
  case pfcWatchdogExpiry => exact ends_timed (hc.mono rfl) hs fun _ => inv_pfcExpired (hc.mono rfl)
  case packetNumberExhausted => exact packetNumberExhausted_ends (hc.mono rfl) hs
  case portLinkUp => exact ends_alive hs fun _ h => inv_ite h (inv_portEnters (hc.mono rfl) h)
  case portAlignTimeout => exact ends_alive hs fun _ h => inv_ite h (inv_portLeaves (hc.mono rfl) (inv_advance (hc.mono rfl) h))
  case portLinkDown => exact ends_alive hs fun _ h => inv_ite h (inv_portLeaves (hc.mono rfl) (inv_advance (hc.mono rfl) h))
  case fecThresholdReached =>
    exact ends_alive hs fun _ h => inv_ite h (inv_upFab (hc.mono rfl) (inv_portLeaves (hc.mono rfl) (inv_advance (hc.mono rfl) h)))
  case loopbackAckTimeout => exact ends_alive hs fun _ => inv_lbNoAck (hc.mono rfl)
  case readReq => exact ends_msg (hc.mono rfl) hs fun _ _ => inv_serveBundle (hc.mono rfl)
  case poolReq => exact ends_msg (hc.mono rfl) hs fun _ _ => inv_serveBundle (hc.mono rfl)
  case readReply => exact ends_msg (hc.mono rfl) hs fun _ _ h => inv_resume (hc.mono rfl) (inv_gatherReply (hc.mono rfl) h)
  case poolReply => exact ends_msg (hc.mono rfl) hs fun _ _ h => inv_resume (hc.mono rfl) (inv_gatherReply (hc.mono rfl) h)
  case remoteCutoff => exact remoteCutoff_ends (hc.mono rfl) hs
  case add => exact ends_msg (hc.mono rfl) hs fun _ _ h => inv_sweepWaits (hc.mono rfl) (inv_recvAdd (hc.mono rfl) h)
  case addAck => exact ends_msg (hc.mono rfl) hs fun _ _ h => inv_settle (hc.mono rfl) (inv_recvAddAck (hc.mono rfl) h)
  case recentAddLogExpiry => exact ends_timed (hc.mono rfl) hs fun _ h => inv_sweepWaits (hc.mono rfl) (inv_upTab (hc.mono rfl) h)
  case remoteDoorbell => exact ends_msg (hc.mono rfl) hs fun _ _ => inv_recvDoorbell (hc.mono rfl)
  case reg => exact ends_msg (hc.mono rfl) hs fun _ _ => inv_recvReg (hc.mono rfl)
  case regReply => exact ends_alive hs fun _ h => inv_onMsg (hc.mono rfl) h fun _ _ => id
  case memRead => exact ends_alive hs fun _ h => inv_ite h (inv_onMsg (hc.mono rfl) h fun _ _ h => inv_recvMemRead (hc.mono rfl) h)
  case memReadReply => exact ends_msg (hc.mono rfl) hs fun _ _ => inv_recvMemReply (hc.mono rfl)
  case memWrite => exact ends_alive hs fun _ h => inv_ite h (inv_onMsg (hc.mono rfl) h fun _ _ h => inv_recvMemWrite (hc.mono rfl) h)
  case memWriteAck => exact ends_alive hs fun _ h => inv_onMsg (hc.mono rfl) h fun _ _ => inv_recvMemAck (hc.mono rfl)
  case echo => exact ends_alive hs fun _ h => inv_onMsg (hc.mono rfl) h fun _ _ h => inv_ite h (inv_answer (hc.mono rfl) h)
  case echoReply => exact echoReply_ends (hc.mono rfl) hs
  -- Table Keeper messages (12 R481)
  case claim => exact ends_tk (hc.mono rfl) hs fun _ h => inv_settle (hc.mono rfl) (inv_recvClaim (hc.mono rfl) h)
  case recordFetch => exact ends_tk (hc.mono rfl) hs fun _ => inv_recvFetch (hc.mono rfl)
  case update => exact ends_tk (hc.mono rfl) hs fun _ h => inv_settle (hc.mono rfl) (inv_recvUpdate (hc.mono rfl) h)
  case released => exact ends_tk (hc.mono rfl) hs fun _ h => inv_settle (hc.mono rfl) (inv_recvReleased (hc.mono rfl) h)
  case versionPhase => exact ends_tk (hc.mono rfl) hs fun _ h => inv_settle (hc.mono rfl) (inv_recvPhase (hc.mono rfl) h)
  case reserve => exact ends_tk (hc.mono rfl) hs fun _ => inv_recvReserve (hc.mono rfl)
  case commit => exact ends_timed (hc.mono rfl) hs fun _ h => inv_onTk (hc.mono rfl) h fun _ => inv_recvCommit (hc.mono rfl)
  case replicaWrite => exact ends_timed (hc.mono rfl) hs fun _ h => inv_onTk (hc.mono rfl) h fun _ => inv_recvReplica (hc.mono rfl)
  case groupCopy => exact ends_timed (hc.mono rfl) hs fun _ h => inv_onTk (hc.mono rfl) h fun _ => inv_recvCopy (hc.mono rfl)
  case loadReport => exact ends_tk (hc.mono rfl) hs fun _ => inv_takeLoad (hc.mono rfl)
  case failNotice =>
    exact ends_timed (hc.mono rfl) hs fun _ h =>
      inv_onTk (hc.mono rfl) h fun _ h => inv_settle (hc.mono rfl) (inv_recvFail (hc.mono rfl) h)
  case redeliverDone => exact ends_tk (hc.mono rfl) hs fun _ => inv_redelivered (hc.mono rfl)
  case imagePart => exact ends_tk (hc.mono rfl) hs fun _ h => inv_settle (hc.mono rfl) (inv_recvImage (hc.mono rfl) h)
  case tkReply => exact tkReply_ends (hc.mono rfl) hs
  case groupMove => exact ends_timed (hc.mono rfl) hs fun _ h => inv_settle (hc.mono rfl) (inv_runMove (hc.mono rfl) h)
  case secondaryRebuild => exact ends_timed (hc.mono rfl) hs fun _ h => inv_settle (hc.mono rfl) (inv_runRebuild (hc.mono rfl) h)
  case loadPeriodEnd => exact ends_timed (hc.mono rfl) hs fun _ h => inv_sweepWaits (hc.mono rfl) (inv_endPeriod (hc.mono rfl) h)
  -- Tiers (08)
  case tierFailure => exact ends_alive hs fun _ h => inv_ite h (inv_tierFails (hc.mono rfl) (inv_advance (hc.mono rfl) h))
  case tierSFailure => exact ends_timed (hc.mono rfl) hs fun _ => inv_tierSFails (hc.mono rfl)
  case phyUpdateRequest => exact ends_timed (hc.mono rfl) hs fun _ => inv_phyUpdate (hc.mono rfl)
  case phyUpdateOverrun =>
    exact ends_alive hs fun _ h => inv_ite h (inv_tierFails (hc.mono rfl) (inv_upSpine (hc.mono rfl) (inv_advance (hc.mono rfl) h)))
  case writeBatchTurn => exact writeBatchTurn_ends (hc.mono rfl) hs
  case tierReadError => exact ends_timed (hc.mono rfl) hs fun _ => inv_readError (hc.mono rfl)
  case rowRepair => exact ends_timed (hc.mono rfl) hs fun _ => inv_repairRow (hc.mono rfl)
  case refresh => exact ends_next hs
  case regulatorRefill => exact ends_timed (hc.mono rfl) hs fun _ => inv_refillAll (hc.mono rfl)
  case tierSTempRead => exact ends_timed (hc.mono rfl) hs fun _ => inv_tierSTemps (hc.mono rfl)
  case floorTakesEffect => exact ends_timed (hc.mono rfl) hs fun _ => inv_floorEffect (hc.mono rfl)
  case logicTempRead => exact ends_timed (hc.mono rfl) hs fun _ h => inv_showTadm (hc.mono rfl) (inv_setFld (hc.mono rfl) h)
  case canaryWindow => exact ends_timed (hc.mono rfl) hs fun _ => inv_canaries (hc.mono rfl)
  case vddOk => exact ends_timed (hc.mono rfl) hs fun _ => inv_vddSettled (hc.mono rfl)
  case delayLineCalibration => exact ends_alive hs fun _ h => inv_ite (inv_calibrate (hc.mono rfl) h) h
  case marginRecentre => exact ends_alive hs fun _ h => inv_ite (inv_recentre (hc.mono rfl) (inv_advance (hc.mono rfl) h)) h
  -- Caches (07)
  case heatDecaySweep => exact ends_alive hs fun _ => inv_decay (hc.mono rfl)
  case fillArrival => exact ends_alive hs fun _ => inv_fillSector (hc.mono rfl)
  case wayRetire => exact ends_timed (hc.mono rfl) hs fun _ => inv_retireWay (hc.mono rfl)
  case spareRotation => exact ends_timed (hc.mono rfl) hs fun _ => inv_rotate (hc.mono rfl)
  case mdWaySelfDisable => exact ends_alive hs fun _ h => inv_ite h (inv_mdDisable (hc.mono rfl) (inv_advance (hc.mono rfl) h))
  case mdFill => exact ends_alive hs fun _ => inv_mdArrive (hc.mono rfl)
  case mbHoldExpiry => exact ends_timed (hc.mono rfl) hs fun _ => inv_upCache (hc.mono rfl)
  -- Background (14)
  case patrolScrub => exact ends_timed (hc.mono rfl) hs fun _ => inv_scrubWord (hc.mono rfl)
  case sramScrub => exact ends_timed (hc.mono rfl) hs fun _ => inv_sramError (hc.mono rfl)
  case backgroundTaskBehind => exact ends_timed (hc.mono rfl) hs fun _ => inv_taskBehind (hc.mono rfl)
  case telemetrySample => exact ends_timed (hc.mono rfl) hs fun _ h => inv_owedNotify (hc.mono rfl) (inv_sampleTelemetry (hc.mono rfl) h)
  case fatalStop => exact ends_next (inv_ite (inv_fatal (hc.mono rfl) (inv_advance (hc.mono rfl) hs)) hs)
  case refClkLost => exact ends_next (inv_ite (inv_fatal (hc.mono rfl) (inv_advance (hc.mono rfl) hs)) hs)
  -- Boundary FIFOs and reset (15)
  case packetStallRewind => exact ends_next (inv_ite hs (inv_bump (hc.mono rfl) hs))
  case badPacketRewind => exact badPacketRewind_ends (hc.mono rfl) hs
  case resetAssert => exact absurd rfl (hr _)
  case resetRelease => exact ends_next (inv_ite (inv_rom (hc.mono rfl) (inv_leaveReset (hc.mono rfl) hs)) hs)
  case mbistDone => exact ends_alive hs fun _ h => inv_ite h (inv_selfTested (hc.mono rfl) h)
  case tierTrainingDone => exact ends_timed (hc.mono rfl) hs fun _ => inv_trainTiers (hc.mono rfl)
  case firmwareReady => exact ends_alive hs fun _ => inv_configure (hc.mono rfl)
  case mailboxCommandDone => exact ends_alive hs fun _ => inv_mailboxDone (hc.mono rfl)
  case wrapperInstructionUpdate => exact ends_next (inv_ite hs (inv_upCtl (hc.mono rfl) hs (fun _ => Nat.le_refl _) fun _ => .inl rfl))
  case emptyFifoRead => exact ends_next (inv_ite hs (inv_setFld (hc.mono rfl) hs))
  case errorCountWindowClear => exact ends_alive hs fun _ => inv_upCache (hc.mono rfl)
  case fecRetryHoldoffExpiry => exact ends_alive hs fun _ => inv_upFab (hc.mono rfl)
  case regReplyRetentionExpiry => exact ends_timed (hc.mono rfl) hs fun _ => inv_upFab (hc.mono rfl)
  case hpLinkUpChange => exact hpLinkUpChange_ends (hc.mono rfl) hs
  case deviceTemperatureReport => exact ends_timed (hc.mono rfl) hs fun _ => inv_deviceTemp (hc.mono rfl)
  case controllerUpdate => exact ends_next hs
  case h1TurnaroundPacket => exact ends_alive hs fun _ => inv_h1Packet (hc.mono rfl)

end Sys2Proof.Machine
end

section
/-! PROOFS. The soundness of every step. -/

namespace Sys2Proof.Machine

/-- The fall of rst_n keeps host memory, the fuses and the queue, and puts everything else back (15 R567). -/
theorem steady_inReset (s : State) (t : Nat) : Steady s (s.inReset t) :=
  ⟨fun _ => rfl, rfl, Nat.le_max_left _ _, wfFrom_filter _ _ _, fusesGrow_refl _⟩

theorem opsMask_land (c : Instr) : Nat.land (opsMask c) 0x1FFFF = opsMask c := by
  unfold opsMask
  split <;> rfl

/-- What every command keeps: the reset by its own lemma, every other command because the operations keep it. -/
theorem exec_steady {c : Instr} {s t : State} (h : exec c s = .next t) : Steady s t := by
  by_cases hr : ∃ i, c = .resetAssert i
  · obtain ⟨i, rfl⟩ := hr
    cases h
    exact steady_inReset s i
  · obtain ⟨u, hu, steady⟩ := exec_ends c (fun i e => hr ⟨i, e⟩) ((steady_closed s).mono (opsMask_land c)) (Steady.refl s)
    cases hu.symm.trans h
    exact steady

theorem Steady.sound {s t : State} (h : Steady s t) (hs : Sound s) : Sound t :=
  ⟨h.mem hs.1, h.regs hs.2⟩

/-- Settles O2: an idle step changes nothing, and the command at the front of the queue keeps the form of memory and registers. -/
theorem everyStepKeepsSoundness : Obligations.EveryStepKeepsSoundness := by
  intro s t hs h
  unfold step at h
  split at h
  case h_1 => cases h; exact hs
  case h_2 c rest _ => exact (exec_steady h).sound (s := { s with pending := rest }) hs

end Sys2Proof.Machine
end

section
/-! PROOFS. The register window: writes taken by the access codes alone, and the read that clears DB_ERR. -/

namespace Sys2Proof.Machine

theorem eq_of_indexIn {base n stride off k : Nat} (h : indexIn base n stride off = some k) : k < n ∧ off = base + stride * k := by
  unfold indexIn at h
  split at h
  case isTrue c =>
    obtain ⟨hlo, hhi, hmod⟩ := c
    cases h
    have hoff : off = base + stride * ((off - base) / stride) := by
      have := Nat.div_add_mod (off - base) stride
      omega
    refine ⟨Nat.div_lt_of_lt_mul ?_, hoff⟩
    rw [Nat.mul_comm] at hhi
    omega
  case isFalse => cases h

theorem indexIn_eq_none {base n stride off : Nat} (h : ∀ k, k < n → off ≠ base + stride * k) : indexIn base n stride off = none := by
  cases hi : indexIn base n stride off with
  | none => rfl
  | some k => exact absurd (eq_of_indexIn hi).2 (h k (eq_of_indexIn hi).1)

/-- An offset outside `ruledRegs` is no element of the arrays with rules of their own. -/
theorem no_array_of_unruled {off : Nat} (h : off ∉ ruledRegs) :
    (∀ k, k < 7 → off ≠ CC_CORE k) ∧ (∀ k, k < 4 → off ≠ RC_WAY_DISABLE k) ∧ (∀ k, k < 8 → off ≠ FP_PORT_CFG k) ∧
      (∀ k, k < 8 → off ≠ TK_REGISTRY k) ∧ ∀ t p, t < 3 → p < 16 → off ≠ MT_REG t p := by
  simp only [ruledRegs, upTo, List.mem_append, List.mem_map, List.mem_flatten, List.mem_range, not_or, not_exists, not_and] at h
  obtain ⟨⟨⟨⟨⟨_, core⟩, way⟩, port⟩, registry⟩, floor⟩ := h
  exact ⟨fun k hk e => core k hk e.symm, fun k hk e => way k hk e.symm, fun k hk e => port k hk e.symm,
    fun k hk e => registry k hk e.symm, fun t p ht hp e => floor _ ⟨t, ht, rfl⟩ (List.mem_map.2 ⟨p, List.mem_range.2 hp, e.symm⟩)⟩

theorem State.writeIndexed_unruled (s : State) (off v t : Nat) (h : off ∉ ruledRegs) : s.writeIndexed off v t = s.writeFields off v := by
  obtain ⟨core, way, port, _, floor⟩ := no_array_of_unruled h
  have hcore : indexIn (CC_CORE 0) 7 8 off = none := indexIn_eq_none fun k hk => core k hk
  have hway : indexIn (RC_WAY_DISABLE 0) 4 0x4000 off = none := indexIn_eq_none fun k hk e =>
    way k hk (by simp only [RC_WAY_DISABLE, holmBase] at e ⊢; omega)
  have hport : indexIn (FP_PORT_CFG 0) 8 8 off = none := indexIn_eq_none fun k hk => port k hk
  unfold State.writeIndexed
  rw [hcore, hway, hport]
  dsimp only
  split
  case h_1 p hp =>
    obtain ⟨hlt, hoff⟩ := eq_of_indexIn hp
    exact if_neg fun c => floor t p c.1 hlt hoff
  case h_2 => rfl

/-- A register that no rule beyond its fields governs takes a write by its fields. -/
theorem State.writeReg_byFields (s : State) (off v : Nat) (h : byFieldsAlone s off = true) : s.writeReg off v = s.writeFields off v := by
  unfold byFieldsAlone at h
  unfold State.writeReg
  cases hn : ringOfOff off with
  | some n =>
    simp only [hn, Bool.and_eq_true, bne_iff_ne, ne_eq, Bool.or_eq_true, Bool.not_eq_true', beq_iff_eq] at h
    obtain ⟨hctrl, hguard⟩ := h
    have open_ : ¬ (ringGuarded n off && s.ringState n != 0) = true := by
      rcases hguard with e | e <;> simp [e]
    dsimp only
    rw [if_neg hctrl, if_neg open_]
  | none =>
    have hr : off ∉ ruledRegs := by simpa [hn] using h
    have hkeeper : indexIn (TK_REGISTRY 0) 8 8 off = none := by
      obtain ⟨_, _, _, registry, _⟩ := no_array_of_unruled hr
      exact indexIn_eq_none registry
    have named := hr
    simp only [ruledRegs, List.mem_append, List.mem_cons, not_or] at named
    obtain ⟨⟨⟨⟨⟨named, _⟩, _⟩, _⟩, _⟩, _⟩ := named
    simp only [named, hkeeper, s.writeIndexed_unruled _ _ _ hr, if_false, Option.isSome_none, Bool.false_eq_true, or_self]

theorem exec_registerWrite_taken {src : Src} {off : BitVec 20} {v : Word64} {s : State} (aligned : off.toNat % 8 = 0)
    (taken : s.writable src off.toNat v.toNat = true) :
    exec (.registerWrite src off v) s = .next (s.writeReg off.toNat v.toNat) := by
  show execRegisterWrite src off v s = _
  unfold execRegisterWrite
  rw [if_pos (by simp [aligned, taken])]

theorem exec_dbErrRead_served {src : Src} {n : Fin 64} {s : State} (served : s.readable src = true) :
    exec (.dbErrRead src n) s = .next ((s.readStatus n).upCtl fun c => { c with readOut := s.reg (RF_STATUS n) }) := by
  show execDbErrRead src n s = _
  unfold execDbErrRead
  rw [if_pos served]

theorem State.readStatus_ctl (s : State) (n : Nat) : (s.readStatus n).ctl = s.ctl := s.setFld_ctl _ _ _ _

/-- What the read of RF_RING_STATUS clears: DB_ERR of its ring and nothing else, whatever it shows. -/
theorem State.readStatus_clears (s : State) (n : Nat) (f : Ctl → Ctl) :
    ((s.readStatus n).upCtl f).fld (RF_STATUS n) 10 16 = 0 ∧ OnlyField (RF_STATUS n) 10 16 s ((s.readStatus n).upCtl f) ∧
      OnlyRegs [RF_STATUS n] s ((s.readStatus n).upCtl f) := by
  obtain ⟨cleared, field, regs, _⟩ := s.setFld_only (RF_STATUS n) 10 16 0 (by decide)
  have same : ∀ off, ((s.readStatus n).upCtl f).reg off = (s.readStatus n).reg off := (s.readStatus n).reg_upCtl f
  refine ⟨?_, fun i hi => ?_, fun off ho => ?_⟩
  · rw [State.fld, same]
    exact cleared
  · rw [same]
    exact field i hi
  · rw [same]
    exact regs off ho

/-- Settles O27: a free register's write is `writeFields`, whose fields obey their codes; the read clears DB_ERR alone. -/
theorem registerWriteObeysAccessCodes : Obligations.RegisterWriteObeysAccessCodes := by
  refine ⟨fun src off v s taken aligned free => ?_, fun src n s served => ?_⟩
  · refine ⟨s.writeFields off.toNat v.toNat, ?_, s.writeFields_taken _ _, s.writeFields_parts _ _⟩
    rw [exec_registerWrite_taken aligned taken, s.writeReg_byFields _ _ free]
  · obtain ⟨cleared, field, regs⟩ := s.readStatus_clears n fun c => { c with readOut := s.reg (RF_STATUS n) }
    have touch := only_closed s (m := 0x3) (ps := [.ctl, .regs]) (by decide)
    refine ⟨_, exec_dbErrRead_served served, cleared, field, by rw [State.upCtl_ctl, State.readStatus_ctl], regs, ?_⟩
    exact inv_upCtl (touch.mono rfl) (inv_readStatus (touch.mono rfl) (onlyParts_refl _ s)) (fun _ => Nat.le_refl _) fun _ => .inl rfl

end Sys2Proof.Machine
end

section
/-! PROOFS. The command of a step: what its changes and its end do to it and leave alone, and the step of one that is ready. -/

namespace Sys2Proof.Machine

theorem find?_updFirst {α : Type} {p : α → Bool} {f : α → α} (hf : ∀ x, p x = true → p (f x) = true) (l : List α) :
    (updFirst p f l).find? p = (l.find? p).map f := by
  induction l with
  | nil => rfl
  | cons x xs ih =>
    unfold updFirst
    by_cases hx : p x = true
    · simp [hx, hf x hx]
    · simp [hx, ih]

theorem find?_updFirst_apart {α : Type} {p q : α → Bool} {f : α → α} (hp : ∀ x, p x = true → q x = false ∧ q (f x) = false)
    (l : List α) : (updFirst p f l).find? q = l.find? q := by
  induction l with
  | nil => rfl
  | cons x xs ih =>
    unfold updFirst
    by_cases hx : p x = true
    · simp [hx, hp x hx]
    · simp [hx, ih, List.find?_cons]

-- The commands

theorem State.cmd?_handle {s : State} {h : Nat} {c : Cmd} (found : s.cmd? h = some c) : c.handle = h := by
  simpa using List.find?_some found

/-- A change of a command that keeps its handle is what its look-up returns. -/
theorem State.cmd?_upCmd (s : State) (h : Nat) {f : Cmd → Cmd} (hf : ∀ c, (f c).handle = c.handle) :
    (s.upCmd h f).cmd? h = (s.cmd? h).map f :=
  find?_updFirst (fun c hc => by simpa [hf] using hc) s.cmds

theorem State.onlyCmd_upCmd (s : State) (h : Handle) {f : Cmd → Cmd} (hf : ∀ c, (f c).handle = c.handle) :
    OnlyCmd h s (s.upCmd h.toNat f) := by
  intro k hk
  refine find?_updFirst_apart (fun c hc => ?_) s.cmds
  have other : c.handle ≠ k := by rw [beq_iff_eq] at hc; rw [hc]; exact fun e => hk e.symm
  simp [hf, other]

theorem State.cmd?_of_cmds {s u : State} (same : u.cmds = s.cmds) (k : Nat) : u.cmd? k = s.cmd? k := by
  unfold State.cmd?
  rw [same]

/-- What a finished command waited for is not a command. -/
theorem State.release_parts (s : State) (h : Nat) : OnlyParts [.tab, .fab, .tu] s (s.release h) :=
  inv_release (only_closed s (by decide)) (onlyParts_refl _ s)

theorem State.release_cmds (s : State) (h : Nat) : (s.release h).cmds = s.cmds :=
  (s.release_parts h).cmds.resolve_left (by decide)

theorem State.cmd?_endCmd (s : State) (h status : Nat) {f : Cmd → Cmd} (hf : ∀ c, (f c).handle = c.handle) :
    (s.endCmd h status f).cmd? h = (s.cmd? h).map fun c => { f c with status := status, phase := .done } := by
  unfold State.endCmd
  rw [State.cmd?_upCmd _ _ fun c => by simpa using hf c, State.cmd?_of_cmds (s.release_cmds h)]

theorem State.onlyCmd_endCmd (s : State) (h : Handle) (status : Nat) {f : Cmd → Cmd} (hf : ∀ c, (f c).handle = c.handle) :
    OnlyCmd h s (s.endCmd h.toNat status f) := by
  intro k hk
  unfold State.endCmd
  rw [State.onlyCmd_upCmd _ h (fun c => by simpa using hf c) k hk, State.cmd?_of_cmds (s.release_cmds h.toNat)]

theorem State.endCmd_parts (s : State) (h status : Nat) (f : Cmd → Cmd) :
    OnlyParts [.cmds, .tab, .fab, .tu] s (s.endCmd h status f) :=
  inv_endCmd (only_closed s (by decide)) (onlyParts_refl _ s)

theorem State.advance_parts (s : State) (t : Nat) : OnlyParts [.ctl] s (s.advance t) :=
  inv_advance (only_closed s (by decide)) (onlyParts_refl _ s)

/-- A step that leaves the control part alone after the clock has moved. -/
theorem clockAt_of_advance {t : Nat} {s u : State} (same : u.ctl = (s.advance t).ctl) : ClockAt t s u := same

/-- How a command ends whose step does nothing else. -/
theorem State.endCmd_advance {s : State} {h : Handle} {c : Cmd} (found : s.cmd? h.toNat = some c) (t status : Nat) {f : Cmd → Cmd}
    (hf : ∀ c, (f c).handle = c.handle) :
    ClockAt t s ((s.advance t).endCmd h.toNat status f) ∧
    ((s.advance t).endCmd h.toNat status f).cmd? h.toNat = some { f c with status := status, phase := .done } ∧
    OnlyCmd h s ((s.advance t).endCmd h.toNat status f) ∧
    OnlyParts [.ctl, .cmds, .tab, .fab, .tu] s ((s.advance t).endCmd h.toNat status f) := by
  have ends := (s.advance t).endCmd_parts h.toNat status f
  refine ⟨clockAt_of_advance (ends.ctl.resolve_left (by decide)), ?_, (s.advance t).onlyCmd_endCmd h status hf, ?_⟩
  · rw [State.cmd?_endCmd _ _ _ hf]
    show (s.cmd? h.toNat).map _ = _
    rw [found]
    rfl
  · exact onlyParts_trans (onlyParts_mono (s.advance_parts t) (by decide)) (onlyParts_mono ends (by decide))

-- A command that is ready

section
variable {p : Nat → Bool} {h : Handle} {c : Cmd} {s : State}

theorem ready_handle (ready : Ready p h c s) : c.handle = h.toNat := State.cmd?_handle ready.found

theorem ready_begins (ready : Ready p h c s) (t : Nat) : (s.advance t).begin_ c = (s.advance t, true) := by
  have turn : ¬ (c.phase = .done ∨ (c.phase = .accepted ∧ (!(s.advance t).mayBegin c) = true)) := by
    rintro (done | ⟨accepted, waits⟩)
    · exact ready.unfinished done
    · have begins : (s.advance t).mayBegin c = true := ready.turn accepted
      simp [begins] at waits
  unfold State.begin_
  rw [if_neg turn, if_pos ready.checked]

/-- The step of a ready command of a running block is its opcode's work after the clock has moved. -/
theorem ready_runs (ready : Ready p h c s) (alive : s.ctl.life = .alive) (t : Nat) (run : State → Nat → State) :
    whenAlive s (fun u => (u.advance t).runAs h p run) = run (s.advance t) h.toNat := by
  have found : (s.advance t).cmd? h.toNat = some c := ready.found
  simp [whenAlive, State.alive, alive, State.runAs, found, ready.opcode]

end
end Sys2Proof.Machine
end

section
/-! PROOFS. ROWS_WRITE whose rows are written, and ROWS_READ whose rows are at hand. -/

namespace Sys2Proof.Machine

section
variable {h : Handle} {c : Cmd} {r : TableRec} {v : Version} {s : State}

/-- Nothing of the rows is open: ROWS_WRITE sends none again. -/
theorem State.rowsRetry_written (s : State) (c : Cmd) (d : Desc) (r : TableRec) (v : Version) (written : ∀ g ∈ c.got, g.2.2.2 = true) :
    s.rowsRetry c d r v = s := by
  have none_open : (c.got.any fun p => !p.2.2.2 && p.1 != noOwner && !(c.owners.contains p.1)) = false := by
    rw [List.any_eq_false]
    intro g hg
    simp [written g hg]
  unfold State.rowsRetry
  dsimp only
  rw [none_open]
  rfl

/-- The end of a ROWS_WRITE whose rows are all written and that met nothing (03 R134). -/
theorem State.rowsWriteEnd_written (s : State) (c : Cmd) (fine : c.endStatus = sOk) (calm : c.events = [])
    (written : ∀ g ∈ c.got, g.2.2.2 = true) :
    s.rowsWriteEnd c [] = s.endCmd c.handle sOk fun x => { x with rows := (c.got.filter fun g => g.2.1 != padIndex).length } := by
  have count : (c.got.filter fun g => g.2.2.2 && g.2.1 != padIndex) = c.got.filter fun g => g.2.1 != padIndex :=
    List.filter_congr fun g hg => by rw [written g hg, Bool.true_and]
  unfold State.rowsWriteEnd
  simp [fine, calm, count, sOk, sPartial, sTransFault, sDenied, sUncorr, sBadTable, sUnreach]

/-- ROWS_WRITE at stage 4 with no answer and no copy awaited. -/
theorem State.runRowsWrite_last (ready : Ready (· == oRowsWrite) h c s) (t : Nat) (record : s.rec? (Desc.of c.desc).tbl = some r)
    (version : s.ver? (Desc.of c.desc).tbl c.ver = some v) (stage : c.stage = 4) (asked : s.asking h.toNat = false)
    (waits : s.ownWaits h.toNat = false) (again : (Desc.of c.desc).target = 0 → ∀ g ∈ c.got, g.2.2.2 = true) :
    (s.advance t).runRowsWrite h.toNat = if (Desc.of c.desc).target = 0 then (s.advance t).rowsWriteEnd c []
      else (s.advance t).endCmd h.toNat sOk fun x => x := by
  have found : (s.advance t).cmd? h.toNat = some c := ready.found
  have record : (s.advance t).rec? (Desc.of c.desc).tbl = some r := record
  have version : (s.advance t).ver? (Desc.of c.desc).tbl c.ver = some v := version
  have asked : (s.advance t).asking h.toNat = false := asked
  have waits : (s.advance t).ownWaits h.toNat = false := waits
  unfold State.runRowsWrite
  simp only [found, ready_begins ready t, record, version, Option.filter, stage]
  by_cases rows : (Desc.of c.desc).target = 0
  · simp [ready.unfinished, rows, found, asked, waits, State.rowsRetry_written _ _ _ _ _ (again rows), stage]
  · simp [ready.unfinished, rows, found, asked, waits, stage]

theorem exec_rowsWrite (ready : Ready (· == oRowsWrite) h c s) (alive : s.ctl.life = .alive) (t : Nat) :
    exec (.rowsWrite h t) s = .next ((s.advance t).runRowsWrite h.toNat) :=
  congrArg _ (ready_runs ready alive t State.runRowsWrite)

end

/-- The stored bytes of a position among those that a ROWS_READ has gathered. -/
def gatheredRow (c : Cmd) (f : Fmt) (p : Pos) : List Byte :=
  fitTo f.size (((c.got.find? fun g => g.2.1 == p.idx).map fun g => g.2.2.1).getD [])

/-- The units of a ROWS_READ whose rows are all gathered. -/
def gatheredUnits (c : Cmd) (d : Desc) (f : Fmt) : List OutUnit :=
  c.pos.zipIdx.map fun p => [(d.dstp + (d.resume + p.2) * f.size, gatheredRow c f p.1)]

/-- No position of a ROWS_READ is padding, and the row of each is gathered and could be read. -/
def AllGathered (c : Cmd) : Prop :=
  ∀ p ∈ c.pos, p.idx ≠ padIndex ∧ ∃ g, c.got.find? (fun g => g.2.1 == p.idx) = some g ∧ g.2.2.2 = false

/-- A list of results that are all in order passes unchanged. -/
theorem foldl_keep {σ α : Type} {bad : α → Bool} {g : σ × List α → α → σ × List α} (s : σ) (l : List α)
    (fine : ∀ x ∈ l, bad x = false) (acc : List α) :
    l.foldl (fun a x => if bad x = true then g a x else (a.1, a.2 ++ [x])) (s, acc) = (s, acc ++ l) := by
  induction l generalizing acc with
  | nil => simp
  | cons x xs ih =>
    rw [List.foldl_cons, fine x List.mem_cons_self]
    simpa using ih (fun y hy => fine y (List.mem_cons_of_mem _ hy)) (acc ++ [x])

theorem inlineResult_single (d : Desc) (l : List (Nat × List Byte)) :
    inlineResult d [] (l.map fun x => [x]) = (l.map fun x => x.2).flatten := by
  have joined : ∀ acc : List Byte, l.foldl (fun bs p => bs ++ (([] : List Byte).drop bs.length).take (p.1 - d.dstp - bs.length) ++ p.2) acc =
      acc ++ (l.map fun x => x.2).flatten := by
    induction l with
    | nil => simp
    | cons x xs ih => intro acc; rw [List.foldl_cons, ih]; simp
  unfold inlineResult
  rw [show (l.map fun x => [x]).flatten = l by induction l <;> simp_all]
  exact joined []

theorem inlineResult_gathered (c : Cmd) (d : Desc) (f : Fmt) :
    inlineResult d [] (gatheredUnits c d f) = (c.pos.map (gatheredRow c f)).flatten := by
  have single : gatheredUnits c d f =
      (c.pos.zipIdx.map fun p => (d.dstp + (d.resume + p.2) * f.size, gatheredRow c f p.1)).map fun x => [x] := by
    simp [gatheredUnits]
  have rows : (c.pos.zipIdx.map fun p => gatheredRow c f p.1) = c.pos.map (gatheredRow c f) := by
    rw [show (fun p : Pos × Nat => gatheredRow c f p.1) = gatheredRow c f ∘ Prod.fst from rfl, ← List.map_map, List.zipIdx_map_fst]
  rw [single, inlineResult_single, List.map_map, ← rows]
  rfl

section
variable {c : Cmd} (s : State) (d : Desc) (v : Version)

theorem State.rowResult_gathered (f : Fmt) {p : Pos} (hp : p ∈ c.pos) (all : AllGathered c) :
    s.rowResult c f v p.idx = (gatheredRow c f p, false, none) := by
  obtain ⟨live, g, got, sound⟩ := all p hp
  simp [State.rowResult, live, got, sound, gatheredRow]

/-- What ROWS_READ returns for each of its positions. -/
def gatheredResults (c : Cmd) (f : Fmt) : List (Nat × List Byte × Bool × Option (Nat × Nat)) :=
  c.pos.map fun p => (p.idx, gatheredRow c f p, false, none)

theorem gatheredResults_plain {f : Fmt} (all : AllGathered c) :
    ∀ x ∈ gatheredResults c f, x.1 ≠ padIndex ∧ x.2.2.1 = false ∧ x.2.2.2 = none := by
  intro x hx
  obtain ⟨p, hp, rfl⟩ := List.mem_map.1 hx
  exact ⟨(all p hp).1, rfl, rfl⟩

theorem gatheredResults_units (f : Fmt) :
    ((gatheredResults c f).zipIdx.map fun x => [(d.dstp + (d.resume + x.2) * f.size, x.1.2.1)]) = gatheredUnits c d f := by
  simp [gatheredResults, gatheredUnits, List.zipIdx_map, Function.comp_def]

theorem gatheredResults_count {f : Fmt} (all : AllGathered c) :
    (((gatheredResults c f).take (gatheredResults c f).length).filter fun x => x.1 != padIndex).length = c.pos.length := by
  rw [List.take_length, List.filter_eq_self.2 fun x hx => by simpa using (gatheredResults_plain all x hx).1]
  simp [gatheredResults]

theorem any_got_of_allGathered (all : AllGathered c) {p : Pos} (hp : p ∈ c.pos) : c.got.any (fun g => g.2.1 == p.idx) = true := by
  obtain ⟨_, g, got, _⟩ := all p hp
  have row : (g.2.1 == p.idx) = true := List.find?_some (p := fun g : Nat × Nat × List Byte × Bool => g.2.1 == p.idx) got
  exact List.any_eq_true.2 ⟨g, List.mem_of_find?_eq_some got, row⟩

theorem takeWhile_of_forall {α : Type} {p : α → Bool} {l : List α} (all : ∀ x ∈ l, p x = true) : l.takeWhile p = l := by
  induction l with
  | nil => rfl
  | cons x xs ih =>
    rw [List.takeWhile_cons_of_pos (all x List.mem_cons_self), ih fun y hy => all y (List.mem_cons_of_mem x hy)]

/-- A row that is gathered hides whatever its entry says now. -/
theorem State.takeWhile_gathered (all : AllGathered c) :
    (c.pos.takeWhile fun p => c.got.any (fun g => g.2.1 == p.idx) || s.rowAt v p.idx != .corrupt) = c.pos := by
  refine takeWhile_of_forall fun p hp => ?_
  rw [any_got_of_allGathered all hp, Bool.true_or]

/-- What a ROWS_READ that has met nothing reports: its rows, OK, and whether an entry now names the default row. -/
def State.gatheredReport (s : State) (c : Cmd) (v : Version) (x : Cmd) : Cmd :=
  { x with
    rows := c.pos.length, status := sOk
    flags := if (gatheredResults c (s.fmtAt v.fmt)).any (fun x => x.1 != padIndex && s.rowAt v x.1 == .unmapped) then fDefault else 0 }

/-- ROWS_READ with all its rows at hand meets no event: it returns them, inline or through its writes (03 R134). -/
theorem State.rowsReadEnd_gathered (fine : c.endStatus = sOk) (all : AllGathered c) :
    (c.inl = true → d.resume = 0 → s.rowsReadEnd c d v = s.endCmd c.handle sOk fun x =>
      { s.gatheredReport c v x with result := (c.pos.map (gatheredRow c (s.fmtAt v.fmt))).flatten }) ∧
    (c.inl = false → ∀ u, s.writeUnits c d.resume (gatheredUnits c d (s.fmtAt v.fmt)) (.ringWrite c.ring) 1 = (u, .done) →
      s.rowsReadEnd c d v = u.endCmd c.handle sOk (s.gatheredReport c v)) := by
  have results : (c.pos.map fun p => (p.idx, s.rowResult c (s.fmtAt v.fmt) v p.idx)) = gatheredResults c (s.fmtAt v.fmt) :=
    List.map_congr_left fun p hp => by rw [s.rowResult_gathered v _ hp all]
  have plain := gatheredResults_plain (f := s.fmtAt v.fmt) all
  have noEvent : (gatheredResults c (s.fmtAt v.fmt)).filterMap (fun x => x.2.2.2) = [] :=
    List.filterMap_eq_nil_iff.2 fun x hx => (plain x hx).2.2
  have sound : ∀ x ∈ gatheredResults c (s.fmtAt v.fmt), x.2.2.2.any (fun e => hardEvent d.degr e.1) = false :=
    fun x hx => by rw [(plain x hx).2.2]; rfl
  have whole : (gatheredResults c (s.fmtAt v.fmt)).any (fun x => x.2.2.1) = false :=
    List.any_eq_false.2 fun x hx => by simp [(plain x hx).2.1]
  unfold State.rowsReadEnd
  simp only [s.takeWhile_gathered v all, Nat.lt_irrefl, if_false, results, fine, if_true, noEvent, decideEvents, List.filter_nil,
    List.append_nil, foldl_keep s _ sound [], List.nil_append, whole, Bool.and_false, ne_eq, not_true_eq_false, Bool.false_eq_true,
    gatheredResults_count all, gatheredResults_units d, Nat.add_zero]
  refine ⟨fun inl first => ?_, fun out u done => ?_⟩
  · rw [if_pos inl, if_pos first]
    simp only [inlineResult_gathered]
    rfl
  · rw [if_neg (by simp [out]), done]
    rfl

end

section
variable {h : Handle} {c : Cmd} {r : TableRec} {v : Version} {s : State}

/-- The default row as ROWS_READ returns it (03 R133). -/
def State.defaultBytes (s : State) (r : TableRec) (f : Fmt) : List Byte := ((s.defaultRow r f).map fun x => leBytes 4 x.toNat).flatten

theorem State.readDefault_inline (s : State) (d : Desc) (f : Fmt) (inl : c.inl = true) :
    s.readDefault c d r f = s.endCmd c.handle sOk fun x => { x with result := s.defaultBytes r f, rows := 1 } := by
  unfold State.readDefault
  rw [if_pos inl]
  rfl

theorem State.readDefault_written {s u : State} {d : Desc} {f : Fmt} (out : c.inl = false)
    (written : s.writeUnits c 0 [[(d.dstp, s.defaultBytes r f)]] (.ringWrite c.ring) 1 = (u, .done)) :
    s.readDefault c d r f = u.endCmd c.handle sOk fun x => { x with rows := 1 } := by
  unfold State.defaultBytes at written
  unfold State.readDefault
  simp only [out, written, Bool.false_eq_true, if_false]

theorem State.writeUnits_cmds (s : State) (c : Cmd) (first : Nat) (units : List OutUnit) (kind : XKind) (lane : Nat) :
    (s.writeUnits c first units kind lane).1.cmds = s.cmds :=
  (inv_writeUnits (only_closed s (m := 0xCE06) (ps := [.regs, .mem, .poison, .cache, .fab, .tu, .sec, .spine]) (by decide))
    (onlyParts_refl _ s)).cmds.resolve_left (by decide)

theorem exec_rowsRead (ready : Ready (· == oRowsRead) h c s) (alive : s.ctl.life = .alive) (t : Nat) :
    exec (.rowsRead h t) s = .next ((s.advance t).runRowsRead h.toNat) :=
  congrArg _ (ready_runs ready alive t State.runRowsRead)

/-- ROWS_READ of the default row. -/
theorem State.runRowsRead_default (ready : Ready (· == oRowsRead) h c s) (t : Nat) (record : s.rec? (Desc.of c.desc).tbl = some r)
    (version : s.ver? (Desc.of c.desc).tbl c.ver = some v) (dflt : (Desc.of c.desc).target = 1) :
    (s.advance t).runRowsRead h.toNat = (s.advance t).readDefault c (Desc.of c.desc) r ((s.advance t).fmtAt v.fmt) := by
  have found : (s.advance t).cmd? h.toNat = some c := ready.found
  have record : (s.advance t).rec? (Desc.of c.desc).tbl = some r := record
  have version : (s.advance t).ver? (Desc.of c.desc).tbl c.ver = some v := version
  unfold State.runRowsRead
  simp only [found, ready_begins ready t, record, version, dflt, if_true]

/-- ROWS_READ whose rows are all at hand asks nobody again. -/
theorem State.runRowsRead_gathered (ready : Ready (· == oRowsRead) h c s) (t : Nat) (record : s.rec? (Desc.of c.desc).tbl = some r)
    (version : s.ver? (Desc.of c.desc).tbl c.ver = some v) (rows : (Desc.of c.desc).target ≠ 1) (stage : c.stage = 1)
    (asked : s.asking h.toNat = false) (all : AllGathered c) :
    (s.advance t).runRowsRead h.toNat = (s.advance t).rowsReadEnd c (Desc.of c.desc) v := by
  have found : (s.advance t).cmd? h.toNat = some c := ready.found
  have record : (s.advance t).rec? (Desc.of c.desc).tbl = some r := record
  have version : (s.advance t).ver? (Desc.of c.desc).tbl c.ver = some v := version
  have asked : (s.advance t).asking h.toNat = false := asked
  have never : ∀ q : Pos → Bool, (c.pos.any fun p => !(c.got.any fun g => g.2.1 == p.idx) && q p) = false := fun q =>
    List.any_eq_false.2 fun p hp => by simp [any_got_of_allGathered all hp]
  unfold State.runRowsRead
  simp only [found, ready_begins ready t, record, version, rows, if_false, stage, never, Bool.false_eq_true, ite_self, asked,
    ready.unfinished, ne_eq, not_false_eq_true, Bool.not_false, and_self, if_true, Nat.one_ne_zero]

end

/-- Settles O21: ROWS_WRITE ends by `rowsWriteEnd_written`, ROWS_READ by `readDefault` or `rowsReadEnd_gathered`; every end is `endCmd`. -/
theorem rowCommandsEnd : Obligations.RowCommandsEnd := by
  unfold Obligations.RowCommandsEnd
  refine ⟨fun h t c r v s alive ready record version stage rows asked waits fine calm written => ?_,
    fun h t c r v s alive ready record version stage special asked waits => ?_, fun h t c r v s alive ready => ?_⟩
  · have step := exec_rowsWrite ready alive t
    rw [State.runRowsWrite_last ready t record version stage asked waits fun _ => written, if_pos rows,
      State.rowsWriteEnd_written _ c fine calm written, ready_handle ready] at step
    exact ⟨_, step, State.endCmd_advance ready.found t sOk fun _ => rfl⟩
  · have step := exec_rowsWrite ready alive t
    rw [State.runRowsWrite_last ready t record version stage asked waits fun rows => absurd rows special, if_neg special] at step
    exact ⟨_, step, State.endCmd_advance ready.found t sOk fun _ => rfl⟩
  · intro d f dflt row atHand record version
    have step := exec_rowsRead ready alive t
    have same := ready_handle ready
    refine ⟨fun target inl => ?_, fun s1 target out written => ?_, fun ⟨rows, stage, asked, fine, all⟩ inl first => ?_,
      fun s1 ⟨rows, stage, asked, fine, all⟩ out written => ?_⟩
    · rw [State.runRowsRead_default ready t record version target, State.readDefault_inline _ _ _ inl, same] at step
      exact ⟨_, step, State.endCmd_advance ready.found t sOk fun _ => rfl⟩
    · rw [State.runRowsRead_default ready t record version target, 
        State.readDefault_written (d := d) (f := (s.advance t).fmtAt v.fmt) out written, same] at step
      exact ⟨_, step, s1.cmd?_endCmd h.toNat sOk fun _ => rfl, s1.onlyCmd_endCmd h sOk fun _ => rfl, s1.endCmd_parts h.toNat sOk _⟩
    · rw [State.runRowsRead_gathered ready t record version rows stage asked all, ((s.advance t).rowsReadEnd_gathered d v fine all).1 inl first,
        same] at step
      obtain ⟨clock, ended, others, parts⟩ := State.endCmd_advance (s := s) ready.found t sOk
        (f := fun x => { (s.advance t).gatheredReport c v x with result := (c.pos.map (gatheredRow c f)).flatten }) fun _ => rfl
      exact ⟨_, _, step, clock, ended, rfl, rfl, rfl, rfl, others, parts⟩
    · rw [State.runRowsRead_gathered ready t record version rows stage asked all,
        ((s.advance t).rowsReadEnd_gathered d v fine all).2 out s1 written, same] at step
      have kept : s1.cmd? h.toNat = some c := by
        rw [State.cmd?_of_cmds ((congrArg (fun w => w.1.cmds) written).symm.trans (State.writeUnits_cmds ..))]
        exact ready.found
      refine ⟨_, { (s.advance t).gatheredReport c v c with status := sOk, phase := .done }, c, step, ?_, kept, rfl, rfl, rfl, s1.onlyCmd_endCmd h sOk fun _ => rfl, s1.endCmd_parts h.toNat sOk _⟩
      exact (s1.cmd?_endCmd h.toNat sOk (f := (s.advance t).gatheredReport c v) fun _ => rfl).trans (congrArg _ kept)

end Sys2Proof.Machine
end

section
/-! PROOFS. A message that leaves keeps the exchanges under way; a request that awaits its reply adds its own. -/

namespace Sys2Proof.Machine

theorem State.upFlow_xchg (s : State) (p l : Nat) (g : Flow → Flow) : (s.upFlow p l g).fab.xchg = s.fab.xchg := rfl

theorem State.setFlows_xchg (s : State) (fs : List Flow) : (s.setFlows fs).fab.xchg = s.fab.xchg := rfl

theorem State.emit_xchg (s : State) (port dst lane : Nat) (hdr payload : List Byte) :
    (s.emit port dst lane hdr payload).fab.xchg = s.fab.xchg := by
  unfold State.emit
  split
  · rfl
  · rw [State.bump_fab]
    unfold State.usePn
    split <;> rfl

theorem State.sendFrame_xchg (s : State) (f : Flow) (typ flags psn : Nat) (payload : List Byte) :
    (s.sendFrame f typ flags psn payload).fab.xchg = s.fab.xchg := by
  unfold State.sendFrame
  split
  · rfl
  · split
    · rfl
    · exact State.emit_xchg ..

theorem State.pumpFuel_xchg (p l : Nat) (flush : Bool) (fuel : Nat) (s : State) : (s.pumpFuel p l flush fuel).fab.xchg = s.fab.xchg := by
  induction fuel generalizing s with
  | zero => rfl
  | succ fuel ih =>
    have sent (u : State) (f : Flow) (flags psn : Nat) (bytes : List Byte) (g : Flow → Flow) :
        ((((u.sendFrame f 1 flags psn bytes).upFlow p l g)).pumpFuel p l flush fuel).fab.xchg = u.fab.xchg := by
      rw [ih, State.upFlow_xchg, State.sendFrame_xchg]
    unfold State.pumpFuel
    split
    · rfl
    · split
      · rfl
      · split
        · rfl
        · dsimp only
          split
          · rfl
          · split
            · rfl
            · exact sent ..

theorem State.roomForFlow_xchg {s u : State} (room : s.roomForFlow = some u) : u.fab.xchg = s.fab.xchg := by
  unfold State.roomForFlow at room
  split at room
  · cases room; rfl
  · split at room
    · cases room
    · cases room; rfl

theorem State.openFlow_xchg (s : State) (p l : Nat) : (s.openFlow p l).fab.xchg = s.fab.xchg := State.sendFrame_xchg ..

theorem State.post_xchg (s : State) (p l : Nat) (bytes : List Byte) : (s.post p l bytes).fab.xchg = s.fab.xchg := by
  unfold State.post
  split
  · unfold State.pump
    dsimp only
    split
    · rfl
    · exact State.pumpFuel_xchg ..
  · split
    · rfl
    · next room => rw [State.upFlow_xchg, State.openFlow_xchg, State.roomForFlow_xchg room]

theorem State.send_xchg (s : State) (p l : Nat) (bytes : List Byte) : (s.send p l bytes).fab.xchg = s.fab.xchg := by
  unfold State.send
  split
  · rfl
  · split
    · rw [State.bump_fab]; rfl
    · exact s.post_xchg p l bytes

/-- A Table Keeper request that is sent and awaited. -/
def tkExchange (s : State) (dst handle : Nat) (kind : XKind) (b : TkBody) : Xchg :=
  { xid := s.fab.xid % 2 ^ 32, dst := dst, kind := kind, handle := handle, lane := (tkCode b).2
    msg := mkMsg (tkCode b).1 0 handle (s.fab.xid % 2 ^ 32) (Config.tkEncode s.registryList b) }

theorem State.askTk_xchg (s : State) (dst handle : Nat) (kind : XKind) (b : TkBody) :
    (s.askTk dst handle kind b).fab.xchg = s.fab.xchg ++ [tkExchange s dst handle kind b] := by
  unfold State.askTk State.request
  rw [State.send_xchg]
  rfl

theorem State.askTk_parts (s : State) (dst handle : Nat) (kind : XKind) (b : TkBody) :
    OnlyParts [.regs, .fab, .sec] s (s.askTk dst handle kind b) :=
  inv_askTk (only_closed s (by decide)) (onlyParts_refl _ s)

theorem State.askTk_cmds (s : State) (dst handle : Nat) (kind : XKind) (b : TkBody) : (s.askTk dst handle kind b).cmds = s.cmds :=
  (s.askTk_parts dst handle kind b).cmds.resolve_left (by decide)

end Sys2Proof.Machine
end

section
/-! PROOFS. The home block's part of the five table commands: with another block as coordinator the command waits for its request. -/

namespace Sys2Proof.Machine

/-- A table command that has reached its coordinator waits (12 R449). -/
def State.tableWaits (s : State) (c : Cmd) (d : Desc) : State :=
  s.upCmd c.handle fun x => { x with stage := 1, phase := .waiting, limit := if d.opc = oMigrate then s.groupsAt c d else x.limit }

theorem State.cmd?_tableWaits {s : State} {c : Cmd} (found : s.cmd? c.handle = some c) (d : Desc) :
    (s.tableWaits c d).cmd? c.handle =
      some { c with stage := 1, phase := .waiting, limit := if d.opc = oMigrate then s.groupsAt c d else c.limit } := by
  unfold State.tableWaits
  rw [State.cmd?_upCmd, found]
  · rfl
  · exact fun _ => rfl

theorem State.onlyCmd_tableWaits (s : State) {h : Handle} {c : Cmd} (named : c.handle = h.toNat) (d : Desc) :
    OnlyCmd h s (s.tableWaits c d) := by
  unfold State.tableWaits
  rw [named]
  exact s.onlyCmd_upCmd h fun _ => rfl

/-- What the home block finds for a TABLE_CREATE without recipe parameters (02 R49, 03 R145). -/
def State.homeFinding (s : State) (c : Cmd) (d : Desc) : Nat :=
  if bits d.fmt 0 4 = 8 ∧ (s.ring c.ring).minor < 2 then sBadFormat else if s.noSlot d.fmt then sBadTable else sOk

/-- Only TABLE_CREATE sends its arguments. -/
theorem tableAsk_of_ne_create {d : Desc} (other : d.opc ≠ oCreate) (ver : Nat) (a a' : CreateArgs) : tableAsk d ver a = tableAsk d ver a' := by
  simp [tableAsk, other]

section
variable {b : Nat} {c : Cmd} {d : Desc} {s : State}

theorem State.askCoordinator_away (home : s.coordinator d.tbl = some b) (away : b ≠ s.id) (route : s.noRoute b = false) (a : CreateArgs) :
    s.askCoordinator c d a = (s.tableWaits c d).askTk b c.handle .ask (tableAsk d c.ver a) := by
  have home : (s.tableWaits c d).coordinator d.tbl = some b := home
  have away : b ≠ (s.tableWaits c d).id := away
  have route : (s.tableWaits c d).noRoute b = false := route
  unfold State.askCoordinator
  rw [show s.upCmd c.handle _ = s.tableWaits c d from rfl]
  simp only [home, away, route, if_false, Bool.false_eq_true]

theorem State.createRecipe_none (none : d.recipe = 0) :
    s.createRecipe c d =
      s.askCoordinator c d (createArgs d c.ctx [] (decide (s.tab.recs.length ≥ 16384)) (s.homeFinding c d)) := by
  unfold State.createRecipe State.homeFinding
  by_cases old : bits d.fmt 0 4 = 8 ∧ (s.ring c.ring).minor < 2
  · simp only [if_pos old]
    rfl
  · simp only [if_neg old, none, true_or, if_true, true_and]

end

section
variable {p : Nat → Bool} {h : Handle} {c : Cmd} {s : State}

/-- The first step of a table command asks its coordinator (12 R449). -/
theorem State.runTable_first (ready : Ready p h c s) (t : Nat) (first : c.stage = 0) :
    (s.advance t).runTable h.toNat = if (Desc.of c.desc).opc = oCreate then (s.advance t).createRecipe c (Desc.of c.desc)
      else (s.advance t).askCoordinator c (Desc.of c.desc) (createArgs (Desc.of c.desc) c.ctx [] false sOk) := by
  have found : (s.advance t).cmd? h.toNat = some c := ready.found
  unfold State.runTable
  simp only [found, ready_begins ready t, first, ne_eq, not_true_eq_false, if_false]

/-- With another block as coordinator, the step is the request to it. -/
theorem State.runTable_away {b : Nat} (ready : Ready p h c s) (t : Nat) (first : c.stage = 0)
    (plain : (Desc.of c.desc).opc = oCreate → (Desc.of c.desc).recipe = 0) (home : s.coordinator (Desc.of c.desc).tbl = some b)
    (away : b ≠ s.id) (route : s.noRoute b = false) :
    (s.advance t).runTable h.toNat = ((s.advance t).tableWaits c (Desc.of c.desc)).askTk b h.toNat .ask
      (tableAsk (Desc.of c.desc) c.ver (createArgs (Desc.of c.desc) c.ctx [] (decide (s.tab.recs.length ≥ 16384))
        (s.homeFinding c (Desc.of c.desc)))) := by
  have asks (a : CreateArgs) := State.askCoordinator_away (s := s.advance t) (c := c) home away route a
  rw [State.runTable_first ready t first, ← ready_handle ready]
  by_cases create : (Desc.of c.desc).opc = oCreate
  · rw [if_pos create, State.createRecipe_none (plain create), asks]
    rfl
  · rw [if_neg create, asks, tableAsk_of_ne_create create]

end

/-- Settles O20: each of the five commands runs `runTable`, which sends the request by `runTable_away`. -/
theorem tableCommandAsksCoordinator : Obligations.TableCommandAsksCoordinator := by
  unfold Obligations.TableCommandAsksCoordinator
  intro i h t c b s alive which d first home away route finding body
  obtain ⟨p, ready, step, plain⟩ : ∃ p, Ready p h c s ∧ exec i s = .next ((s.advance t).runTable h.toNat) ∧ (d.opc = oCreate → d.recipe = 0) := by
    have other {o : Nat} (ready : Ready (· == o) h c s) (ne : o ≠ oCreate) : d.opc = oCreate → d.recipe = 0 := fun create =>
      absurd ((eq_of_beq ready.opcode).symm.trans create) ne
    rcases which with ⟨rfl, ready, none⟩ | ⟨rfl, ready⟩ | ⟨rfl, ready⟩ | ⟨rfl, ready⟩ | ⟨rfl, ready⟩
    · exact ⟨_, ready, congrArg _ (ready_runs ready alive t State.runTable), fun _ => none⟩
    all_goals exact ⟨_, ready, congrArg _ (ready_runs ready alive t State.runTable), other ready (by decide)⟩
  rw [State.runTable_away ready t first plain home away route] at step
  have asked := ((s.advance t).tableWaits c d).askTk_parts b h.toNat .ask body
  have cmds := ((s.advance t).tableWaits c d).askTk_cmds b h.toNat .ask body
  refine ⟨_, step, asked.ctl.resolve_left (by decide), ?_, State.askTk_xchg .., ?_, ?_⟩
  · refine (State.cmd?_of_cmds cmds _).trans ?_
    have found : (s.advance t).cmd? c.handle = some c := by rw [ready_handle ready]; exact ready.found
    rw [← ready_handle ready]
    exact State.cmd?_tableWaits found d
  · intro k hk
    exact (State.cmd?_of_cmds cmds k).trans ((s.advance t).onlyCmd_tableWaits (ready_handle ready) d k hk)
  · have waits : OnlyParts [.cmds] (s.advance t) ((s.advance t).tableWaits c d) :=
      inv_upCmd (only_closed _ (by decide)) (onlyParts_refl _ _)
    exact onlyParts_trans (onlyParts_mono (s.advance_parts t) (by decide))
      (onlyParts_trans (onlyParts_mono waits (by decide)) (onlyParts_mono asked (by decide)))

end Sys2Proof.Machine
end

section
/-! PROOFS. A version whose copy changes the registry: the transfers of a group are counted in the register that its tier names. -/

namespace Sys2Proof.Machine

/-- Table 3 of block 1: version 1 is current, and one of its groups names no tier. -/
def strayTables : Tables :=
  { Tables.zero with
    recs := [{ loc := none, tbl := 3, curVer := 1, pubVer := 0, rows := 4096, ctx := 0, flags := 0, recipe := 0, defrow := 0, rcpp := 0, owners := [1]
               otier := 0, dying := false, used := 0 }]
    vers := [{ tbl := 3, ver := 1, st := .current, pmap := 0, fmt := 0 }]
    groups := [{ tbl := 3, ver := 1, g := 0, res := 0, base := 0, tier := 756, secondary := false, leaving := false, moving := none, step := none
                 load := 0 },
               { tbl := 3, ver := 2, g := 0, res := 0, base := 0, tier := 0, secondary := false, leaving := false, moving := none, step := none
                 load := 0 }] }

/-- VERSION_PUBLISH of table 3 with INIT 0, accepted on ring 0 with handle 1 and bound to version 1. -/
def strayPublish : Cmd :=
  { handle := 1, ring := 0, desc := [BitVec.ofNat 8 oPublish] ++ zeros 7 ++ [3] ++ zeros 119, ref := 0, bound := 1000000, fin := 0, cls := 1, cqStart := 0
    cqCount := 1, cqFive := false, ver := 1, pver := 0, ctx := 0, noPub := true, order := [0], kcmd := 0, work := [], tiers := [], jrsv := 0
    phase := .accepted, status := 0, flags := 0, rows := 0, residx := 0, failblk := 0xFFFF, faultaddr := 0, result := [], inl := false
    fetched := [], pos := [], pieces := [], owners := [], parts := [], got := [], adds := [], handedOff := false, events := [], next := 0
    stage := 0, offs := [], limit := 0, endStatus := 0, ppos := [], pevents := [], mapByte := 0, expired := false, unsent := [], checked := true }

/-- The registers of the block: it is block 1, valid, alone in the registry; the entry 0 of the registry, without its valid bit, is 0x7C00,
and maintenance copies are counted as part 8 (TK_PART), so that the transfers of tier 756 fall on that entry (`MT_BW 756 8 = TK_REGISTRY 0`). -/
def strayRegs : State :=
  [(CC_BLOCK_ID, 1 + 2 ^ 15), (TK_FMT 0, 0x30), (TK_REGISTRY 0, 0x7C00), (TK_REGISTRY 1, 1 + 2 ^ 15), (MT_CFG, 2 ^ 34)].foldl
    (fun s x => s.setReg x.1 x.2) (State.reset.upCtl fun c => { c with life := .alive, pmSafe := false })

/-- The block with its table and the command. -/
def strayTier : State := { strayRegs with tab := strayTables, cmds := [strayPublish] }

theorem strayTier_registryList : strayTier.registryList = [strayTier.id] := by decide

theorem ready_strayPublish : Ready (· == oPublish) 1 strayPublish strayTier where
  found := rfl
  opcode := by decide
  unfinished := by decide
  turn := fun _ => by decide
  checked := rfl

theorem strayTier_rec : ∃ r, strayTier.rec? (Desc.of strayPublish.desc).tbl = some r ∧ r.pubVer = 0 ∧ r.curVer = 1 :=
  ⟨_, rfl, rfl, rfl⟩

theorem strayTier_others : strayTier.others (Desc.of strayPublish.desc).tbl = [] := by decide

theorem strayTier_publishFmt : strayTier.publishFmt (Desc.of strayPublish.desc).tbl (Desc.of strayPublish.desc).fmt = true := by decide

theorem strayTier_publishReserve : (strayTier.publishReserve (Desc.of strayPublish.desc).tbl (nextVer 1)).isSome = true := by decide

/-- The copy's 1024 transfers make the entry valid, so block 0 is of the registry and the operation waits for its answer. -/
theorem runTable_strayTier_ops : ((strayTier.advance 0).runTable 1).tab.ops ≠ [] := by decide

theorem exec_versionPublish_ready {h : Handle} {c : Cmd} {s : State} (ready : Ready (· == oPublish) h c s) (alive : s.ctl.life = .alive)
    (t : Nat) : exec (.versionPublish h t) s = .next ((s.advance t).runTable h.toNat) :=
  congrArg _ (ready_runs ready alive t State.runTable)

/-- Refutes O60: VERSION_PUBLISH does not end at once when the copy itself changes the registry. A group whose TIER is 756, which
the statement does not exclude, has its transfers counted in an entry of the registry; another block is then listed, and the command waits
for that block. -/
theorem not_ringCommandsRunToTheirEnd : ¬ Obligations.RingCommandsRunToTheirEnd := by
  unfold Obligations.RingCommandsRunToTheirEnd
  rintro ⟨-, -, tables⟩
  obtain ⟨-, -, publish, -, -⟩ := tables 1 0 strayPublish strayTier rfl (by decide) strayTier_registryList rfl rfl rfl
  obtain ⟨r, found, unpublished, current⟩ := strayTier_rec
  obtain ⟨u, -, step, ⟨-, -, idle, -⟩, -⟩ := publish r ready_strayPublish found strayTier_others unpublished (by rw [current]; decide)
    strayTier_publishFmt (by rw [current]; exact strayTier_publishReserve)
  have reached : (strayTier.advance 0).runTable 1 = u := Host.Outcome.next.inj ((exec_versionPublish_ready ready_strayPublish rfl 0).symm.trans step)
  exact runTable_strayTier_ops (reached ▸ idle)

end Sys2Proof.Machine
end

section
/-! PROOFS. Backward commands that are acknowledged, and COMMIT_STEP without ordered adds or confirmed by every owner: both end. -/

namespace Sys2Proof.Machine

-- The stages of a backward command

section
variable {p : Nat → Bool} {h : Handle} {c : Cmd} {s : State}

/-- A handed-off command that nothing holds back is at its end (06 R252). -/
theorem State.runScatter_acknowledged (ready : Ready p h c s) (t : Nat) (handedOff : c.stage = 4)
    (table : (s.rec? (Desc.of c.desc).tbl).isSome = true) (acked : s.unacked h.toNat = []) (settled : s.ownWaits h.toNat = false) :
    (s.advance t).runScatter h.toNat = (s.advance t).finishScatter c (Desc.of c.desc) := by
  have found : (s.advance t).cmd? h.toNat = some c := ready.found
  obtain ⟨r, table⟩ := Option.isSome_iff_exists.1 table
  have table : (s.advance t).rec? (Desc.of c.desc).tbl = some r := table
  have acked : (s.advance t).unacked h.toNat = [] := acked
  have settled : (s.advance t).ownWaits h.toNat = false := settled
  have early (n : Nat) (ne : n ≠ 4) : (some c).filter (fun c => c.phase != .done && c.stage == n) = none := by
    rw [Option.filter_some, if_neg (by simp [handedOff, ne.symm])]
  have last : (some c).filter (fun c => c.phase != .done && c.stage == 4) = some c := by
    rw [Option.filter_some, if_pos (by simp [handedOff, ready.unfinished])]
  unfold State.runScatter
  simp only [found, ready_begins ready t, early 0 (by decide), early 1 (by decide), early 2 (by decide), early 3 (by decide), last, table,
    acked, settled, Bool.not_true, Bool.not_false, Bool.false_eq_true, List.isEmpty_nil, Bool.and_self, if_false, if_true]

end

/-- The status of a backward command whose adds are acknowledged, every one: the first event in the order of R252. -/
def Cmd.acknowledgedStatus (c : Cmd) (degrade : Bool) : Nat :=
  if c.events.any (fun e => e.1 == 10) then sDenied
  else if c.events.any (fun e => e.1 == 11) then (if degrade then sDegraded else sUncorr)
  else if bit c.flags 4 then sDegraded else sOk

theorem afterHandOff_acknowledged (c : Cmd) (degrade : Bool) :
    afterHandOff degrade (bit c.flags 4) [] c.events = (c.acknowledgedStatus degrade, 0xFFFF) := by
  unfold afterHandOff Cmd.acknowledgedStatus
  dsimp only
  split
  · rfl
  · split
    · cases degrade <;> rfl
    · split <;> rfl

/-- The end of such a command leaves its rows, and names no block. -/
theorem State.finishScatter_acknowledged {s : State} {c : Cmd} (acked : s.unacked c.handle = []) (d : Desc) :
    ∃ f : Cmd → Cmd, (∀ x, (f x).handle = x.handle) ∧ (∀ x, (f x).failblk = 0xFFFF ∧ (f x).rows = x.rows) ∧
      s.finishScatter c d = s.endCmd c.handle (c.acknowledgedStatus d.degr) f := by
  unfold State.finishScatter
  rw [acked, afterHandOff_acknowledged]
  refine ⟨_, fun _ => ?_, fun _ => ?_, rfl⟩
  · rfl
  · exact ⟨rfl, rfl⟩

-- The end of COMMIT_STEP

section
variable {p : Nat → Bool} {h : Handle} {c : Cmd} {r : TableRec} {s : State}

/-- COMMIT_STEP ends at once on a table without ordered adds, and when every owner has confirmed (06 R240). -/
theorem State.runCommit_ends (ready : Ready p h c s) (t : Nat) (table : s.rec? (Desc.of c.desc).tbl = some r)
    (done : (c.stage = 0 ∧ r.ordered = false) ∨ (c.stage = 1 ∧ c.owners = [])) :
    (s.advance t).runCommit h.toNat = (s.advance t).endWith h.toNat sOk := by
  have found : (s.advance t).cmd? h.toNat = some c := ready.found
  have table : (s.advance t).rec? (Desc.of c.desc).tbl = some r := table
  unfold State.runCommit
  simp only [found, ready_begins ready t, table]
  rcases done with ⟨first, unordered⟩ | ⟨asked, confirmed⟩
  · have started : (s.advance t).commitStart c (Desc.of c.desc) r = (s.advance t).endWith h.toNat sOk := by
      unfold State.commitStart
      rw [unordered, ready_handle ready]
      rfl
    have ended : ((s.advance t).endWith h.toNat sOk).cmd? h.toNat = some { c with status := sOk, phase := .done } :=
      (State.endCmd_advance ready.found t sOk fun _ => rfl).2.1
    rw [if_pos first, started]
    simp only [ended, ne_eq, not_true_eq_false, false_and, if_false]
  · rw [if_neg (by omega)]
    simp only [found, asked, confirmed, ready.unfinished, ne_eq, not_false_eq_true, List.isEmpty_nil, and_self, if_true]

end

/-- Settles O19: a backward command ends by `runScatter_acknowledged`, COMMIT_STEP by `runCommit_ends`; every end is `endCmd`. -/
theorem backwardAndCommitEnd : Obligations.BackwardAndCommitEnd := by
  unfold Obligations.BackwardAndCommitEnd
  constructor
  · intro i h t c s alive which d handedOff table acked settled denied lost
    obtain ⟨p, ready, step⟩ : ∃ p, Ready p h c s ∧ exec i s = .next ((s.advance t).runScatter h.toNat) := by
      rcases which with ⟨rfl, ready⟩ | ⟨rfl, ready⟩ <;> exact ⟨_, ready, congrArg _ (ready_runs ready alive t State.runScatter)⟩
    obtain ⟨f, handle, fields, finish⟩ := State.finishScatter_acknowledged (s := s.advance t) (c := c) ((ready_handle ready).symm ▸ acked) d
    obtain ⟨clock, ended, others, parts⟩ := State.endCmd_advance ready.found t (c.acknowledgedStatus d.degr) handle
    rw [State.runScatter_acknowledged ready t handedOff table acked settled, finish, ready_handle ready] at step
    exact ⟨_, _, step, clock, ended, rfl, (fields c).1, (fields c).2, rfl, others, parts⟩
  · intro h t c r s alive ready table done
    obtain ⟨clock, ended, others, parts⟩ := State.endCmd_advance ready.found t sOk (f := fun c => c) fun _ => rfl
    have step : exec (.commitStep h t) s = .next ((s.advance t).runCommit h.toNat) := congrArg _ (ready_runs ready alive t State.runCommit)
    rw [State.runCommit_ends ready t table done] at step
    exact ⟨_, step, clock, ended, others, parts⟩

end Sys2Proof.Machine
end

section
/-! PROOFS. Operations that leave the fabric alone keep its flows, its exchanges and its inbox. -/

namespace Sys2Proof.Machine

/-- What keeps the fabric is closed under every change of another part. -/
theorem keepsFab (s : State) {m : Nat} (apart : Nat.land m 0x1FBFF = m) : Closed m (fun u => u.fab = s.fab) := by
  have all : Closed 0x1FBFF (fun u => u.fab = s.fab) := by
    constructor <;> intros <;> first | assumption | (exfalso; revert ‹Nat.land _ _ = _›; decide)
  exact all.mono apart

@[simp] theorem State.usePn_fab (s : State) (port : Nat) : (s.usePn port).fab = s.fab := inv_usePn (keepsFab s rfl) rfl
@[simp] theorem State.upRing_fab (s : State) (n : Nat) (f : Ring → Ring) : (s.upRing n f).fab = s.fab := inv_upRing (keepsFab s rfl) rfl
@[simp] theorem State.deny_fab (s : State) : (s.deny).fab = s.fab := inv_deny (keepsFab s rfl) rfl
@[simp] theorem State.mdFlush_fab (s : State) (g n : Nat) : (s.mdFlush g n).fab = s.fab := inv_mdFlush (keepsFab s rfl) rfl
@[simp] theorem State.putMeta_fab (s : State) (k : Nat) (bs : List Byte) : (s.putMeta k bs).fab = s.fab := inv_putMeta (keepsFab s rfl) rfl
@[simp] theorem State.putRecord_fab (s : State) (k : Nat) (bs : List Byte) : (s.putRecord k bs).fab = s.fab := inv_putRecord (keepsFab s rfl) rfl
@[simp] theorem State.hostRecord_fab (s : State) (ctx addr : Nat) (bs : List Byte) (ring : Option Nat) (handle : Nat) :
    (s.hostRecord ctx addr bs ring handle).fab = s.fab :=
  inv_hostRecord (keepsFab s rfl) rfl
@[simp] theorem State.setRingState_fab (s : State) (n st : Nat) : (s.setRingState n st).fab = s.fab := inv_setRingState (keepsFab s rfl) rfl
@[simp] theorem State.denyIf_fab (s : State) (st : Nat) : (s.denyIf st).fab = s.fab := inv_denyIf (keepsFab s rfl) rfl
@[simp] theorem State.hostRead_fab (s : State) (ctx addr len : Nat) (ring : Option Nat) (handle : Nat) :
    (s.hostRead ctx addr len ring handle).fab = s.fab :=
  inv_hostRead (keepsFab s rfl) rfl
@[simp] theorem State.hostCached_fab (s : State) (ctx off n : Nat) (ring : Option Nat) (handle : Nat) :
    (s.hostCached ctx off n ring handle).fab = s.fab :=
  inv_hostCached (keepsFab s rfl) rfl
@[simp] theorem State.mdRead_fab (s : State) (g n : Nat) : (s.mdRead g n).fab = s.fab := inv_mdRead (keepsFab s rfl) rfl
@[simp] theorem State.free_fab (s : State) (tier base : Nat) : (s.free tier base).fab = s.fab := inv_free (keepsFab s rfl) rfl
@[simp] theorem State.putData_fab (s : State) (k : Nat) (bs : List Byte) : (s.putData k bs).fab = s.fab := inv_putData (keepsFab s rfl) rfl
@[simp] theorem State.hostWrite_fab (s : State) (ctx addr : Nat) (bs : List Byte) (ring : Option Nat) (handle : Nat) :
    (s.hostWrite ctx addr bs ring handle).fab = s.fab :=
  inv_hostWrite (keepsFab s rfl) rfl
@[simp] theorem State.reach_fab (s : State) (global : Bool) (ctx a n : Nat) (write : Bool) : (s.reach global ctx a n write).1.fab = s.fab :=
  inv_reach (keepsFab s rfl) rfl
@[simp] theorem State.charge_fab (s : State) (tier part n : Nat) (write : Bool) : (s.charge tier part n write).fab = s.fab :=
  inv_charge (keepsFab s rfl) rfl
@[simp] theorem State.prefetch_fab (s : State) (ctx va stop_ : Nat) : (s.prefetch ctx va stop_).fab = s.fab := inv_prefetch (keepsFab s rfl) rfl
@[simp] theorem State.draw_fab (s : State) : (s.draw).2.fab = s.fab := inv_draw (keepsFab s rfl) rfl
@[simp] theorem State.readEntries_fab (s : State) (pmap part : Nat) (gs : List Nat) : (s.readEntries pmap part gs).1.fab = s.fab :=
  inv_readEntries (keepsFab s rfl) rfl
@[simp] theorem State.resolveRows_fab (s : State) (r : TableRec) (v : Version) (part : Nat) (l : List Nat) :
    (s.resolveRows r v part l).1.fab = s.fab :=
  inv_resolveRows (keepsFab s rfl) rfl
@[simp] theorem State.upGroup_fab (s : State) (t v g : Nat) (f : Group → Group) : (s.upGroup t v g f).fab = s.fab :=
  inv_upGroup (keepsFab s rfl) rfl
@[simp] theorem State.touch_fab (s : State) (t v g n : Nat) : (s.touch t v g n).fab = s.fab := inv_touch (keepsFab s rfl) rfl
@[simp] theorem State.flushRange_fab (s : State) (tier off n : Nat) : (s.flushRange tier off n).1.fab = s.fab := inv_flushRange (keepsFab s rfl) rfl
@[simp] theorem State.upRec_fab (s : State) (t : Nat) (f : TableRec → TableRec) : (s.upRec t f).fab = s.fab := inv_upRec (keepsFab s rfl) rfl
@[simp] theorem State.syncPool_fab (s : State) : (s.syncPool).fab = s.fab := inv_syncPool (keepsFab s rfl) rfl
@[simp] theorem State.freeSlots_fab (s : State) : (s.freeSlots).fab = s.fab := inv_freeSlots (keepsFab s rfl) rfl
@[simp] theorem State.releaseSlots_fab (s : State) (src handle : Nat) (now : Bool) : (s.releaseSlots src handle now).fab = s.fab :=
  inv_releaseSlots (keepsFab s rfl) rfl
@[simp] theorem State.syncJournal_fab (s : State) : (s.syncJournal).fab = s.fab := inv_syncJournal (keepsFab s rfl) rfl
@[simp] theorem State.freeBytes_fab (s : State) (n : Nat) : (s.freeBytes n).2.fab = s.fab := inv_freeBytes (keepsFab s rfl) rfl
@[simp] theorem State.scribble_fab (s : State) (c : Cmd) (a n : Nat) : (s.scribble c a n).fab = s.fab := inv_scribble (keepsFab s rfl) rfl
@[simp] theorem State.freeDest_fab (s : State) (h status : Nat) : (s.freeDest h status).fab = s.fab := inv_freeDest (keepsFab s rfl) rfl
@[simp] theorem State.waitOn_fab (s : State) (h a : Nat) : (s.waitOn h a).fab = s.fab := inv_waitOn (keepsFab s rfl) rfl
@[simp] theorem State.resolveAll_fab (s : State) (r : TableRec) (v : Version) (part : Nat) (idx : List Nat) (w : List F32) :
    (s.resolveAll r v part idx w).1.fab = s.fab :=
  inv_resolveAll (keepsFab s rfl) rfl
@[simp] theorem State.loadMatrix_fab (s : State) (c : Cmd) (d : Desc) (dim : Nat) : (s.loadMatrix c d dim).1.fab = s.fab :=
  inv_loadMatrix (keepsFab s rfl) rfl
@[simp] theorem State.prefetchRows_fab (s : State) (c : Cmd) (dstp stride n : Nat) (pos : List (Nat × Nat)) :
    (s.prefetchRows c dstp stride n pos).fab = s.fab :=
  inv_prefetchRows (keepsFab s rfl) rfl
@[simp] theorem State.loadedMatrix_fab (s : State) (c : Cmd) (home : Nat) : (s.loadedMatrix c home).fab = s.fab :=
  inv_loadedMatrix (keepsFab s rfl) rfl
@[simp] theorem State.freeUnits_fab (s : State) (open_ : Nat → Bool) (outs : List OutUnit) : (s.freeUnits open_ outs).2.fab = s.fab :=
  inv_freeUnits (keepsFab s rfl) rfl
@[simp] theorem State.countClamps_fab (s : State) (c : Cmd) (d : Desc) (us : List UnitOut) : (s.countClamps c d us).fab = s.fab :=
  inv_countClamps (keepsFab s rfl) rfl
@[simp] theorem State.reachUnits_fab (s : State) (c : Cmd) (first : Nat) (units : List OutUnit) : (s.reachUnits c first units).1.fab = s.fab :=
  inv_reachUnits (keepsFab s rfl) rfl
@[simp] theorem State.homeMatrix_fab (s : State) (c : Cmd) (f : Fmt) : (s.homeMatrix c f).1.fab = s.fab := inv_homeMatrix (keepsFab s rfl) rfl
@[simp] theorem State.reserveHere_fab (s : State) (src handle t v nel : Nat) (rows : List (Nat × Bool)) :
    (s.reserveHere src handle t v nel rows).1.fab = s.fab :=
  inv_reserveHere (keepsFab s rfl) rfl
@[simp] theorem State.openWait_fab (s : State) (x : AddWait) : (s.openWait x).2.fab = s.fab := inv_openWait (keepsFab s rfl) rfl
@[simp] theorem State.logAdd_fab (s : State) (a : AddIn) : (s.logAdd a).fab = s.fab := inv_logAdd (keepsFab s rfl) rfl
@[simp] theorem State.foldAdd_fab (s : State) (r : TableRec) (a : AddIn) : (s.foldAdd r a).1.fab = s.fab := inv_foldAdd (keepsFab s rfl) rfl
@[simp] theorem State.upWait_fab (s : State) (w : Nat) (f : AddWait → AddWait) : (s.upWait w f).fab = s.fab := inv_upWait (keepsFab s rfl) rfl
@[simp] theorem State.applyRow_fab (s : State) (r : TableRec) (x : Group) (recipe row kcmd src seqn part : Nat) (commit : Bool) (g : List F32) :
    (s.applyRow r x recipe row kcmd src seqn part commit g).1.fab = s.fab :=
  inv_applyRow (keepsFab s rfl) rfl
@[simp] theorem State.applyEntry_fab (s : State) (t v g : Nat) (e : PEntry) : (s.applyEntry t v g e).fab = s.fab :=
  inv_applyEntry (keepsFab s rfl) rfl
@[simp] theorem State.upReg_fab (s : State) (t : Nat) (f : RegEntry → RegEntry) : (s.upReg t f).fab = s.fab := inv_upReg (keepsFab s rfl) rfl
@[simp] theorem State.dropUnused_fab (s : State) (t : Nat) : (s.dropUnused t).fab = s.fab := inv_dropUnused (keepsFab s rfl) rfl
@[simp] theorem State.commitKind_fab (s : State) (w part leader kcmd : Nat) (r : TableRec) (x : Group) (row : Nat) (plain : Bool) (l : List Slot) :
    (s.commitKind w part leader kcmd r x row plain l).fab = s.fab :=
  inv_commitKind (keepsFab s rfl) rfl
@[simp] theorem State.takeSlots_fab (s : State) (taken : Slot → Bool) (hold : Option Nat) : (s.takeSlots taken hold).fab = s.fab :=
  inv_takeSlots (keepsFab s rfl) rfl
@[simp] theorem State.attachRing_fab (s : State) (n major minor : Nat) : (s.attachRing n major minor).fab = s.fab :=
  inv_attachRing (keepsFab s rfl) rfl
@[simp] theorem State.settleRing_fab (s : State) (n : Nat) : (s.settleRing n).fab = s.fab := inv_settleRing (keepsFab s rfl) rfl
@[simp] theorem State.cqHeadWrite_fab (s : State) (n v : Nat) : (s.cqHeadWrite n v).fab = s.fab := inv_cqHeadWrite (keepsFab s rfl) rfl
@[simp] theorem State.newOp_fab (s : State) (t from_ handle xid : Nat) (k : OpKind) : (s.newOp t from_ handle xid k).2.fab = s.fab :=
  inv_newOp (keepsFab s rfl) rfl
@[simp] theorem State.upOp_fab (s : State) (id : Nat) (f : Op → Op) : (s.upOp id f).fab = s.fab := inv_upOp (keepsFab s rfl) rfl
@[simp] theorem State.freeVersion_fab (s : State) (t v : Nat) : (s.freeVersion t v).fab = s.fab := inv_freeVersion (keepsFab s rfl) rfl
@[simp] theorem State.syncTk_fab (s : State) : (s.syncTk).fab = s.fab := inv_syncTk (keepsFab s rfl) rfl
@[simp] theorem State.dropRecord_fab (s : State) (t : Nat) : (s.dropRecord t).fab = s.fab := inv_dropRecord (keepsFab s rfl) rfl
@[simp] theorem State.installRecord_fab (s : State) (d : RecordData) : (s.installRecord d).fab = s.fab := inv_installRecord (keepsFab s rfl) rfl
@[simp] theorem State.keepId_fab (s : State) (t asker : Nat) : (s.keepId t asker).fab = s.fab := inv_keepId (keepsFab s rfl) rfl
@[simp] theorem State.placeGroup_fab (s : State) (r : TableRec) (v g tier : Nat) (secondary : Bool) :
    (s.placeGroup r v g tier secondary).fab = s.fab :=
  inv_placeGroup (keepsFab s rfl) rfl
@[simp] theorem State.publishCopy_fab (s : State) (t v : Nat) : (s.publishCopy t v).fab = s.fab := inv_publishCopy (keepsFab s rfl) rfl
@[simp] theorem State.publishHere_fab (s : State) (t v : Nat) : (s.publishHere t v).fab = s.fab := inv_publishHere (keepsFab s rfl) rfl
@[simp] theorem State.switchHere_fab (s : State) (t : Nat) : (s.switchHere t).fab = s.fab := inv_switchHere (keepsFab s rfl) rfl
@[simp] theorem State.promoteHere_fab (s : State) (t v g : Nat) : (s.promoteHere t v g).fab = s.fab := inv_promoteHere (keepsFab s rfl) rfl
@[simp] theorem State.dropGroup_fab (s : State) (t v g : Nat) (keepRsv : Bool) : (s.dropGroup t v g keepRsv).fab = s.fab :=
  inv_dropGroup (keepsFab s rfl) rfl
@[simp] theorem State.takeRegion_fab (s : State) (t v : Nat) : (s.takeRegion t v).fab = s.fab := inv_takeRegion (keepsFab s rfl) rfl
@[simp] theorem State.readStored_fab (s : State) (t ver part : Nat) (l : List Nat) : (s.readStored t ver part l).1.fab = s.fab :=
  inv_readStored (keepsFab s rfl) rfl
@[simp] theorem State.sectionDone_fab (s : State) (h : Nat) : (s.sectionDone h).fab = s.fab := inv_sectionDone (keepsFab s rfl) rfl
@[simp] theorem State.restoreDone_fab (s : State) (h : Nat) (written : Bool) (ev : Option (Nat × Nat)) : (s.restoreDone h written ev).fab = s.fab :=
  inv_restoreDone (keepsFab s rfl) rfl
@[simp] theorem State.failCtrlAnswer_fab (s : State) (named : Option Bool) : (s.failCtrlAnswer named).fab = s.fab :=
  inv_failCtrlAnswer (keepsFab s rfl) rfl
@[simp] theorem State.evicted_fab (s : State) : (s.evicted).fab = s.fab := inv_evicted (keepsFab s rfl) rfl
@[simp] theorem State.flushWays_fab (s : State) (mask : Nat) : (s.flushWays mask).1.fab = s.fab := inv_flushWays (keepsFab s rfl) rfl
@[simp] theorem State.flushTable_fab (s : State) (t : Nat) : (s.flushTable t).1.fab = s.fab := inv_flushTable (keepsFab s rfl) rfl
@[simp] theorem State.syncRepairs_fab (s : State) : (s.syncRepairs).fab = s.fab := inv_syncRepairs (keepsFab s rfl) rfl
@[simp] theorem State.writeFields_fab (s : State) (off v : Nat) : (s.writeFields off v).fab = s.fab := inv_writeFields (keepsFab s rfl) rfl
@[simp] theorem State.event_fab (s : State) (typ core : Nat) (digest : List Byte) : (s.event typ core digest).fab = s.fab :=
  inv_event (keepsFab s rfl) rfl
@[simp] theorem State.setLock_fab (s : State) : (s.setLock).fab = s.fab := inv_setLock (keepsFab s rfl) rfl
@[simp] theorem State.writeMdCfg_fab (s : State) (v : Nat) : (s.writeMdCfg v).fab = s.fab := inv_writeMdCfg (keepsFab s rfl) rfl
@[simp] theorem State.writeMdDisable_fab (s : State) (v : Nat) : (s.writeMdDisable v).fab = s.fab := inv_writeMdDisable (keepsFab s rfl) rfl
@[simp] theorem State.writeSize_fab (s : State) (off w v used : Nat) : (s.writeSize off w v used).fab = s.fab := inv_writeSize (keepsFab s rfl) rfl
@[simp] theorem State.writeMapout_fab (s : State) (v : Nat) : (s.writeMapout v).fab = s.fab := inv_writeMapout (keepsFab s rfl) rfl
@[simp] theorem State.writeBufCfg_fab (s : State) (v : Nat) : (s.writeBufCfg v).fab = s.fab := inv_writeBufCfg (keepsFab s rfl) rfl
@[simp] theorem State.loadWords_fab (s : State) (reg : Nat → Nat) (n : Nat) (bs : List Byte) : (s.loadWords reg n bs).fab = s.fab :=
  inv_loadWords (keepsFab s rfl) rfl
@[simp] theorem State.writeCtxCtrl_fab (s : State) (v : Nat) : (s.writeCtxCtrl v).fab = s.fab := inv_writeCtxCtrl (keepsFab s rfl) rfl
@[simp] theorem State.writeWinCtrl_fab (s : State) (v : Nat) : (s.writeWinCtrl v).fab = s.fab := inv_writeWinCtrl (keepsFab s rfl) rfl
@[simp] theorem State.writeMigCtrl_fab (s : State) (v : Nat) : (s.writeMigCtrl v).fab = s.fab := inv_writeMigCtrl (keepsFab s rfl) rfl
@[simp] theorem State.writeInvCtrl_fab (s : State) (v : Nat) : (s.writeInvCtrl v).fab = s.fab := inv_writeInvCtrl (keepsFab s rfl) rfl
@[simp] theorem State.mbDlBegin_fab (s : State) (_len : Nat) : (s.mbDlBegin _len).1.fab = s.fab := inv_mbDlBegin (keepsFab s rfl) rfl
@[simp] theorem State.mbDlChunk_fab (s : State) (len : Nat) : (s.mbDlChunk len).1.fab = s.fab := inv_mbDlChunk (keepsFab s rfl) rfl
@[simp] theorem State.mbVerify_fab (s : State) (_len : Nat) : (s.mbVerify _len).1.fab = s.fab := inv_mbVerify (keepsFab s rfl) rfl
@[simp] theorem State.mbActivate_fab (s : State) (_len : Nat) : (s.mbActivate _len).1.fab = s.fab := inv_mbActivate (keepsFab s rfl) rfl
@[simp] theorem State.mbConfirm_fab (s : State) (_len : Nat) : (s.mbConfirm _len).1.fab = s.fab := inv_mbConfirm (keepsFab s rfl) rfl
@[simp] theorem State.mbCertRead_fab (s : State) (_len : Nat) : (s.mbCertRead _len).1.fab = s.fab :=
  inv_mbCertRead (P := fun u => u.fab = s.fab) (keepsFab s rfl) rfl
@[simp] theorem State.mbKekSet_fab (s : State) (len : Nat) : (s.mbKekSet len).1.fab = s.fab := inv_mbKekSet (keepsFab s rfl) rfl
@[simp] theorem State.mbSakRetire_fab (s : State) (_len : Nat) : (s.mbSakRetire _len).1.fab = s.fab := inv_mbSakRetire (keepsFab s rfl) rfl
@[simp] theorem State.mbDebugUnlock_fab (s : State) (len : Nat) : (s.mbDebugUnlock len).1.fab = s.fab := inv_mbDebugUnlock (keepsFab s rfl) rfl
@[simp] theorem State.writeFaultCtrl_fab (s : State) (v : Nat) : (s.writeFaultCtrl v).fab = s.fab := inv_writeFaultCtrl (keepsFab s rfl) rfl
@[simp] theorem State.writeHolmCtrl_fab (s : State) (v : Nat) : (s.writeHolmCtrl v).fab = s.fab := inv_writeHolmCtrl (keepsFab s rfl) rfl
@[simp] theorem State.writeLbCtrl_fab (s : State) (v : Nat) : (s.writeLbCtrl v).fab = s.fab := inv_writeLbCtrl (keepsFab s rfl) rfl
@[simp] theorem State.holmGoesOffline_fab (s : State) (h : Nat) : (s.holmGoesOffline h).fab = s.fab := inv_holmGoesOffline (keepsFab s rfl) rfl
@[simp] theorem State.writeWayDisable_fab (s : State) (sl v : Nat) : (s.writeWayDisable sl v).fab = s.fab := inv_writeWayDisable (keepsFab s rfl) rfl
@[simp] theorem State.writeMtReg_fab (s : State) (t p v : Nat) : (s.writeMtReg t p v).fab = s.fab := inv_writeMtReg (keepsFab s rfl) rfl
@[simp] theorem State.readEffect_fab (s : State) (off : Nat) : (s.readEffect off).1.fab = s.fab := inv_readEffect (keepsFab s rfl) rfl

end Sys2Proof.Machine
end

section
/-! PROOFS. The messages received stay in the inbox until they are taken: what an operation that sends leaves of it. One lemma per operation, in
the model's order; the branches of each are the operations before it. -/

namespace Sys2Proof.Machine

theorem foldl_inbox {α : Type} {f : State → α → State} (hf : ∀ s x, (f s x).fab.inbox = s.fab.inbox) (l : List α) (s : State) :
    (l.foldl f s).fab.inbox = s.fab.inbox :=
  inv_foldl (P := fun u => u.fab.inbox = s.fab.inbox) rfl fun u x h => (hf u x).trans h

theorem foldl_inbox_fst {α β : Type} {f : State × β → α → State × β}
    (hf : ∀ s x, (f s x).1.fab.inbox = s.1.fab.inbox) (l : List α) (s : State × β) :
    (l.foldl f s).1.fab.inbox = s.1.fab.inbox :=
  inv_foldl_fst (P := fun u => u.fab.inbox = s.1.fab.inbox) rfl fun u x h => (hf u x).trans h

@[simp] theorem ite_inbox (p : Prop) [Decidable p] (a b : State) :
    (if p then a else b).fab.inbox = if p then a.fab.inbox else b.fab.inbox := by split <;> rfl

@[simp] theorem ite_inbox_fst {β : Type} (p : Prop) [Decidable p] (a b : State × β) :
    (if p then a else b).1.fab.inbox = if p then a.1.fab.inbox else b.1.fab.inbox := by split <;> rfl

@[simp] theorem State.newXid_inbox (s : State) : (s.newXid).2.fab.inbox = s.fab.inbox := rfl

@[simp] theorem State.stall_inbox (s : State) (p l : Nat) (bytes : List Byte) : (s.stall p l bytes).fab.inbox = s.fab.inbox := rfl

@[simp] theorem State.upFlow_inbox (s : State) (p l : Nat) (g : Flow → Flow) : (s.upFlow p l g).fab.inbox = s.fab.inbox := rfl

@[simp] theorem State.emit_inbox (s : State) (port dst lane : Nat) (hdr payload : List Byte) :
    (s.emit port dst lane hdr payload).fab.inbox = s.fab.inbox := by
  unfold State.emit
  simp

@[simp] theorem State.sendFrame_inbox (s : State) (f : Flow) (typ flags psn : Nat) (payload : List Byte) :
    (s.sendFrame f typ flags psn payload).fab.inbox = s.fab.inbox := by
  unfold State.sendFrame
  split <;> simp

@[simp] theorem State.pumpFuel_inbox (p l : Nat) (flush : Bool) (fuel : Nat) (s : State) : (s.pumpFuel p l flush fuel).fab.inbox = s.fab.inbox := by
  induction fuel generalizing s with
  | zero => rfl
  | succ fuel ih =>
    unfold State.pumpFuel
    dsimp only
    (repeat' split) <;> simp [ih]

@[simp] theorem State.pump_inbox (s : State) (p l : Nat) (flush : Bool) : (s.pump p l flush).fab.inbox = s.fab.inbox := by
  unfold State.pump
  split <;> simp

@[simp] theorem State.setFlows_inbox (s : State) (fs : List Flow) : (s.setFlows fs).fab.inbox = s.fab.inbox := rfl

theorem State.roomForFlow_inbox {s u : State} (room : s.roomForFlow = some u) : u.fab.inbox = s.fab.inbox := by
  unfold State.roomForFlow at room
  split at room
  · cases room; rfl
  · split at room
    · cases room
    · cases room; simp

@[simp] theorem State.openFlow_inbox (s : State) (p l : Nat) : (s.openFlow p l).fab.inbox = s.fab.inbox := by
  unfold State.openFlow
  simp

@[simp] theorem State.post_inbox (s : State) (p l : Nat) (bytes : List Byte) : (s.post p l bytes).fab.inbox = s.fab.inbox := by
  unfold State.post
  split
  · simp
  · split
    · simp
    · next room => simp [State.roomForFlow_inbox room]

@[simp] theorem State.send_inbox (s : State) (p l : Nat) (bytes : List Byte) : (s.send p l bytes).fab.inbox = s.fab.inbox := by
  unfold State.send
  simp

@[simp] theorem State.sendTk_inbox (s : State) (dst handle : Nat) (b : TkBody) : (s.sendTk dst handle b).fab.inbox = s.fab.inbox := by
  unfold State.sendTk
  simp

@[simp] theorem State.request_inbox (s : State) (dst lane mtype handle : Nat) (kind : XKind) (body : List Byte) :
    (s.request dst lane mtype handle kind body).fab.inbox = s.fab.inbox := by
  unfold State.request
  simp

@[simp] theorem State.memWriteTo_inbox (s : State) (a ctx lane handle : Nat) (kind : XKind) (bs : List Byte) :
    (s.memWriteTo a ctx lane handle kind bs).fab.inbox = s.fab.inbox := by
  unfold State.memWriteTo
  simp

@[simp] theorem State.unstall_inbox (s : State) : (s.unstall).fab.inbox = s.fab.inbox := by
  unfold State.unstall
  simp [foldl_inbox]

@[simp] theorem State.askTk_inbox (s : State) (dst handle : Nat) (kind : XKind) (b : TkBody) :
    (s.askTk dst handle kind b).fab.inbox = s.fab.inbox := by
  unfold State.askTk
  simp

theorem State.alloc_fab {s : State} {tier n align : Nat} {r : Nat × State} (taken : s.alloc tier n align = some r) : r.2.fab = s.fab :=
  inv_alloc (keepsFab s rfl) rfl taken

@[simp] theorem State.answerTk_inbox (s : State) (h : TkHdr) (b : TkBody) (status : Nat) (a : TkAnswer) :
    (s.answerTk h b status a).fab.inbox = s.fab.inbox := by
  unfold State.answerTk
  simp

@[simp] theorem State.ownWrite_inbox (s : State) (a : Nat) (bs : List Byte) : (s.ownWrite a bs).fab.inbox = s.fab.inbox := by
  unfold State.ownWrite
  simp

@[simp] theorem State.owedNotify_inbox (s : State) : (s.owedNotify).fab.inbox = s.fab.inbox := by
  unfold State.owedNotify
  simp

@[simp] theorem State.pushFault_inbox (s : State) (r : FaultRec) : (s.pushFault r).fab.inbox = s.fab.inbox := by
  unfold State.pushFault
  simp

@[simp] theorem State.fault_inbox (s : State) (cls source cause detail : Nat) : (s.fault cls source cause detail).fab.inbox = s.fab.inbox := by
  unfold State.fault
  split <;> simp

@[simp] theorem State.answer_inbox (s : State) (dst lane : Nat) (req : List Byte) (status : Nat) (body : List Byte) :
    (s.answer dst lane req status body).fab.inbox = s.fab.inbox := by
  unfold State.answer
  simp

@[simp] theorem State.dropXchg_inbox (s : State) (xid : Nat) : (s.dropXchg xid).fab.inbox = s.fab.inbox := rfl

@[simp] theorem State.setRouteBit_inbox (s : State) (b i : Nat) (v : Bool) : (s.setRouteBit b i v).fab.inbox = s.fab.inbox := rfl

@[simp] theorem State.fatal_inbox (s : State) (cause detail source : Nat) : (s.fatal cause detail source).fab.inbox = s.fab.inbox := by
  unfold State.fatal
  dsimp only
  (repeat' split) <;> simp

@[simp] theorem State.abandonSlots_inbox (s : State) (c : Cmd) : (s.abandonSlots c).fab.inbox = s.fab.inbox := by
  unfold State.abandonSlots
  simp [foldl_inbox]

@[simp] theorem State.dropSlots_inbox (s : State) (n : Nat) : (s.dropSlots n).fab.inbox = s.fab.inbox := rfl

@[simp] theorem State.faultRing_inbox (s : State) (n : Nat) : (s.faultRing n).fab.inbox = s.fab.inbox := by
  unfold State.faultRing
  simp

@[simp] theorem State.release_inbox (s : State) (h : Nat) : (s.release h).fab.inbox = s.fab.inbox := by
  unfold State.release
  simp [foldl_inbox]

@[simp] theorem State.endCmd_inbox (s : State) (h status : Nat) (f : Cmd → Cmd) : (s.endCmd h status f).fab.inbox = s.fab.inbox := by
  unfold State.endCmd
  simp

@[simp] theorem State.endAt_inbox (s : State) (h status block : Nat) : (s.endAt h status block).fab.inbox = s.fab.inbox := by
  unfold State.endAt
  simp

@[simp] theorem State.endWith_inbox (s : State) (h status : Nat) : (s.endWith h status).fab.inbox = s.fab.inbox := by
  unfold State.endWith
  simp

end Sys2Proof.Machine
end

section
/-! PROOFS. The inbox stays as it is while the commands on rows and lists, and the adds, go on. -/

namespace Sys2Proof.Machine

@[simp] theorem State.fetchRecords_inbox (s : State) (c : Cmd) (miss : List Nat) : (s.fetchRecords c miss).fab.inbox = s.fab.inbox := by
  unfold State.fetchRecords
  refine foldl_inbox (fun u t => ?_) _ _
  (repeat' split) <;> simp

@[simp] theorem State.checkLate_inbox (s : State) (c : Cmd) (d : Desc) : (s.checkLate c d).fab.inbox = s.fab.inbox := by
  unfold State.checkLate
  simp

@[simp] theorem State.begin_inbox (s : State) (c : Cmd) : (s.begin_ c).1.fab.inbox = s.fab.inbox := by
  unfold State.begin_
  simp

@[simp] theorem State.readAway_inbox (s : State) (c : Cmd) (g n : Nat) : (s.readAway c g n).1.fab.inbox = s.fab.inbox := by
  unfold State.readAway
  split <;> simp

@[simp] theorem State.readRun_inbox (s : State) (c : Cmd) (cached : Bool) (a n : Nat) : (s.readRun c cached a n).1.fab.inbox = s.fab.inbox := by
  unfold State.readRun
  dsimp only
  (repeat' split) <;> simp

@[simp] theorem State.readBuf_inbox (s : State) (c : Cmd) (cached : Bool) (a n : Nat) : (s.readBuf c cached a n).1.fab.inbox = s.fab.inbox := by
  unfold State.readBuf
  refine foldl_inbox_fst (fun acc p => ?_) _ _
  dsimp only
  (repeat' split) <;> simp

@[simp] theorem State.readBufs_inbox (s : State) (c : Cmd) (cached : Bool) (l : List (Nat × Nat)) :
    (s.readBufs c cached l).1.fab.inbox = s.fab.inbox := by
  unfold State.readBufs
  simp [foldl_inbox_fst]

@[simp] theorem State.endFault_inbox (s : State) (h status addr : Nat) : (s.endFault h status addr).fab.inbox = s.fab.inbox := by
  unfold State.endFault
  simp

@[simp] theorem State.endResume_inbox (s : State) (h residx : Nat) : (s.endResume h residx).fab.inbox = s.fab.inbox := by
  unfold State.endResume
  simp

@[simp] theorem State.meet_inbox (s : State) (c : Cmd) (b : Buf) (residx : Nat) : (s.meet c b residx).fab.inbox = s.fab.inbox := by
  unfold State.meet
  split <;> simp

@[simp] theorem State.readLists_inbox (s : State) (c : Cmd) (d : Desc) : (s.readLists c d).1.fab.inbox = s.fab.inbox := by
  unfold State.readLists
  dsimp only
  (repeat' split) <;> simp

@[simp] theorem State.readMapByte_inbox (s : State) (c : Cmd) (d : Desc) (n : Nat) : (s.readMapByte c d n).1.fab.inbox = s.fab.inbox := by
  unfold State.readMapByte
  dsimp only
  (repeat' split) <;> simp

@[simp] theorem State.sendReads_inbox (s : State) (c : Cmd) (o tbl ver ofmt : Nat) (comp degr : Bool) (kind : XKind) (rows : List Nat) :
    (s.sendReads c o tbl ver ofmt comp degr kind rows).fab.inbox = s.fab.inbox := by
  unfold State.sendReads
  simp [foldl_inbox]

theorem State.stageList_inbox {s : State} {h : Nat} {bs : List Byte} {r : Nat × State} (staged : s.stageList h bs = some r) :
    r.2.fab.inbox = s.fab.inbox := by
  unfold State.stageList at staged
  split at staged
  · cases staged
  · obtain ⟨b, taken, rfl⟩ := Option.map_eq_some_iff.1 staged
    simp [State.alloc_fab taken]

theorem State.bagEntry_inbox {s : State} {h bag : Nat} {weighted : Bool} {ps : List Pos} {r : List Byte × State}
    (made : s.bagEntry h bag weighted ps = some r) : r.2.fab.inbox = s.fab.inbox := by
  unfold State.bagEntry at made
  dsimp only at made
  split at made
  · cases made; rfl
  · obtain ⟨b, staged, rfl⟩ := Option.map_eq_some_iff.1 made
    exact State.stageList_inbox staged

theorem bagFold_inbox {h : Nat} {w : Bool} {l : List (Nat × List Pos)} {s : State} {r : List (List Byte) × State}
    {i : Option (List (List Byte) × State)} (hi : ∀ x, i = some x → x.2.fab.inbox = s.fab.inbox)
    (made : l.foldl (fun (acc : Option (List (List Byte) × State)) b =>
      acc.bind (fun a => (a.2.bagEntry h b.1 w b.2).map (fun e => (a.1 ++ [e.1], e.2)))) i = some r) : r.2.fab.inbox = s.fab.inbox := by
  induction l generalizing i with
  | nil => exact hi r made
  | cons b bs ih =>
    refine ih (fun x step => ?_) made
    obtain ⟨a, before, step⟩ := Option.bind_eq_some_iff.1 step
    obtain ⟨e, entry, rfl⟩ := Option.map_eq_some_iff.1 step
    exact (State.bagEntry_inbox entry).trans (hi a before)

theorem State.sendPools_inbox {s u : State} {c : Cmd} {d : Desc} {o : Nat} (sent : s.sendPools c d o = some u) : u.fab.inbox = s.fab.inbox := by
  unfold State.sendPools at sent
  obtain ⟨a, made, rfl⟩ := Option.map_eq_some_iff.1 sent
  refine (foldl_inbox (fun _ _ => by simp) _ _).trans ?_
  exact bagFold_inbox (fun x e => by cases e; rfl) made

@[simp] theorem State.sendBundle_inbox (s : State) (c : Cmd) (d : Desc) (o : Nat) : (s.sendBundle c d o).fab.inbox = s.fab.inbox := by
  unfold State.sendBundle
  dsimp only
  generalize asked : (if (freshRows o c.pos).isEmpty = true then s else _ : State) = u
  have kept : u.fab.inbox = s.fab.inbox := by
    subst asked
    split
    · rfl
    · split
      · simp
      · split
        · next sent => simp [State.sendPools_inbox sent]
        · simp
  split <;> simp [kept]

@[simp] theorem State.sendBundles_inbox (s : State) (c : Cmd) (d : Desc) : (s.sendBundles c d).fab.inbox = s.fab.inbox := by
  unfold State.sendBundles
  simp [foldl_inbox]

@[simp] theorem State.gatherStart_inbox (s : State) (c : Cmd) (d : Desc) (l : Lists) (mapByte : Nat) :
    (s.gatherStart c d l mapByte).fab.inbox = s.fab.inbox := by
  unfold State.gatherStart
  dsimp only
  (repeat' split) <;> simp

@[simp] theorem State.put_inbox (s : State) (c : Cmd) (r : Reach) (kind : XKind) (lane : Nat) (bs : List Byte) :
    (s.put c r kind lane bs).fab.inbox = s.fab.inbox := by
  unfold State.put
  split <;> simp

@[simp] theorem State.writeUnits_inbox (s : State) (c : Cmd) (first : Nat) (units : List OutUnit) (kind : XKind) (lane : Nat) :
    (s.writeUnits c first units kind lane).1.fab.inbox = s.fab.inbox := by
  unfold State.writeUnits
  simp [foldl_inbox]

@[simp] theorem State.finishGather_inbox (s : State) (c : Cmd) (d : Desc) : (s.finishGather c d).fab.inbox = s.fab.inbox := by
  unfold State.finishGather
  dsimp only
  (repeat' split) <;> simp [foldl_inbox]

@[simp] theorem State.runGather_inbox (s : State) (h : Nat) : (s.runGather h).fab.inbox = s.fab.inbox := by
  unfold State.runGather
  dsimp only
  (repeat' split) <;> simp

@[simp] theorem State.scatterStart_inbox (s : State) (c : Cmd) (d : Desc) (l : Lists) : (s.scatterStart c d l).fab.inbox = s.fab.inbox := by
  unfold State.scatterStart
  split <;> simp

@[simp] theorem State.scatterGrads_inbox (s : State) (c : Cmd) (d : Desc) : (s.scatterGrads c d).fab.inbox = s.fab.inbox := by
  unfold State.scatterGrads
  dsimp only
  (repeat' split) <;> simp

@[simp] theorem State.askSlots_inbox (s : State) (c : Cmd) (d : Desc) (r : TableRec) : (s.askSlots c d r).fab.inbox = s.fab.inbox := by
  unfold State.askSlots
  simp [foldl_inbox]

@[simp] theorem State.sendAdds_inbox (s : State) (redelivered : Bool) (relcut : Nat) (l : List JEntry) :
    (s.sendAdds redelivered relcut l).fab.inbox = s.fab.inbox := by
  unfold State.sendAdds
  refine foldl_inbox (fun u x => ?_) _ _
  dsimp only
  (repeat' split) <;> simp

@[simp] theorem State.answerWait_inbox (s : State) (x : AddWait) : (s.answerWait x).fab.inbox = s.fab.inbox := by
  unfold State.answerWait
  simp

@[simp] theorem State.settleWait_inbox (s : State) (w : Nat) : (s.settleWait w).fab.inbox = s.fab.inbox := by
  unfold State.settleWait
  split <;> simp

@[simp] theorem State.mirrorTo_inbox (s : State) (w dst : Nat) (d : CopyData) : (s.mirrorTo w dst d).fab.inbox = s.fab.inbox := by
  unfold State.mirrorTo
  simp

@[simp] theorem State.mirrorAdd_inbox (s : State) (w : Nat) (x : Group) (d : CopyData) : (s.mirrorAdd w x d).fab.inbox = s.fab.inbox := by
  unfold State.mirrorAdd
  dsimp only
  (repeat' split) <;> simp

@[simp] theorem State.holdLate_inbox (s : State) (w : Nat) (r : TableRec) (a : AddIn) : (s.holdLate w r a).1.fab.inbox = s.fab.inbox := by
  unfold State.holdLate
  dsimp only
  (repeat' split) <;> simp

@[simp] theorem State.launch_inbox (s : State) (e : JEntry) : (s.launch e).fab.inbox = s.fab.inbox := by
  unfold State.launch
  dsimp only
  (repeat' split) <;> simp

@[simp] theorem State.carryOut_inbox (s : State) (e : JEntry) : (s.carryOut e).fab.inbox = s.fab.inbox := by
  unfold State.carryOut
  simp

@[simp] theorem State.passOn_inbox (s : State) (w owner ver : Nat) (carried : Bool) (a : AddIn) :
    (s.passOn w owner ver carried a).fab.inbox = s.fab.inbox := by
  unfold State.passOn
  simp

@[simp] theorem State.addHere_inbox (s : State) (w part : Nat) (r : TableRec) (x : Group) (a : AddIn) :
    (s.addHere w part r x a).1.fab.inbox = s.fab.inbox := by
  unfold State.addHere
  dsimp only
  (repeat' split) <;> simp

@[simp] theorem State.addAtGroup_inbox (s : State) (w part : Nat) (r : TableRec) (v : Version) (a : AddIn) :
    (s.addAtGroup w part r v a).1.fab.inbox = s.fab.inbox := by
  unfold State.addAtGroup
  split <;> simp

@[simp] theorem State.carryAdd_inbox (s : State) (w part : Nat) (r : TableRec) (a : AddIn) : (s.carryAdd w part r a).1.fab.inbox = s.fab.inbox := by
  unfold State.carryAdd
  split <;> simp

@[simp] theorem State.takeAdd_inbox (s : State) (w part : Nat) (a : AddIn) : (s.takeAdd w part a).1.fab.inbox = s.fab.inbox := by
  unfold State.takeAdd
  (repeat' split) <;> simp

@[simp] theorem State.takeAdds_inbox (s : State) (w part : Nat) (l : List AddIn) : (s.takeAdds w part l).fab.inbox = s.fab.inbox := by
  unfold State.takeAdds
  refine foldl_inbox (fun u x => ?_) _ _
  dsimp only
  (repeat' split) <;> simp

@[simp] theorem State.handOff_inbox (s : State) (c : Cmd) (d : Desc) (r : TableRec) : (s.handOff c d r).fab.inbox = s.fab.inbox := by
  unfold State.handOff
  split <;> simp

@[simp] theorem State.finishScatter_inbox (s : State) (c : Cmd) (d : Desc) : (s.finishScatter c d).fab.inbox = s.fab.inbox := by
  unfold State.finishScatter
  simp

@[simp] theorem State.runScatter_inbox (s : State) (h : Nat) : (s.runScatter h).fab.inbox = s.fab.inbox := by
  unfold State.runScatter
  extract_lets live
  split
  · rfl
  · extract_lets d b s0 s1 s2
    have begun : b.1.fab.inbox = s.fab.inbox := State.begin_inbox ..
    have step1 : s1.fab.inbox = s0.fab.inbox := by
      unfold s1
      split
      · rfl
      · extract_lets l
        split <;> simp [l]
    have step2 : s2.fab.inbox = s1.fab.inbox := by unfold s2; split <;> simp
    split
    · exact begun
    · split
      · rw [step2, step1]; exact begun
      · extract_lets s3 s4
        have step3 : s3.fab.inbox = s2.fab.inbox := by
          unfold s3
          split
          · rfl
          · split <;> simp
        have step4 : s4.fab.inbox = s3.fab.inbox := by
          unfold s4
          split
          · rfl
          · split <;> simp
        have before : s4.fab.inbox = s.fab.inbox := by rw [step4, step3, step2, step1]; exact begun
        split
        · exact before
        · split <;> simp [before]

@[simp] theorem State.sendUpdate_inbox (s : State) (t : Nat) (u : TkUpdate) : (s.sendUpdate t u).fab.inbox = s.fab.inbox := by
  unfold State.sendUpdate
  simp [foldl_inbox]

@[simp] theorem State.lessWait_inbox (s : State) (w : Nat) (drop : Option (Nat × Nat)) (findings : Nat) :
    (s.lessWait w drop findings).fab.inbox = s.fab.inbox := by
  unfold State.lessWait
  simp

@[simp] theorem State.resend_inbox (s : State) (t v g : Nat) (redelivered : Bool) (l : JEntry → Bool) :
    (s.resend t v g redelivered l).fab.inbox = s.fab.inbox := by
  unfold State.resend
  split <;> simp

@[simp] theorem State.refetch_inbox (s : State) (t v g : Nat) : (s.refetch t v g).fab.inbox = s.fab.inbox := by
  unfold State.refetch
  split <;> simp

@[simp] theorem State.commitRow_inbox (s : State) (w part leader kcmd : Nat) (r : TableRec) (x : Group) (row : Nat) :
    (s.commitRow w part leader kcmd r x row).fab.inbox = s.fab.inbox := by
  unfold State.commitRow
  simp

@[simp] theorem State.commitRetired_inbox (s : State) (w part leader kcmd ctx : Nat) (r : TableRec) (z : Slot) :
    (s.commitRetired w part leader kcmd ctx r z).fab.inbox = s.fab.inbox := by
  unfold State.commitRetired
  dsimp only
  (repeat' split) <;> simp

@[simp] theorem State.commitHere_inbox (s : State) (w part t step kcmd leader : Nat) :
    (s.commitHere w part t step kcmd leader).fab.inbox = s.fab.inbox := by
  unfold State.commitHere
  dsimp only
  (repeat' split) <;> simp [foldl_inbox]

@[simp] theorem State.commitStart_inbox (s : State) (c : Cmd) (d : Desc) (r : TableRec) : (s.commitStart c d r).fab.inbox = s.fab.inbox := by
  unfold State.commitStart
  simp [foldl_inbox]

@[simp] theorem State.runCommit_inbox (s : State) (h : Nat) : (s.runCommit h).fab.inbox = s.fab.inbox := by
  unfold State.runCommit
  dsimp only
  (repeat' split) <;> simp

@[simp] theorem State.retryCarries_inbox (s : State) : (s.retryCarries).fab.inbox = s.fab.inbox := by
  unfold State.retryCarries
  simp [foldl_inbox]

@[simp] theorem State.detachRing_inbox (s : State) (n : Nat) (force : Bool) : (s.detachRing n force).fab.inbox = s.fab.inbox := by
  unfold State.detachRing
  simp

@[simp] theorem State.confirmed_inbox (s : State) (xid w : Nat) : (s.confirmed xid w).fab.inbox = s.fab.inbox := by
  unfold State.confirmed
  simp

@[simp] theorem State.pushEntry_inbox (s : State) (t v g : Nat) (e : PEntry) : (s.pushEntry t v g e).fab.inbox = s.fab.inbox := by
  unfold State.pushEntry
  simp

@[simp] theorem State.reportSecondary_inbox (s : State) (t v g : Nat) : (s.reportSecondary t v g).fab.inbox = s.fab.inbox := by
  unfold State.reportSecondary
  dsimp only
  (repeat' split) <;> simp

@[simp] theorem State.sweepWaits_inbox (s : State) : (s.sweepWaits).fab.inbox = s.fab.inbox := by
  unfold State.sweepWaits
  simp [foldl_inbox]

@[simp] theorem State.recvAdd_inbox (s : State) (src lane : Nat) (msg : List Byte) : (s.recvAdd src lane msg).fab.inbox = s.fab.inbox := by
  unfold State.recvAdd
  simp

end Sys2Proof.Machine
end

section
/-! PROOFS. The inbox stays as it is while the operations of the Table Keeper go on. -/

namespace Sys2Proof.Machine

@[simp] theorem State.endAsked_inbox (s : State) (h status failblk : Nat) : (s.endAsked h status failblk).fab.inbox = s.fab.inbox := by
  unfold State.endAsked
  simp

@[simp] theorem State.tellMirror_inbox (s : State) (t : Nat) (u : TkUpdate) : (s.tellMirror t u).fab.inbox = s.fab.inbox := by
  unfold State.tellMirror
  split <;> simp

@[simp] theorem State.endOp_inbox (s : State) (id : Nat) : (s.endOp id).fab.inbox = s.fab.inbox := by
  unfold State.endOp
  split <;> simp

@[simp] theorem State.answerOp_inbox (s : State) (o : Op) (status failblk : Nat) (a : TkAnswer) :
    (s.answerOp o status failblk a).fab.inbox = s.fab.inbox := by
  unfold State.answerOp
  (repeat' split) <;> simp

@[simp] theorem State.dropCreation_inbox (s : State) (t phase : Nat) (a : CreateArgs) : (s.dropCreation t phase a).fab.inbox = s.fab.inbox := by
  unfold State.dropCreation
  simp [foldl_inbox]

@[simp] theorem State.failOp_inbox (s : State) (o : Op) : (s.failOp o).fab.inbox = s.fab.inbox := by
  unfold State.failOp
  dsimp only
  (repeat' split) <;> simp [foldl_inbox]

@[simp] theorem State.mirrorOp_inbox (s : State) (o : Op) : (s.mirrorOp o).fab.inbox = s.fab.inbox := by
  unfold State.mirrorOp
  simp

@[simp] theorem State.askAll_inbox (s : State) (id t : Nat) (b : TkBody) : (s.askAll id t b).fab.inbox = s.fab.inbox := by
  unfold State.askAll
  simp [foldl_inbox]

theorem State.publishReserve_fab {s u : State} {t v : Nat} (taken : s.publishReserve t v = some u) : u.fab = s.fab :=
  inv_publishReserve (keepsFab s rfl) rfl taken

@[simp] theorem State.discardJournal_inbox (s : State) (t v g owner : Nat) : (s.discardJournal t v g owner).fab.inbox = s.fab.inbox := by
  unfold State.discardJournal
  rw [State.syncJournal_fab]
  refine (foldl_inbox (fun u j => ?_) _ _).trans (by simp)
  (repeat' split) <;> simp

@[simp] theorem State.entryEffects_inbox (s : State) (t v g : Nat) (old e : PEntry) : (s.entryEffects t v g old e).fab.inbox = s.fab.inbox := by
  unfold State.entryEffects
  split
  · rfl
  · extract_lets s1 s2 s3 s4 s5 s6
    have step1 : s1.fab.inbox = s.fab.inbox := by
      unfold s1
      split
      · split <;> simp
      · rfl
    have step2 : s2.fab.inbox = s1.fab.inbox := by unfold s2; split <;> simp
    have step3 : s3.fab.inbox = s2.fab.inbox := by unfold s3; split <;> simp
    have step4 : s4.fab.inbox = s3.fab.inbox := by unfold s4; split <;> simp
    have step5 : s5.fab.inbox = s4.fab.inbox := by unfold s5; split <;> simp
    have step6 : s6.fab.inbox = s5.fab.inbox := by unfold s6; split <;> simp
    split <;> simp [step1, step2, step3, step4, step5, step6]

@[simp] theorem State.recvEntry_inbox (s : State) (t v g : Nat) (e : PEntry) (force : Bool) :
    (s.recvEntry t v g e force).fab.inbox = s.fab.inbox := by
  unfold State.recvEntry
  split <;> simp

@[simp] theorem State.setEntry_inbox (s : State) (t v g : Nat) (e : PEntry) : (s.setEntry t v g e).fab.inbox = s.fab.inbox := by
  unfold State.setEntry
  simp

@[simp] theorem State.mirrorRecord_inbox (s : State) (t : Nat) : (s.mirrorRecord t).fab.inbox = s.fab.inbox := by
  unfold State.mirrorRecord
  split <;> simp

@[simp] theorem State.startMove_inbox (s : State) (id t v g src dblk dtier : Nat) (rebuild : Bool) :
    (s.startMove id t v g src dblk dtier rebuild).fab.inbox = s.fab.inbox := by
  unfold State.startMove
  simp

@[simp] theorem State.takeBack_inbox (s : State) (j : JEntry) : (s.takeBack j).fab.inbox = s.fab.inbox := by
  unfold State.takeBack
  dsimp only
  (repeat' split) <;> simp

@[simp] theorem State.redeliverTo_inbox (s : State) (t x : Nat) : (s.redeliverTo t x).fab.inbox = s.fab.inbox := by
  unfold State.redeliverTo
  refine foldl_inbox (fun u v => foldl_inbox (fun w g => ?_) _ _) _ _
  dsimp only
  (repeat' split) <;> simp [foldl_inbox]

@[simp] theorem State.finishPromotion_inbox (s : State) (t x : Nat) : (s.finishPromotion t x).fab.inbox = s.fab.inbox := by
  unfold State.finishPromotion
  refine foldl_inbox (fun u x => ?_) _ _
  dsimp only
  (repeat' split) <;> simp

theorem State.reserveIf_fab {s u : State} {p : Prop} [Decidable p] {t v tier n : Nat} (taken :
    (if p then s.reserveBytes t v tier n else some s) = some u) :
    u.fab = s.fab :=
  inv_reserveIf (keepsFab s rfl) rfl taken

@[simp] theorem State.enterPhase_inbox (s : State) (o : Op) : (s.enterPhase o).fab.inbox = s.fab.inbox := by
  unfold State.enterPhase
  extract_lets t go finish doomed others dropped switched answered old old' stop
  have moved (u : State) (n l) : (go u n l).fab.inbox = u.fab.inbox := by
    unfold go
    dsimp only
    split <;> simp
  have finished (u : State) (n) : (finish u n).fab.inbox = u.fab.inbox := by
    unfold finish
    simp
  have stopped (u : State) (n m) : (stop u n m).fab.inbox = u.fab.inbox := by
    unfold stop
    simp
  have doomed_kept : doomed.fab.inbox = s.fab.inbox := by unfold doomed; simp
  have dropped_kept : dropped.fab.inbox = s.fab.inbox := by unfold dropped; simp
  have switched_kept : switched.fab.inbox = s.fab.inbox := by unfold switched; simp
  have answered_kept : answered.fab.inbox = s.fab.inbox := by unfold answered; simp
  split
  · split
    · extract_lets f gb n
      split
      · simp [finished]
      · next reserved => simp [moved, foldl_inbox, State.reserveIf_fab reserved]
    split
    · extract_lets installed
      have kept : installed.fab.inbox = s.fab.inbox := by unfold installed; simp
      (repeat' split) <;> simp [finished, moved, kept]
    · exact finished ..
  · (repeat' split) <;> simp [finished, moved, doomed_kept, dropped_kept]
  · split
    · exact finished ..
    · split
      · split
        · rfl
        split
        · exact finished ..
        split
        · exact finished ..
        · extract_lets v
          split
          · exact finished ..
          · next reserved => simp [moved, State.publishReserve_fab reserved]
      (repeat' split) <;> simp [finished, moved]
  · split
    · exact finished ..
    · (repeat' split) <;> simp [finished, moved, switched_kept, answered_kept]
  · split
    · exact stopped ..
    · extract_lets e m1 m2 m3 m4 m5 away n1 l n2 w n3 n4 n5
      have m2_kept : m2.fab.inbox = s.fab.inbox := by unfold m2 m1; split <;> simp
      have m3_kept : m3.fab.inbox = s.fab.inbox := by unfold m3; simp [m2_kept]
      have m4_kept : m4.fab.inbox = s.fab.inbox := by
        unfold m4
        split
        · exact m2_kept
        · split <;> simp [m3_kept]
      have n1_kept : n1.fab.inbox = s.fab.inbox := by unfold n1; simp
      have n2_kept : n2.fab.inbox = s.fab.inbox := by unfold n2; split <;> simp [n1_kept]
      have n3_kept : n3.fab.inbox = s.fab.inbox := by simp [n3, w, n2_kept]
      have n4_kept : n4.fab.inbox = s.fab.inbox := by
        unfold n4
        split
        · split <;> simp [n3_kept]
        · exact n2_kept
      have n5_kept : n5.fab.inbox = s.fab.inbox := by simp [n5, n4_kept]
      (repeat' split) <;> simp [stopped, m5, moved, m4_kept, n5_kept]
  · (repeat' split) <;> simp
  · split
    · extract_lets gs l promoted
      have kept : promoted.fab.inbox = s.fab.inbox := by
        refine foldl_inbox (fun u g => ?_) _ _
        split
        · rfl
        · split <;> simp
      exact (moved ..).trans kept
    · split <;> simp [moved]
  · rfl

@[simp] theorem State.runOp_inbox (fuel : Nat) (s : State) (id : Nat) : (State.runOp fuel s id).fab.inbox = s.fab.inbox := by
  induction fuel generalizing s with
  | zero => rfl
  | succ fuel ih =>
    unfold State.runOp
    (repeat' split) <;> simp [ih]

@[simp] theorem State.poke_inbox (s : State) (id : Nat) : (s.poke id).fab.inbox = s.fab.inbox := by
  unfold State.poke
  simp

@[simp] theorem State.startCreate_inbox (s : State) (t : Nat) (a : CreateArgs) (src handle xid lane : Nat) :
    (s.startCreate t a src handle xid lane).fab.inbox = s.fab.inbox := by
  unfold State.startCreate
  simp

@[simp] theorem State.startOp_inbox (s : State) (t : Nat) (k : OpKind) (src handle xid lane : Nat) :
    (s.startOp t k src handle xid lane).fab.inbox = s.fab.inbox := by
  unfold State.startOp
  simp

@[simp] theorem State.askCoordinator_inbox (s : State) (c : Cmd) (d : Desc) (a : CreateArgs) : (s.askCoordinator c d a).fab.inbox = s.fab.inbox := by
  unfold State.askCoordinator
  dsimp only
  (repeat' split) <;> simp

@[simp] theorem State.createRecipe_inbox (s : State) (c : Cmd) (d : Desc) : (s.createRecipe c d).fab.inbox = s.fab.inbox := by
  unfold State.createRecipe
  dsimp only
  (repeat' split) <;> simp

@[simp] theorem State.runTable_inbox (s : State) (h : Nat) : (s.runTable h).fab.inbox = s.fab.inbox := by
  unfold State.runTable
  dsimp only
  (repeat' split) <;> simp

end Sys2Proof.Machine
end

section
/-! PROOFS. The inbox stays as it is while rows are written and read and images made and restored. -/

namespace Sys2Proof.Machine

@[simp] theorem State.rowNumbers_inbox (s : State) (c : Cmd) (d : Desc) (v : Version) : (s.rowNumbers c d v).1.fab.inbox = s.fab.inbox := by
  unfold State.rowNumbers
  dsimp only
  (repeat' split) <;> simp

@[simp] theorem State.readUnits_inbox (s : State) (c : Cmd) (l : List (Nat × Nat)) : (s.readUnits c l).1.fab.inbox = s.fab.inbox := by
  unfold State.readUnits
  refine foldl_inbox_fst (fun acc p => ?_) _ _
  dsimp only
  (repeat' split) <;> simp

@[simp] theorem State.rowsWriteRead_inbox (s : State) (c : Cmd) (d : Desc) (r : TableRec) (v : Version) :
    (s.rowsWriteRead c d r v).fab.inbox = s.fab.inbox := by
  unfold State.rowsWriteRead
  dsimp only
  (repeat' split) <;> simp

@[simp] theorem State.applyUpdate_inbox (s : State) (u : TkUpdate) : (s.applyUpdate u).fab.inbox = s.fab.inbox := by
  unfold State.applyUpdate
  dsimp only
  (repeat' split) <;> simp [foldl_inbox]

@[simp] theorem State.shareUpdate_inbox (s : State) (h t : Nat) (u : TkUpdate) : (s.shareUpdate h t u).fab.inbox = s.fab.inbox := by
  unfold State.shareUpdate
  dsimp only
  (repeat' split) <;> simp [foldl_inbox]

@[simp] theorem State.rowsSpecial_inbox (s : State) (c : Cmd) (d : Desc) (v : Version) : (s.rowsSpecial c d v).fab.inbox = s.fab.inbox := by
  unfold State.rowsSpecial
  dsimp only
  (repeat' split) <;> simp [foldl_inbox]

@[simp] theorem State.mapGroup_inbox (s : State) (t v g : Nat) : (s.mapGroup t v g).1.fab.inbox = s.fab.inbox := by
  unfold State.mapGroup
  dsimp only
  (repeat' split) <;> simp

@[simp] theorem State.rowsMap_inbox (s : State) (c : Cmd) (d : Desc) (v : Version) : (s.rowsMap c d v).fab.inbox = s.fab.inbox := by
  unfold State.rowsMap
  dsimp only
  (repeat' split) <;> simp [foldl_inbox]

@[simp] theorem State.writeRowsHere_inbox (s : State) (w : Nat) (r : TableRec) (t ver : Nat) (rows : List (Nat × List Byte)) :
    (s.writeRowsHere w r t ver rows).fab.inbox = s.fab.inbox := by
  unfold State.writeRowsHere
  refine (foldl_inbox (fun u g => ?_) _ _).trans (foldl_inbox (fun u p => ?_) _ _) <;> (split <;> simp)

@[simp] theorem State.rowsSend_inbox (s : State) (c : Cmd) (d : Desc) (r : TableRec) (v : Version) (pick : Nat × Nat × List Byte × Bool → Bool) :
    (s.rowsSend c d r v pick).fab.inbox = s.fab.inbox := by
  unfold State.rowsSend
  simp [foldl_inbox]

@[simp] theorem State.rowsPut_inbox (s : State) (c : Cmd) (d : Desc) (r : TableRec) (v : Version) : (s.rowsPut c d r v).fab.inbox = s.fab.inbox := by
  unfold State.rowsPut
  simp

@[simp] theorem State.rowsRetry_inbox (s : State) (c : Cmd) (d : Desc) (r : TableRec) (v : Version) :
    (s.rowsRetry c d r v).fab.inbox = s.fab.inbox := by
  unfold State.rowsRetry
  simp

@[simp] theorem State.rowsWriteEnd_inbox (s : State) (c : Cmd) (missing : List Nat) : (s.rowsWriteEnd c missing).fab.inbox = s.fab.inbox := by
  unfold State.rowsWriteEnd
  dsimp only
  (repeat' split) <;> simp

@[simp] theorem State.runRowsWrite_inbox (s : State) (h : Nat) : (s.runRowsWrite h).fab.inbox = s.fab.inbox := by
  unfold State.runRowsWrite
  split
  · rfl
  · extract_lets d b
    have begun : b.1.fab.inbox = s.fab.inbox := State.begin_inbox ..
    split
    · split
      · exact (State.endWith_inbox ..).trans begun
      · extract_lets s1 s2 s3 s4
        have step1 : s1.fab.inbox = s.fab.inbox := by
          unfold s1
          split
          · exact begun
          · split
            · exact (State.rowsWriteRead_inbox ..).trans begun
            · exact (State.rowsSpecial_inbox ..).trans begun
        have step2 : s2.fab.inbox = s1.fab.inbox := by unfold s2; split <;> simp
        have step3 : s3.fab.inbox = s2.fab.inbox := by
          unfold s3
          split
          · rfl
          · split <;> simp
        have step4 : s4.fab.inbox = s3.fab.inbox := by
          unfold s4
          split
          · rfl
          · split <;> simp
        have before : s4.fab.inbox = s.fab.inbox := by rw [step4, step3, step2, step1]
        (repeat' split) <;> simp [before]
    · simp [begun]
    · exact begun

@[simp] theorem State.readDefault_inbox (s : State) (c : Cmd) (d : Desc) (r : TableRec) (f : Fmt) :
    (s.readDefault c d r f).fab.inbox = s.fab.inbox := by
  unfold State.readDefault
  dsimp only
  (repeat' split) <;> simp

@[simp] theorem State.askRows_inbox (s : State) (c : Cmd) (d : Desc) (v : Version) : (s.askRows c d v).fab.inbox = s.fab.inbox := by
  unfold State.askRows
  simp [foldl_inbox]

@[simp] theorem State.rowsReadStart_inbox (s : State) (c : Cmd) (d : Desc) (r : TableRec) (v : Version) :
    (s.rowsReadStart c d r v).fab.inbox = s.fab.inbox := by
  unfold State.rowsReadStart
  dsimp only
  (repeat' split) <;> simp

@[simp] theorem State.rowsReadAgain_inbox (s : State) (c : Cmd) (d : Desc) (v : Version) : (s.rowsReadAgain c d v).fab.inbox = s.fab.inbox := by
  unfold State.rowsReadAgain
  simp

@[simp] theorem State.rowsReadEnd_inbox (s : State) (c : Cmd) (d : Desc) (v : Version) : (s.rowsReadEnd c d v).fab.inbox = s.fab.inbox := by
  unfold State.rowsReadEnd
  extract_lets f pos c' res
  split
  · (repeat' split) <;> simp
  · next failed fo s1 res1 degr whole count unmapped rep outs fr w _ _ =>
    have freed : s1.fab.inbox = s.fab.inbox := by
      refine foldl_inbox_fst (fun acc x => ?_) _ _
      split <;> simp
    have first : fr.2.fab.inbox = s.fab.inbox := by
      unfold fr
      split <;> simp [freed]
    have written : w.1.fab.inbox = s.fab.inbox := by rw [← freed]; exact State.writeUnits_inbox ..
    (repeat' split) <;> simp [first, written]

@[simp] theorem State.runRowsRead_inbox (s : State) (h : Nat) : (s.runRowsRead h).fab.inbox = s.fab.inbox := by
  unfold State.runRowsRead
  dsimp only
  (repeat' split) <;> simp

theorem State.runGroups_inbox (s : State) (h : Nat) {steps : Nat → State → Nat → State}
    (kept : ∀ n u k, (steps n u k).fab.inbox = u.fab.inbox) :
    (s.runGroups h steps).fab.inbox = s.fab.inbox := by
  unfold State.runGroups
  split
  · rfl
  · simp [kept]

theorem State.imageWritten_inbox (s : State) (h unit : Nat) (e : WEnd) {go : State → State} (kept : ∀ u, (go u).fab.inbox = u.fab.inbox) :
    (s.imageWritten h unit e go).fab.inbox = s.fab.inbox := by
  unfold State.imageWritten
  split <;> simp [kept]

@[simp] theorem State.checkAux_inbox (s : State) (c : Cmd) (d : Desc) (r : TableRec) (v : Version) :
    (s.checkAux c d r v).fab.inbox = s.fab.inbox := by
  unfold State.checkAux
  extract_lets f go put got
  have written (u : State) (bs : List Byte) : (put u bs).fab.inbox = u.fab.inbox := by
    unfold put
    dsimp only
    rw [State.imageWritten_inbox, State.writeUnits_inbox]
    exact fun _ => rfl
  (repeat' split) <;> simp [written, go]

@[simp] theorem State.putSection_inbox (s : State) (c : Cmd) (d : Desc) (f : Fmt) (recipe k : Nat) (bs : List Byte) :
    (s.putSection c d f recipe k bs).fab.inbox = s.fab.inbox := by
  unfold State.putSection
  simp [State.imageWritten_inbox]

@[simp] theorem State.checkSection_inbox (s : State) (c : Cmd) (d : Desc) (r : TableRec) (v : Version) :
    (s.checkSection c d r v).fab.inbox = s.fab.inbox := by
  unfold State.checkSection
  dsimp only
  cases s.group? d.tbl v.ver (d.group + c.next) <;> simp

@[simp] theorem State.checkEnd_inbox (s : State) (c : Cmd) (d : Desc) : (s.checkEnd c d).fab.inbox = s.fab.inbox := by
  unfold State.checkEnd
  simp

@[simp] theorem State.checkSteps_inbox (fuel : Nat) (s : State) (h : Nat) : (State.checkSteps fuel s h).fab.inbox = s.fab.inbox := by
  induction fuel generalizing s with
  | zero => rfl
  | succ fuel ih =>
    unfold State.checkSteps
    split
    · rfl
    · extract_lets d
      split
      · split
        · rfl
        split
        · simp [ih]
        split
        · dsimp only
          split
          · split <;> simp [ih]
          · simp
        split
        · split
          · simp [ih]
          · dsimp only
            split
            · split <;> simp [ih]
            · simp
        split
        · simp
        split
        · rw [ih, State.imageWritten_inbox _ _ _ _ fun u => by simp, State.writeUnits_inbox]
        · simp
      · simp

@[simp] theorem State.runCheckpoint_inbox (s : State) (h : Nat) : (s.runCheckpoint h).fab.inbox = s.fab.inbox := by
  unfold State.runCheckpoint
  simp [State.runGroups_inbox]

@[simp] theorem State.meetUnit_inbox (s : State) (c : Cmd) (b : Buf) (unit : Nat) : (s.meetUnit c b unit).fab.inbox = s.fab.inbox := by
  unfold State.meetUnit
  split <;> simp

@[simp] theorem State.restoreStart_inbox (s : State) (c : Cmd) (d : Desc) (r : TableRec) (v : Version) :
    (s.restoreStart c d r v).fab.inbox = s.fab.inbox := by
  unfold State.restoreStart
  dsimp only
  (repeat' split) <;> simp [foldl_inbox]

@[simp] theorem State.restoreEnd_inbox (s : State) (c : Cmd) : (s.restoreEnd c).fab.inbox = s.fab.inbox := by
  unfold State.restoreEnd
  dsimp only
  (repeat' split) <;> simp

@[simp] theorem State.askEntry_inbox (s : State) (c : Cmd) (t ver g : Nat) (e : PEntry) : (s.askEntry c t ver g e).fab.inbox = s.fab.inbox := by
  unfold State.askEntry
  split <;> simp

@[simp] theorem State.fillGroup_inbox (s : State) (w : Nat) (r : TableRec) (t ver g off : Nat) (bs : List Byte) :
    (s.fillGroup w r t ver g off bs).fab.inbox = s.fab.inbox := by
  unfold State.fillGroup
  dsimp only
  (repeat' split) <;> simp [foldl_inbox]

@[simp] theorem State.restoreData_inbox (s : State) (c : Cmd) (d : Desc) (r : TableRec) (v : Version) (e : PEntry) (body : List Byte) :
    (s.restoreData c d r v e body).fab.inbox = s.fab.inbox := by
  unfold State.restoreData
  simp [foldl_inbox]

@[simp] theorem State.restoreSection_inbox (s : State) (c : Cmd) (d : Desc) (r : TableRec) (v : Version) :
    (s.restoreSection c d r v).fab.inbox = s.fab.inbox := by
  unfold State.restoreSection
  extract_lets f k g e wait b s1 firstListed s2 m
  have waits (u : State) : (wait u).fab.inbox = u.fab.inbox := congrArg _ (State.upCmd_fab ..)
  have read : s1.fab.inbox = s.fab.inbox := State.readBuf_inbox ..
  have mapped : m.1.fab.inbox = s.fab.inbox := (State.mapGroup_inbox ..).trans read
  have held : s2.fab.inbox = s.fab.inbox := (congrArg _ (State.upCmd_fab ..)).trans read
  refine inv_ite (P := fun u => u.fab.inbox = s.fab.inbox) (State.endWith_inbox ..) ?_
  refine inv_ite (P := fun u => u.fab.inbox = s.fab.inbox) (State.endWith_inbox ..) ?_
  refine inv_ite (P := fun u => u.fab.inbox = s.fab.inbox) (waits s) ?_
  cases b.2 with
  | bytes bs =>
    dsimp only
    (repeat' split) <;> simp [read, mapped, held, waits]
  | _ => exact (State.meetUnit_inbox ..).trans read

@[simp] theorem State.restoreSteps_inbox (fuel : Nat) (s : State) (h : Nat) : (State.restoreSteps fuel s h).fab.inbox = s.fab.inbox := by
  induction fuel generalizing s with
  | zero => rfl
  | succ fuel ih =>
    unfold State.restoreSteps
    dsimp only
    (repeat' split) <;> simp [ih]

@[simp] theorem State.runRestore_inbox (s : State) (h : Nat) : (s.runRestore h).fab.inbox = s.fab.inbox := by
  unfold State.runRestore
  split <;> simp

end Sys2Proof.Machine
end

section
/-! PROOFS. The inbox stays as it is when flows move, exchanges fail and a block is held FAILED. -/

namespace Sys2Proof.Machine

@[simp] theorem State.resendFlow_inbox (s : State) (p l : Nat) : (s.resendFlow p l).fab.inbox = s.fab.inbox := by
  unfold State.resendFlow
  dsimp only
  (repeat' split) <;> simp [foldl_inbox]

@[simp] theorem State.moveFlow_inbox (s : State) (p l : Nat) : (s.moveFlow p l).fab.inbox = s.fab.inbox := by
  unfold State.moveFlow
  split <;> simp

@[simp] theorem State.moveFlowsOf_inbox (s : State) (k : Nat) : (s.moveFlowsOf k).fab.inbox = s.fab.inbox := by
  unfold State.moveFlowsOf
  simp [foldl_inbox]

@[simp] theorem State.portLeaves_inbox (s : State) (k cause : Nat) (lost : Bool) : (s.portLeaves k cause lost).fab.inbox = s.fab.inbox := by
  unfold State.portLeaves
  simp

@[simp] theorem State.staleAsk_inbox (s : State) (c : Cmd) (t ver : Nat) (gs : List Nat) : (s.staleAsk c t ver gs).fab.inbox = s.fab.inbox := by
  unfold State.staleAsk
  dsimp only
  (repeat' split) <;> simp [foldl_inbox]

@[simp] theorem State.rowsWritten_inbox (s : State) (h o status : Nat) (bad : List Nat) : (s.rowsWritten h o status bad).fab.inbox = s.fab.inbox := by
  unfold State.rowsWritten
  dsimp only
  (repeat' split) <;> simp

@[simp] theorem State.rowsArrived_inbox (s : State) (h o status : Nat) (l : List (Nat × List Byte)) :
    (s.rowsArrived h o status l).fab.inbox = s.fab.inbox := by
  unfold State.rowsArrived
  dsimp only
  (repeat' split) <;> simp

@[simp] theorem State.sectionArrived_inbox (s : State) (h o k status : Nat) (bs : List Byte) :
    (s.sectionArrived h o k status bs).fab.inbox = s.fab.inbox := by
  unfold State.sectionArrived
  split <;> simp

@[simp] theorem State.closeFlows_inbox (s : State) (b : Nat) : (s.closeFlows b).fab.inbox = s.fab.inbox := by
  unfold State.closeFlows
  simp

@[simp] theorem State.closeQuery_inbox (s : State) (id : Nat) : (s.closeQuery id).fab.inbox = s.fab.inbox := by
  unfold State.closeQuery
  split <;> simp

@[simp] theorem State.redelivered_inbox (s : State) (t x src : Nat) : (s.redelivered t x src).fab.inbox = s.fab.inbox := by
  unfold State.redelivered
  simp [foldl_inbox]

@[simp] theorem State.pokeAll_inbox (s : State) : (s.pokeAll).fab.inbox = s.fab.inbox := by
  unfold State.pokeAll
  refine (foldl_inbox (fun u p => ?_) _ _).trans ?_
  · (repeat' split) <;> simp
  · simp [foldl_inbox]

@[simp] theorem State.opAnswer_inbox (s : State) (id src : Nat) (ok : Bool) : (s.opAnswer id src ok).fab.inbox = s.fab.inbox := by
  unfold State.opAnswer
  simp

@[simp] theorem State.moveDone_inbox (s : State) (o : Op) (ok : Bool) : (s.moveDone o ok).fab.inbox = s.fab.inbox := by
  unfold State.moveDone
  simp

@[simp] theorem State.sendCopy_inbox (s : State) (id : Nat) (x : Group) (f : Fmt) (recipe dst : Nat) :
    (s.sendCopy id x f recipe dst).fab.inbox = s.fab.inbox := by
  unfold State.sendCopy
  rw [foldl_inbox fun _ _ => State.askTk_inbox .., State.charge_fab]

@[simp] theorem State.sendRegions_inbox (s : State) (id t dst : Nat) : (s.sendRegions id t dst).fab.inbox = s.fab.inbox := by
  unfold State.sendRegions
  simp [foldl_inbox]

@[simp] theorem State.moveAnswer_inbox (s : State) (o : Op) (ok : Bool) : (s.moveAnswer o ok).fab.inbox = s.fab.inbox := by
  unfold State.moveAnswer
  dsimp only
  (repeat' split) <;> simp

@[simp] theorem State.failXchg_inbox (s : State) (x : Xchg) : (s.failXchg x).fab.inbox = s.fab.inbox := by
  unfold State.failXchg
  dsimp only
  (repeat' split) <;> simp

@[simp] theorem State.failXchgs_inbox (s : State) (b : Nat) : (s.failXchgs b).fab.inbox = s.fab.inbox := by
  unfold State.failXchgs
  simp [foldl_inbox]

@[simp] theorem State.takeOver_inbox (s : State) (t : Nat) : (s.takeOver t).fab.inbox = s.fab.inbox := by
  unfold State.takeOver
  refine (foldl_inbox (fun u o => ?_) _ _).trans ?_
  · dsimp only
    (repeat' split) <;> simp
  · (repeat' split) <;> simp

@[simp] theorem State.leaveSets_inbox (s : State) (t x : Nat) : (s.leaveSets t x).fab.inbox = s.fab.inbox := by
  unfold State.leaveSets
  dsimp only
  (repeat' split) <;> simp

@[simp] theorem State.loseGroup_inbox (s : State) (t v g : Nat) (e : PEntry) : (s.loseGroup t v g e).fab.inbox = s.fab.inbox := by
  unfold State.loseGroup
  simp

@[simp] theorem State.loseOwner_inbox (s : State) (t x : Nat) (tier : Option Nat) : (s.loseOwner t x tier).fab.inbox = s.fab.inbox := by
  unfold State.loseOwner
  dsimp only
  (repeat' split) <;> simp [foldl_inbox]

@[simp] theorem State.setFailed_inbox (s : State) (x : Nat) : (s.setFailed x).fab.inbox = s.fab.inbox := by
  unfold State.setFailed
  split
  · rfl
  · dsimp only
    rw [State.syncTk_fab]
    refine (foldl_inbox (fun u id => by simp) _ _).trans ?_
    refine (foldl_inbox (fun u g => ?_) _ _).trans ?_
    · (repeat' split) <;> simp
    · simp [foldl_inbox]

@[simp] theorem State.failNoticed_inbox (s : State) (x : Nat) : (s.failNoticed x).fab.inbox = s.fab.inbox := by
  unfold State.failNoticed
  simp

@[simp] theorem State.declareFailed_inbox (s : State) (x : Nat) : (s.declareFailed x).fab.inbox = s.fab.inbox := by
  unfold State.declareFailed
  simp [foldl_inbox]

@[simp] theorem State.runQuery_inbox (s : State) (x src lane handle xid : Nat) : (s.runQuery x src lane handle xid).fab.inbox = s.fab.inbox := by
  unfold State.runQuery
  simp [foldl_inbox]

@[simp] theorem State.failCtrl_inbox (s : State) (x : Nat) (declare query : Bool) : (s.failCtrl x declare query).fab.inbox = s.fab.inbox := by
  unfold State.failCtrl
  extract_lets begun declared
  have begun_kept : begun.fab.inbox = s.fab.inbox := congrArg _ (State.setFld_fab ..)
  have kept : declared.fab.inbox = s.fab.inbox := by
    unfold declared
    split
    · exact begun_kept
    · split
      · simp [begun_kept]
      · split <;> simp [begun_kept]
  split
  · exact kept
  · split
    · simp [kept]
    · split <;> simp [kept]

@[simp] theorem State.portEnters_inbox (s : State) (k : Nat) : (s.portEnters k).fab.inbox = s.fab.inbox := by
  unfold State.portEnters
  split
  · rfl
  · extract_lets entered
    rw [foldl_inbox fun _ _ => State.moveFlow_inbox ..]
    exact congrArg _ ((State.setFld_fab ..).trans (State.setFld_fab ..))

end Sys2Proof.Machine
end

section
/-! PROOFS. The inbox stays as it is when commands run and registers are written. -/

namespace Sys2Proof.Machine

theorem State.runWith_inbox (s : State) (h : Nat) {f : State → Cmd → Desc → State} (kept : ∀ u c d, (f u c d).fab.inbox = u.fab.inbox) :
    (s.runWith h f).fab.inbox = s.fab.inbox := by
  unfold State.runWith
  split
  · rfl
  · dsimp only
    split <;> simp [kept]

@[simp] theorem State.runNop_inbox (s : State) (h : Nat) : (s.runNop h).fab.inbox = s.fab.inbox := by
  unfold State.runNop
  simp [State.runWith_inbox]

@[simp] theorem State.runFence_inbox (s : State) (h : Nat) : (s.runFence h).fab.inbox = s.fab.inbox := by
  unfold State.runFence
  simp [State.runWith_inbox]

@[simp] theorem State.runFlush_inbox (s : State) (h : Nat) : (s.runFlush h).fab.inbox = s.fab.inbox := by
  unfold State.runFlush
  simp [State.runWith_inbox]

@[simp] theorem State.deliver_inbox (s : State) (c : Cmd) (u : OutUnit) (status : Nat) (f : Cmd → Cmd) :
    (s.deliver c u status f).fab.inbox = s.fab.inbox := by
  unfold State.deliver
  dsimp only
  (repeat' split) <;> simp

@[simp] theorem State.runStats_inbox (s : State) (h : Nat) : (s.runStats h).fab.inbox = s.fab.inbox := by
  unfold State.runStats
  simp [State.runWith_inbox]

@[simp] theorem State.runAttest_inbox (s : State) (h : Nat) : (s.runAttest h).fab.inbox = s.fab.inbox := by
  unfold State.runAttest
  simp [State.runWith_inbox]

@[simp] theorem State.endLoopback_inbox (s : State) (c : Cmd) (d : Desc) (result errs : Nat) (first : Option Nat) (bytes : Nat)
    (elapsed : Option Nat) :
    (s.endLoopback c d result errs first bytes elapsed).fab.inbox = s.fab.inbox := by
  unfold State.endLoopback
  dsimp only
  (repeat' split) <;> simp

@[simp] theorem State.portLoopback_inbox (s : State) (c : Cmd) (d : Desc) : (s.portLoopback c d).fab.inbox = s.fab.inbox := by
  unfold State.portLoopback
  split <;> simp

@[simp] theorem State.echoLoopback_inbox (s : State) (c : Cmd) (d : Desc) : (s.echoLoopback c d).fab.inbox = s.fab.inbox := by
  unfold State.echoLoopback
  simp [foldl_inbox]

@[simp] theorem State.sliceLoopback_inbox (s : State) (c : Cmd) (d : Desc) : (s.sliceLoopback c d).fab.inbox = s.fab.inbox := by
  unfold State.sliceLoopback
  simp

@[simp] theorem State.runLoopback_inbox (s : State) (h : Nat) : (s.runLoopback h).fab.inbox = s.fab.inbox := by
  unfold State.runLoopback
  simp [State.runWith_inbox]

@[simp] theorem State.runDiag_inbox (s : State) (h : Nat) : (s.runDiag h).fab.inbox = s.fab.inbox := by
  unfold State.runDiag
  simp [State.runWith_inbox]

@[simp] theorem State.runCmd_inbox (s : State) (h : Nat) : (s.runCmd h).fab.inbox = s.fab.inbox := by
  unfold State.runCmd
  split <;> simp

@[simp] theorem State.runDrains_inbox (s : State) : (s.runDrains).fab.inbox = s.fab.inbox := by
  unfold State.runDrains
  simp [foldl_inbox]

@[simp] theorem State.runWaiting_inbox (s : State) : (s.runWaiting).fab.inbox = s.fab.inbox := by
  unfold State.runWaiting
  simp [foldl_inbox]

@[simp] theorem State.settle_inbox (s : State) : (s.settle).fab.inbox = s.fab.inbox := by
  unfold State.settle
  simp

@[simp] theorem State.writeRingCtrl_inbox (s : State) (n v : Nat) : (s.writeRingCtrl n v).fab.inbox = s.fab.inbox := by
  unfold State.writeRingCtrl
  simp

@[simp] theorem State.writeStop_inbox (s : State) (v : Nat) : (s.writeStop v).fab.inbox = s.fab.inbox := by
  unfold State.writeStop
  simp

@[simp] theorem State.storeRoute_inbox (s : State) (b : Nat) : (s.storeRoute b).fab.inbox = s.fab.inbox := by
  unfold State.storeRoute
  simp [foldl_inbox]

@[simp] theorem State.writeRouteCtrl_inbox (s : State) (v : Nat) : (s.writeRouteCtrl v).fab.inbox = s.fab.inbox := by
  unfold State.writeRouteCtrl
  simp

@[simp] theorem State.writeFailCtrl_inbox (s : State) (v : Nat) : (s.writeFailCtrl v).fab.inbox = s.fab.inbox := by
  unfold State.writeFailCtrl
  simp

@[simp] theorem State.installSa_inbox (s : State) (key rest : List Byte) : (s.installSa key rest).fab.inbox = s.fab.inbox := by
  unfold State.installSa
  simp

@[simp] theorem State.mbSakInstall_inbox (s : State) (len : Nat) : (s.mbSakInstall len).1.fab.inbox = s.fab.inbox := by
  unfold State.mbSakInstall
  (repeat' split) <;> simp

@[simp] theorem State.mbSakPlain_inbox (s : State) (len : Nat) : (s.mbSakPlain len).1.fab.inbox = s.fab.inbox := by
  unfold State.mbSakPlain
  simp

@[simp] theorem State.macsecPortsLeave_inbox (s : State) : (s.macsecPortsLeave).fab.inbox = s.fab.inbox := by
  unfold State.macsecPortsLeave
  simp [foldl_inbox]

@[simp] theorem State.mbZeroize_inbox (s : State) (_len : Nat) : (s.mbZeroize _len).1.fab.inbox = s.fab.inbox := by
  unfold State.mbZeroize
  simp

@[simp] theorem State.mailboxOp_inbox (s : State) (op len : Nat) : (s.mailboxOp op len).1.fab.inbox = s.fab.inbox := by
  unfold State.mailboxOp
  split <;> simp

@[simp] theorem State.mailboxGo_inbox (s : State) (op len : Nat) : (s.mailboxGo op len).fab.inbox = s.fab.inbox := by
  unfold State.mailboxGo
  split
  · exact congrArg _ (State.bump_fab ..)
  split
  · exact congrArg _ (State.setFld_fab ..)
  split
  · exact congrArg _ (State.setFld_fab ..)
  · extract_lets r
    split
    · exact (congrArg _ (State.setFld_fab ..)).trans (State.mailboxOp_inbox ..)
    · exact (congrArg _ (State.setFld_fab ..)).trans (State.mailboxOp_inbox ..)

@[simp] theorem State.writeMbox_inbox (s : State) (v : Nat) : (s.writeMbox v).fab.inbox = s.fab.inbox := by
  unfold State.writeMbox
  simp

@[simp] theorem State.failCore_inbox (s : State) (c : Nat) : (s.failCore c).fab.inbox = s.fab.inbox := by
  unfold State.failCore
  simp

@[simp] theorem State.restartCore_inbox (s : State) (c t : Nat) : (s.restartCore c t).fab.inbox = s.fab.inbox := by
  unfold State.restartCore
  split
  · rfl
  split
  · exact State.failCore_inbox ..
  · extract_lets recent s'
    have kept : s'.fab.inbox = s.fab.inbox := (congrArg _ (State.setFld_fab ..)).trans (congrArg _ (State.upSec_fab ..))
    split
    · exact (State.failCore_inbox ..).trans kept
    · exact (congrArg _ (State.setFld_fab ..)).trans kept

@[simp] theorem State.writeCore_inbox (s : State) (c v t : Nat) : (s.writeCore c v t).fab.inbox = s.fab.inbox := by
  unfold State.writeCore
  simp

@[simp] theorem State.writePortCfg_inbox (s : State) (k v : Nat) : (s.writePortCfg k v).fab.inbox = s.fab.inbox := by
  unfold State.writePortCfg
  simp

@[simp] theorem State.writeIndexed_inbox (s : State) (off v t : Nat) : (s.writeIndexed off v t).fab.inbox = s.fab.inbox := by
  unfold State.writeIndexed
  (repeat' split) <;> simp

@[simp] theorem State.writeReg_inbox (s : State) (off v : Nat) : (s.writeReg off v).fab.inbox = s.fab.inbox := by
  unfold State.writeReg
  split <;> simp

theorem State.regEntry_inbox {s : State} {src : Nat} {e : List Byte} {r : State × List Byte} (taken : s.regEntry src e = some r) :
    r.1.fab.inbox = s.fab.inbox := by
  revert taken
  unfold State.regEntry
  dsimp only
  (repeat' split) <;> intro taken <;> cases taken <;> simp

@[simp] theorem State.regEntries_inbox (s : State) (src : Nat) (es : List (List Byte)) : (s.regEntries src es).1.fab.inbox = s.fab.inbox := by
  induction es generalizing s with
  | nil => rfl
  | cons e es ih =>
    unfold State.regEntries
    split
    · rfl
    · next taken => exact (ih _).trans (State.regEntry_inbox taken)

@[simp] theorem State.recvReg_inbox (s : State) (src lane : Nat) (msg : List Byte) : (s.recvReg src lane msg).fab.inbox = s.fab.inbox := by
  unfold State.recvReg
  dsimp only
  (repeat' split) <;> simp

end Sys2Proof.Machine
end

section
/-! PROOFS. A message in turn is taken; one that is sent to a partner that can be reached stands in its flow (09 R351, R343). -/

namespace Sys2Proof.Machine

-- A received message

theorem whenAlive_of_alive {s : State} (alive : s.ctl.life = .alive) (f : State → State) : whenAlive s f = f s := by
  simp [whenAlive, State.alive, alive]

-- Taking a message from the inbox changes nothing else; stated of any state, so that no proof unfolds the state it is taken from.
theorem State.take_xchg (s : State) (src : Nat) (msg : List Byte) : (s.take src msg).fab.xchg = s.fab.xchg := rfl
theorem State.take_tab (s : State) (src : Nat) (msg : List Byte) : (s.take src msg).tab = s.tab := rfl
theorem State.take_mem (s : State) (src : Nat) (msg : List Byte) : (s.take src msg).mem = s.mem := rfl

theorem clockAt_taken {s u : State} {t : Nat} (src : Nat) (msg : List Byte) (same : u.ctl = (s.advance t).ctl) : ClockAt t s (u.take src msg) := same

theorem State.take_parts (s : State) (src : Nat) (msg : List Byte) : OnlyParts [.fab] s (s.take src msg) :=
  inv_upFab (only_closed s (by decide)) (onlyParts_refl _ s)

theorem State.take_ring (s : State) (src : Nat) (msg : List Byte) (n : Nat) : (s.take src msg).ring n = s.ring n := rfl

theorem State.take_fld (s : State) (src : Nat) (msg : List Byte) (off lo w : Nat) : (s.take src msg).fld off lo w = s.fld off lo w := rfl

theorem State.fld_advance (s : State) (t off lo w : Nat) : (s.advance t).fld off lo w = s.fld off lo w := rfl

/-- What a message taken after the clock has moved leaves alone. -/
theorem onlyParts_taken {ps qs : List StatePart} {s u : State} {t src : Nat} {msg : List Byte} (moved : OnlyParts ps (s.advance t) u)
    (within : ∀ p ∈ .ctl :: .fab :: ps, p ∈ qs) : OnlyParts qs s (u.take src msg) :=
  onlyParts_trans (onlyParts_mono (s.advance_parts t) fun p h => within p (by simp_all))
    (onlyParts_trans (onlyParts_mono moved fun p h => within p (by simp [h]))
      (onlyParts_mono (u.take_parts src msg) fun p h => within p (by simp_all)))

theorem onlyField_taken {off lo w : Nat} {s u : State} {t src : Nat} {msg : List Byte} (only : OnlyField off lo w (s.advance t) u) :
    OnlyField off lo w s (u.take src msg) := only

theorem onlyRegs_taken {l : List Nat} {s u : State} {t src : Nat} {msg : List Byte} (only : OnlyRegs l (s.advance t) u) :
    OnlyRegs l s (u.take src msg) := only

/-- A message in turn does what its code says, unless it is a request of a block held FAILED. -/
theorem State.onMsg_taken {s : State} {src mtype : Nat} {msg : List Byte} (code : mType msg = mtype) (turn : s.inTurn src msg = true)
    (heard : s.isFailed src = false ∨ 0x80 ≤ mtype) (f : State → Nat → State) :
    s.onMsg src msg mtype f = (f s (s.laneOf src msg 0)).take src msg := by
  unfold State.onMsg
  rw [if_neg (by simp [code, turn])]
  rcases heard with standing | reply
  · simp [State.unlessFailed, standing]
  · simp [Nat.not_lt.2 reply]

/-- The step of a message in turn, after the clock has moved. -/
theorem whenAlive_onMsg {s : State} {src mtype : Nat} {msg : List Byte} (alive : s.ctl.life = .alive) (code : mType msg = mtype)
    (turn : s.inTurn src msg = true) (heard : s.isFailed src = false ∨ 0x80 ≤ mtype) (t : Nat) (f : State → Nat → State) :
    whenAlive s (fun s => (s.advance t).onMsg src msg mtype f) = (f (s.advance t) (s.laneOf src msg 0)).take src msg :=
  (whenAlive_of_alive alive _).trans (State.onMsg_taken (s := s.advance t) code turn heard f)

/-- A message whose effects leave the inbox alone is consumed. -/
theorem consumed_take {src : Nat} {msg : List Byte} {s u : State} (kept : u.fab.inbox = s.fab.inbox) : Consumed src msg s (u.take src msg) := by
  unfold Consumed
  rw [← kept]
  rfl

-- The flow of a partner

/-- A change of a flow that keeps what names it is what its look-up returns. -/
theorem State.flow?_upFlow (s : State) (p l : Nat) {g : Flow → Flow}
    (named : ∀ x, (x.partner == p && x.lane == l) = true → ((g x).partner == p && (g x).lane == l) = true) :
    (s.upFlow p l g).flow? p l = (s.flow? p l).map g :=
  find?_updFirst named s.fab.flows

theorem State.flow?_named {s : State} {p l : Nat} {x : Flow} (found : s.flow? p l = some x) : (x.partner == p && x.lane == l) = true :=
  List.find?_some (p := fun x : Flow => x.partner == p && x.lane == l) found

theorem State.flow?_of_flows {s u : State} (same : u.fab.flows = s.fab.flows) (p l : Nat) : u.flow? p l = s.flow? p l := by
  unfold State.flow?
  rw [same]

theorem State.emit_flows (s : State) (port dst lane : Nat) (hdr payload : List Byte) :
    (s.emit port dst lane hdr payload).fab.flows = s.fab.flows := by
  unfold State.emit
  split
  · rfl
  · simp

theorem State.sendFrame_flows (s : State) (f : Flow) (typ flags psn : Nat) (payload : List Byte) :
    (s.sendFrame f typ flags psn payload).fab.flows = s.fab.flows := by
  unfold State.sendFrame
  split
  · rfl
  · split
    · rfl
    · exact State.emit_flows ..

theorem posted_of_flows {s u : State} {p l : Nat} {bytes : List Byte} (same : u.fab.flows = s.fab.flows) (posted : Posted p l bytes s) :
    Posted p l bytes u := by
  unfold Posted
  rwa [State.flow?_of_flows same]

/-- A change of a flow leaves a message in it that the changed flow holds. -/
theorem posted_upFlow {s : State} {p l id last : Nat} {bytes : List Byte} {f : Flow} {g : Flow → Flow} (found : s.flow? p l = some f)
    (named : ∀ x, (x.partner == p && x.lane == l) = true → ((g x).partner == p && (g x).lane == l) = true)
    (live : (id, bytes, last) ∈ (g f).live) : Posted p l bytes (s.upFlow p l g) :=
  ⟨g f, id, last, (State.flow?_upFlow s p l named).trans (congrArg _ found), live⟩

/-- A frame that leaves changes of the live messages only the frame that each last left in. -/
theorem live_sent {live : List (Nat × List Byte × Nat)} {id last : Nat} {bytes : List Byte} (waits : (id, bytes, last) ∈ live) (sent : List Nat)
    (psn : Nat) : ∃ last, (id, bytes, last) ∈ live.map (fun x => if sent.contains x.1 then (x.1, x.2.1, psn) else x) := by
  by_cases left : sent.contains id = true
  · exact ⟨psn, List.mem_map.2 ⟨_, waits, if_pos left⟩⟩
  · exact ⟨last, List.mem_map.2 ⟨_, waits, if_neg left⟩⟩

/-- A message that leaves in frames stays live until its acknowledgement. -/
theorem posted_pumpFuel {p l : Nat} {bytes : List Byte} (flush : Bool) (fuel : Nat) {s : State} (posted : Posted p l bytes s) :
    Posted p l bytes (s.pumpFuel p l flush fuel) := by
  induction fuel generalizing s with
  | zero => exact posted
  | succ fuel ih =>
    obtain ⟨f, id, last, found, live⟩ := posted
    have waits : Posted p l bytes s := ⟨f, id, last, found, live⟩
    unfold State.pumpFuel
    rw [found]
    dsimp only
    split
    · exact waits
    · refine inv_ite waits (inv_ite waits (inv_ite waits (ih ?_)))
      have ⟨last, sent⟩ := live_sent live (fillFrame s.maxPayload f.queue).2.2 (f.psn + 1)
      have named := State.flow?_named found
      exact posted_upFlow ((State.flow?_of_flows (State.sendFrame_flows ..) p l).trans found) (fun _ _ => named) sent

theorem posted_pump {s : State} {p l : Nat} {bytes : List Byte} (flush : Bool) (posted : Posted p l bytes s) :
    Posted p l bytes (s.pump p l flush) := by
  unfold State.pump
  split
  · exact posted
  · exact posted_pumpFuel flush _ posted

/-- What is added to a flow is live there. -/
theorem posted_enqueued {s : State} {p l : Nat} {f : Flow} (found : s.flow? p l = some f) (bytes : List Byte) {g : Flow → Flow}
    (adds : ∀ x, (g x).live = (x.enqueue bytes).live) (named : ∀ x, (g x).partner = x.partner ∧ (g x).lane = x.lane) :
    Posted p l bytes (s.upFlow p l g) := by
  refine posted_upFlow (id := f.msgId) (last := 0) found (fun x this => ?_) ?_
  · rw [(named x).1, (named x).2]
    exact this
  · rw [adds]
    exact List.mem_append_right _ (List.mem_singleton_self _)

theorem State.flow?_openFlow {s : State} {p l : Nat} (none_ : s.flow? p l = none) : ∃ f, (s.openFlow p l).flow? p l = some f := by
  unfold State.openFlow
  rw [State.flow?_of_flows (State.sendFrame_flows ..)]
  refine ⟨s.newFlow p l s.fab.epoch .opening, ?_⟩
  have apart : s.fab.flows.find? (fun f => f.partner == p && f.lane == l) = none := none_
  have same : (s.newFlow p l s.fab.epoch .opening).partner = p ∧ (s.newFlow p l s.fab.epoch .opening).lane = l := ⟨rfl, rfl⟩
  simp [State.flow?, State.setFlows, List.find?_append, apart, same]

theorem State.roomForFlow_below {s : State} (few : s.fab.flows.length < 8192) : s.roomForFlow = some s := if_pos few

/-- A message to a partner that can be reached stands in its flow. -/
theorem posted_send {s : State} {p l : Nat} (can : CanPost p l s) (bytes : List Byte) : Posted p l bytes (s.send p l bytes) := by
  obtain ⟨valid, route, other, room⟩ := can
  have open_ : s.flowFull p l = false := by
    rcases room with flow | few
    · simp [State.flowFull, Option.isNone_eq_false_iff.2 flow]
    · simp [State.flowFull, State.roomForFlow_below few]
  unfold State.send
  rw [if_neg (by simp [valid, route, other]), if_neg (by simp [open_])]
  unfold State.post
  cases found : s.flow? p l with
  | some f => exact posted_pump false (posted_enqueued found bytes (fun _ => rfl) fun _ => ⟨rfl, rfl⟩)
  | none =>
    have few : s.fab.flows.length < 8192 := room.resolve_left (by simp [found])
    rw [State.roomForFlow_below few]
    have ⟨f, opened⟩ := State.flow?_openFlow found
    exact posted_enqueued opened bytes (fun _ => rfl) fun _ => ⟨rfl, rfl⟩

/-- Nothing leaves a flow that is opening (09 R343). -/
theorem State.pump_opening {s : State} {p l : Nat} (opening : StillOpening p l s) (flush : Bool) : s.pump p l flush = s := by
  obtain ⟨f, found, state⟩ := opening
  unfold State.pump
  rw [found]
  unfold State.pumpFuel
  rw [found]
  dsimp only
  split
  · rfl
  · rw [if_pos (by simp [state])]

theorem stillOpening_upFlow {s : State} {p l : Nat} {f : Flow} {g : Flow → Flow} (found : s.flow? p l = some f)
    (named : ∀ x, (g x).partner = x.partner ∧ (g x).lane = x.lane) (state : (g f).st = .opening) : StillOpening p l (s.upFlow p l g) :=
  ⟨g f, (State.flow?_upFlow s p l fun x this => by rw [(named x).1, (named x).2]; exact this).trans (congrArg _ found), state⟩

theorem State.send_opening {s : State} {p l : Nat} (can : CanPost p l s) (opening : StillOpening p l s) (bytes : List Byte) :
    (s.send p l bytes).regs = s.regs := by
  obtain ⟨valid, route, other, -⟩ := can
  obtain ⟨w, found, state⟩ := opening
  unfold State.send
  rw [if_neg (by simp [valid, route, other]), if_neg (by simp [State.flowFull, found])]
  unfold State.post
  rw [found]
  refine (congrArg State.regs (State.pump_opening ?_ false)).trans rfl
  refine stillOpening_upFlow found ?_ ?_
  · exact fun _ => ⟨rfl, rfl⟩
  · simp [state]

end Sys2Proof.Machine
end

section
/-! PROOFS. Doorbells of other blocks, and the entries that leave a log when their time is over (03 R148, R361; 06 R236; 09 R359). -/

namespace Sys2Proof.Machine

-- Doorbells

/-- A doorbell of another block is in order (03 R148, 09 R360). -/
def DoorbellInOrder (s : State) (src : Nat) (msg : List Byte) : Prop :=
  let n := leAt msg 16 1
  let tail := leAt msg 20 4
  let k := leAt msg 28 2
  s.ringState n = 1 ∧ s.remoteRing n = true ∧ s.reqBlock n = src ∧ leAt msg 24 4 = (s.ring n).tail % 2 ^ s.sqLog n ∧ k ≤ 511 ∧
    msg.length = 32 + 128 * k ∧ s.tailOk n tail = true ∧ tail = ((s.ring n).tail + k) % 2 ^ (s.sqLog n + 1)

/-- A ring with the slots that a doorbell has brought. -/
def Ring.belled (r : Ring) (now m : Nat) (msg : List Byte) : Ring :=
  { r with
    tail := leAt msg 20 4
    slots := r.slots ++ (List.range (leAt msg 28 2)).map (fun j => ((r.tail + j) % m, (msg.drop (32 + 128 * j)).take 128))
    bells := r.bells ++ [(leAt msg 20 4, now)] }

theorem State.upRing_eq (s : State) (n : Nat) (f : Ring → Ring) : s.upRing n f = s.setRing n (f (s.ring n)) := rfl

theorem State.recvDoorbell_inOrder {s : State} {src : Nat} {msg : List Byte} (ring : leAt msg 16 1 < 64) (good : DoorbellInOrder s src msg)
    (slots : leAt msg 28 2 ≠ 0) :
    s.recvDoorbell src msg =
      s.upRing (leAt msg 16 1) (fun r => r.belled s.ctl.now (2 ^ (s.sqLog (leAt msg 16 1) + 1)) msg) := by
  unfold State.recvDoorbell
  refine (if_neg (Nat.not_le.2 ring)).trans ((if_pos good).trans ?_)
  simp only [if_neg slots, State.upRing_eq, Ring.belled]

theorem State.recvDoorbell_bad {s : State} {src : Nat} {msg : List Byte} (ring : leAt msg 16 1 < 64) (bad : ¬ DoorbellInOrder s src msg) :
    s.recvDoorbell src msg = s.dbErr (leAt msg 16 1) := by
  unfold State.recvDoorbell
  exact (if_neg (Nat.not_le.2 ring)).trans (if_neg bad)

theorem State.recvDoorbell_fab (s : State) (src : Nat) (msg : List Byte) : (s.recvDoorbell src msg).fab = s.fab :=
  inv_recvDoorbell (keepsFab s rfl) rfl

theorem State.recvDoorbell_ctl (s : State) (src : Nat) (msg : List Byte) : (s.recvDoorbell src msg).ctl = s.ctl := by
  refine ((inv_recvDoorbell (only_closed s ?_) (onlyParts_refl [.regs, .rings] s)).ctl.resolve_left ?_)
  all_goals decide

theorem State.upRing_parts (s : State) (n : Nat) (f : Ring → Ring) : OnlyParts [.rings] s (s.upRing n f) :=
  inv_upRing (only_closed s (by decide)) (onlyParts_refl _ s)

/-- A doorbell out of order adds 1 to DB_ERR, which saturates (03 R143). -/
theorem State.dbErr_counted (s : State) (n : Nat) :
    (s.dbErr n).fld (RF_STATUS n) 10 16 = min (s.fld (RF_STATUS n) 10 16 + 1) 0xFFFF ∧ OnlyField (RF_STATUS n) 10 16 s (s.dbErr n) ∧
      OnlyRegs [RF_STATUS n] s (s.dbErr n) ∧ OnlyParts [.regs] s (s.dbErr n) := by
  have ⟨field, only, regs, parts⟩ := s.setFld_only (RF_STATUS n) 10 16 (min (s.fld (RF_STATUS n) 10 16 + 1) 0xFFFF) (by decide)
  have fits : min (s.fld (RF_STATUS n) 10 16 + 1) 0xFFFF < 2 ^ 16 := Nat.lt_of_le_of_lt (Nat.min_le_right _ _) (by decide)
  rw [Nat.mod_eq_of_lt fits] at field
  exact ⟨field, only, regs, parts⟩
theorem exec_remoteDoorbell {src : BitVec 15} {msg : List Byte} {s : State} (alive : s.ctl.life = .alive) (code : mType msg = 0x06)
    (turn : s.inTurn src.toNat msg = true) (standing : s.isFailed src.toNat = false) (t : Nat) :
    exec (.remoteDoorbell src msg t) s = .next (((s.advance t).recvDoorbell src.toNat msg).take src.toNat msg) :=
  congrArg _ (whenAlive_onMsg alive code turn (.inl standing) t fun u _ => u.recvDoorbell src.toNat msg)

theorem remoteDoorbell_taken {src : BitVec 15} {msg : List Byte} {s : State} (alive : s.ctl.life = .alive) (code : mType msg = 0x06)
    (turn : s.inTurn src.toNat msg = true) (standing : s.isFailed src.toNat = false) (t : Nat) (below : leAt msg 16 1 < 64) :
    let n := leAt msg 16 1
    ∃ u, exec (.remoteDoorbell src msg t) s = .next u ∧ ClockAt t s u ∧ Consumed src.toNat msg s u ∧
      (DoorbellInOrder s src.toNat msg → leAt msg 28 2 ≠ 0 →
        u.ring n = (s.ring n).belled (max s.ctl.now t) (2 ^ (s.sqLog n + 1)) msg ∧ OnlyRing n s u ∧ OnlyParts [.ctl, .rings, .fab] s u) ∧
      (¬ DoorbellInOrder s src.toNat msg → u.fld (RF_STATUS n) 10 16 = min (s.fld (RF_STATUS n) 10 16 + 1) 0xFFFF ∧
        OnlyField (RF_STATUS n) 10 16 s u ∧ OnlyRegs [RF_STATUS n] s u ∧ OnlyParts [.ctl, .regs, .fab] s u) := by
  intro n
  refine ⟨_, exec_remoteDoorbell alive code turn standing t, clockAt_of_advance (State.recvDoorbell_ctl ..),
    consumed_take (congrArg Fabric.inbox (State.recvDoorbell_fab ..)), fun good slots => ?_, fun bad => ?_⟩
  · rw [State.recvDoorbell_inOrder (s := s.advance t) below good slots]
    refine ⟨?_, fun j other => ?_, onlyParts_taken (State.upRing_parts ..) (by decide)⟩
    · rw [State.take_ring, State.ring_upRing, if_pos rfl]
      rfl
    · rw [State.take_ring, State.ring_upRing, if_neg other]
      rfl
  · rw [State.recvDoorbell_bad (s := s.advance t) below bad]
    have ⟨field, only, regs, moved⟩ := (s.advance t).dbErr_counted n
    rw [State.fld_advance] at field
    exact ⟨(State.take_fld ..).trans field, onlyField_taken only, onlyRegs_taken regs, onlyParts_taken moved (by decide)⟩

-- What leaves a log

theorem State.sweepWaits_none {s : State} (none_ : s.tab.addWaits = []) : s.sweepWaits = s := by
  unfold State.sweepWaits
  rw [none_, List.filterMap_eq_nil_iff.2]
  · rfl
  · intro x _
    split
    · rfl
    · rfl

theorem recentAddLogExpiry_taken {s : State} (alive : s.ctl.life = .alive) (none_ : s.tab.addWaits = []) (t : Nat) :
    ∃ u, exec (.recentAddLogExpiry t) s = .next u ∧ ClockAt t s u ∧
      u.tab = { s.tab with recent := s.tab.recent.filter (fun e => decide (max s.ctl.now t < e.2.2.2 + 2 * Sys2Proof.sec)) } ∧
      OnlyParts [.ctl, .tab] s u := by
  let kept := (s.advance t).upTab fun x => { x with recent := x.recent.filter fun e => decide (max s.ctl.now t < e.2.2.2 + 2 * Sys2Proof.sec) }
  have step : exec (.recentAddLogExpiry t) s = .next kept :=
    congrArg _ ((whenAlive_of_alive alive _).trans (State.sweepWaits_none (s := kept) none_))
  refine ⟨kept, step, clockAt_of_advance rfl, rfl, ?_⟩
  exact onlyParts_trans (onlyParts_mono (s.advance_parts t) (by decide)) (inv_upTab (only_closed _ (by decide)) (onlyParts_refl _ _))

theorem regReply_dropped {src : BitVec 15} {msg : List Byte} {s : State} (alive : s.ctl.life = .alive) (code : mType msg = 0x87)
    (turn : s.inTurn src.toNat msg = true) : exec (.regReply src msg) s = .next (s.take src.toNat msg) :=
  congrArg _ ((whenAlive_of_alive alive _).trans (State.onMsg_taken code turn (.inr (by decide)) _))

theorem regReplyRetentionExpiry_taken {s : State} (alive : s.ctl.life = .alive) (t : Nat) :
    ∃ u, exec (.regReplyRetentionExpiry t) s = .next u ∧ ClockAt t s u ∧
      u.fab = { s.fab with regReplies := s.fab.regReplies.filter (fun x => decide (t < x.2.2.2 + 2 * Sys2Proof.sec)) } ∧
      OnlyParts [.ctl, .fab] s u := by
  let kept := (s.advance t).upFab fun f => { f with regReplies := f.regReplies.filter fun x => decide (t < x.2.2.2 + 2 * Sys2Proof.sec) }
  have step : exec (.regReplyRetentionExpiry t) s = .next kept := congrArg _ (whenAlive_of_alive alive _)
  refine ⟨kept, step, clockAt_of_advance rfl, rfl, ?_⟩
  exact onlyParts_trans (onlyParts_mono (s.advance_parts t) (by decide)) (inv_upFab (only_closed _ (by decide)) (onlyParts_refl _ _))

end Sys2Proof.Machine
end

section
/-! PROOFS. Register accesses of other blocks and the store of their replies (09 R353, R358, R359). -/

namespace Sys2Proof.Machine

-- What a reply that is sent finds

theorem canPost_of {s u : State} {p l : Nat} (can : CanPost p l s) (block : u.reg CC_BLOCK_ID = s.reg CC_BLOCK_ID)
    (routes : u.fab.routes = s.fab.routes) (flows : u.fab.flows = s.fab.flows) : CanPost p l u := by
  have valid : u.valid = s.valid := congrArg (bit · 15) block
  have id : u.id = s.id := congrArg (bits · 0 15) block
  have route : u.noRoute p = s.noRoute p := by
    unfold State.noRoute State.routeBit State.route
    rw [routes]
  unfold CanPost
  rw [valid, id, route, flows, State.flow?_of_flows flows]
  exact can

theorem stillOpening_of {s u : State} {p l : Nat} (opening : StillOpening p l s) (flows : u.fab.flows = s.fab.flows) : StillOpening p l u := by
  unfold StillOpening
  rw [State.flow?_of_flows flows]
  exact opening

theorem posted_take {u : State} {p l src : Nat} {bytes msg : List Byte} (posted : Posted p l bytes u) : Posted p l bytes (u.take src msg) :=
  posted_of_flows rfl posted

theorem State.sendFrame_regReplies (s : State) (f : Flow) (typ flags psn : Nat) (payload : List Byte) :
    (s.sendFrame f typ flags psn payload).fab.regReplies = s.fab.regReplies := by
  unfold State.sendFrame State.emit
  (repeat' split) <;> simp

theorem State.pumpFuel_regReplies (p l : Nat) (flush : Bool) (fuel : Nat) (s : State) :
    (s.pumpFuel p l flush fuel).fab.regReplies = s.fab.regReplies := by
  induction fuel generalizing s with
  | zero => rfl
  | succ fuel ih =>
    unfold State.pumpFuel
    dsimp only
    (repeat' split) <;> simp [ih, State.upFlow, State.sendFrame_regReplies]

theorem State.pump_regReplies (s : State) (p l : Nat) (flush : Bool) : (s.pump p l flush).fab.regReplies = s.fab.regReplies := by
  unfold State.pump
  split
  · rfl
  · exact State.pumpFuel_regReplies ..

/-- A message that is sent changes no stored reply. -/
theorem State.send_regReplies {s : State} {p l : Nat} (can : CanPost p l s) (bytes : List Byte) :
    (s.send p l bytes).fab.regReplies = s.fab.regReplies := by
  obtain ⟨valid, route, other, room⟩ := can
  unfold State.send State.post
  rw [if_neg (by simp [valid, route, other])]
  cases found : s.flow? p l with
  | some f =>
    rw [if_neg (by simp [State.flowFull, found])]
    exact State.pump_regReplies ..
  | none =>
    have few : s.fab.flows.length < 8192 := room.resolve_left (by simp [found])
    rw [State.roomForFlow_below few, if_neg (by simp [State.flowFull, State.roomForFlow_below few])]
    exact State.sendFrame_regReplies ..

-- One entry

theorem State.regEntry_write {s : State} {src : Nat} {e : List Byte} (alive : s.ctl.life = .alive) (level : 2 ≤ s.raLevel src)
    (plain : leAt e 4 1 ≠ 1) (write : leAt e 5 1 = 1) (aligned : leAt e 0 4 % 8 = 0) (ready : s.fwReady = true) :
    s.regEntry src e = some (s.writeReg (leAt e 0 4) (leAt e 8 8), e) := by
  have allowed : s.levelOk (.reg src) (leAt e 0 4) (leAt e 8 8) = true := by simp [State.levelOk, level]
  have taken : s.writable (.reg src) (leAt e 0 4) (leAt e 8 8) = true := by simp [State.writable, alive, ready, allowed]
  unfold State.regEntry
  simp [plain, write, allowed, aligned, taken]

theorem State.regEntry_read {s : State} {src : Nat} {e : List Byte} (plain : leAt e 4 1 ≠ 1) (read : leAt e 5 1 ≠ 1)
    (aligned : leAt e 0 4 % 8 = 0) (apart : ringOfOff (leAt e 0 4) = none) :
    s.regEntry src e = some (s, e.take 8 ++ leBytes 8 (s.readReg (leAt e 0 4))) := by
  unfold State.regEntry State.readEffect
  simp [plain, read, aligned, apart]

theorem chunks_single {e : List Byte} (some_ : e ≠ []) : chunks e.length e = [e] := by
  obtain ⟨b, bs, rfl⟩ := List.exists_cons_of_ne_nil some_
  have cut : max (b :: bs).length 1 = (b :: bs).length := by simp
  unfold chunks
  rw [cut]
  cases bs <;> simp [chunksFuel]

-- The message

/-- The store with a reply to a source: it keeps the 64 newest of that source (09 R359). -/
def State.keepReply (s : State) (src xid : Nat) (reply : List Byte) : State :=
  s.upFab (fun f =>
    let mine := f.regReplies.filter (fun x => x.1 == src)
    { f with regReplies := f.regReplies.filter (fun x => x.1 != src) ++ mine.drop (mine.length - 63) ++ [(src, xid, reply, s.ctl.now)] })

theorem State.recvReg_repeat {s : State} {src lane : Nat} {msg : List Byte} {x : Nat × Nat × List Byte × Nat}
    (stored : s.fab.regReplies.find? (fun x => x.1 == src && x.2.1 == mXid msg && decide (s.ctl.now < x.2.2.2 + 2 * Sys2Proof.sec)) = some x) :
    s.recvReg src lane msg = s.send src lane x.2.2.1 := by
  unfold State.recvReg
  dsimp only
  rw [stored]

/-- The reply to a REG message of one entry. -/
def regReplyTo (msg : List Byte) (status : Nat) (out : List Byte) : List Byte :=
  mkMsg 0x87 status (mHandle msg) (mXid msg) ((msg.drop 16).take 16 ++ out)

theorem State.recvReg_single {s : State} {src lane : Nat} {msg : List Byte} (fresh : ∀ x ∈ s.fab.regReplies, x.1 ≠ src)
    (one : leAt msg 16 4 = 1) (length : msg.length = 48) :
    s.recvReg src lane msg =
      let r := if s.raLevel src = 0 then (s, msg.drop 32, false) else s.regEntries src [msg.drop 32]
      let reply := regReplyTo msg (if r.2.2 then 0 else sDenied) r.2.1
      ((if r.2.2 then r.1 else r.1.bump FP_RA_DENY 1).keepReply src (mXid msg) reply).send src lane reply := by
  have none_ : s.fab.regReplies.find? (fun x => x.1 == src && x.2.1 == mXid msg && decide (s.ctl.now < x.2.2.2 + 2 * Sys2Proof.sec)) = none :=
    List.find?_eq_none.2 fun x mem => by simp [fresh x mem]
  unfold State.recvReg
  dsimp only
  have entry : chunks 16 (msg.drop 32) = [msg.drop 32] := by
    have long : (msg.drop 32).length = 16 := by simp [length]
    rw [← long]
    exact chunks_single (List.ne_nil_of_length_pos (by omega))
  rw [none_, one, length, entry]
  rfl

theorem State.regEntries_single {s u : State} {src : Nat} {e out : List Byte} (taken : s.regEntry src e = some (u, out)) :
    s.regEntries src [e] = (u, out, true) := by
  simp [State.regEntries, taken]

/-- A message of one entry at level 0 is denied. -/
theorem State.recvReg_denied {s : State} {src lane : Nat} {msg : List Byte} (fresh : ∀ x ∈ s.fab.regReplies, x.1 ≠ src)
    (one : leAt msg 16 4 = 1) (length : msg.length = 48) (level : s.raLevel src = 0) :
    s.recvReg src lane msg =
      ((s.bump FP_RA_DENY 1).keepReply src (mXid msg) (regReplyTo msg sDenied (msg.drop 32))).send src lane
        (regReplyTo msg sDenied (msg.drop 32)) := by
  rw [State.recvReg_single fresh one length, if_pos level]
  rfl

/-- A message of one entry that is allowed is answered with what it has read. -/
theorem State.recvReg_allowed {s u : State} {src lane : Nat} {msg out : List Byte} (fresh : ∀ x ∈ s.fab.regReplies, x.1 ≠ src)
    (one : leAt msg 16 4 = 1) (length : msg.length = 48) (level : 2 ≤ s.raLevel src) (taken : s.regEntry src (msg.drop 32) = some (u, out)) :
    s.recvReg src lane msg = (u.keepReply src (mXid msg) (regReplyTo msg 0 out)).send src lane (regReplyTo msg 0 out) := by
  rw [State.recvReg_single fresh one length, if_neg (by omega), State.regEntries_single taken]
  rfl

/-- A reply that is kept and sent: it stands in the flow, and while the flow is opening no register differs. -/
theorem keepReply_sent {s u : State} {src lane xid : Nat} {msg : List Byte} (reply : List Byte) (can : CanPost src lane s)
    (block : u.reg CC_BLOCK_ID = s.reg CC_BLOCK_ID) (fab : u.fab = s.fab) :
    Posted src lane reply (((u.keepReply src xid reply).send src lane reply).take src msg) ∧
      (StillOpening src lane s → (((u.keepReply src xid reply).send src lane reply).take src msg).regs = u.regs) := by
  have flows : (u.keepReply src xid reply).fab.flows = s.fab.flows := (congrArg Fabric.flows fab :)
  have routes : (u.keepReply src xid reply).fab.routes = s.fab.routes := (congrArg Fabric.routes fab :)
  have kept : CanPost src lane (u.keepReply src xid reply) :=
    canPost_of can block routes flows
  refine ⟨posted_take (posted_send kept reply), fun opening => ?_⟩
  exact State.send_opening kept (stillOpening_of opening flows) reply

theorem byFieldsAlone_ne_blockId {s : State} {off : Nat} (free : byFieldsAlone s off = true) : off ≠ CC_BLOCK_ID := by
  rintro rfl
  have ruled : byFieldsAlone s CC_BLOCK_ID = false := by
    have apart : ringOfOff CC_BLOCK_ID = none := by decide
    simp [byFieldsAlone, apart, ruledRegs]
  simp [ruled] at free

theorem fieldsTaken_of_regs {off v : Nat} {s u w : State} (taken : FieldsTaken off v s u) (same : w.regs = u.regs) : FieldsTaken off v s w := by
  have reg (x : Nat) : w.reg x = u.reg x := by
    unfold State.reg
    rw [same]
  refine ⟨fun d at_ x mem => ?_, fun i apart => ?_, fun x other => ?_⟩
  · exact (congrArg (bits · x.lo x.w) (reg off)).trans (taken.fields d at_ x mem)
  · rw [reg]
    exact taken.reserved i apart
  · rw [reg]
    exact taken.others x other

theorem fieldsTaken_advance {off v t : Nat} {s u : State} (taken : FieldsTaken off v (s.advance t) u) : FieldsTaken off v s u :=
  ⟨taken.fields, taken.reserved, taken.others⟩

theorem exec_reg {src : BitVec 15} {msg : List Byte} {lane : Nat} {s : State} (alive : s.ctl.life = .alive)
    (asked : Requested src.toNat 0x07 msg lane s) (t : Nat) :
    exec (.reg src msg t) s = .next (((s.advance t).recvReg src.toNat lane msg).take src.toNat msg) := by
  obtain ⟨code, turn, standing, rfl, -⟩ := asked
  exact congrArg _ (whenAlive_onMsg alive code turn (.inl standing) t fun u lane => u.recvReg src.toNat lane msg)

theorem readReg_advance (s : State) (t : Nat) {off : Nat} (apart : off ≠ TT_UPTIME) : (s.advance t).readReg off = s.readReg off := by
  unfold State.readReg
  rw [if_neg apart, if_neg apart]
  rfl

theorem reg_taken {src : BitVec 15} {msg : List Byte} {lane : Nat} {s : State} (alive : s.ctl.life = .alive)
    (asked : Requested src.toNat 0x07 msg lane s) (t : Nat) :
    ∃ u, exec (.reg src msg t) s = .next u ∧ Consumed src.toNat msg s u ∧
      (∀ x, s.fab.regReplies.find? (fun x => x.1 == src.toNat && x.2.1 == mXid msg &&
          decide (max s.ctl.now t < x.2.2.2 + 2 * Sys2Proof.sec)) = some x →
        Posted src.toNat lane x.2.2.1 u ∧ u.fab.regReplies = s.fab.regReplies ∧ (StillOpening src.toNat lane s → u.regs = s.regs)) ∧
      ((∀ x ∈ s.fab.regReplies, x.1 ≠ src.toNat) → leAt msg 16 4 = 1 → msg.length = 48 →
        let e := msg.drop 32
        let reply := fun st out => mkMsg 0x87 st (mHandle msg) (mXid msg) ((msg.drop 16).take 16 ++ out)
        (s.raLevel src.toNat = 0 → Posted src.toNat lane (reply sDenied e) u ∧ (StillOpening src.toNat lane s → OnlyRegs [FP_RA_DENY] s u)) ∧
        (2 ≤ s.raLevel src.toNat → leAt e 4 1 ≠ 1 → leAt e 5 1 = 1 → leAt e 0 4 % 8 = 0 → leAt e 0 4 < 2 ^ 20 → s.fwReady = true →
          byFieldsAlone s (leAt e 0 4) = true → Posted src.toNat lane (reply 0 e) u ∧
          (StillOpening src.toNat lane s → FieldsTaken (leAt e 0 4) (leAt e 8 8) s u)) ∧
        (2 ≤ s.raLevel src.toNat → leAt e 4 1 ≠ 1 → leAt e 5 1 ≠ 1 → leAt e 0 4 % 8 = 0 → ringOfOff (leAt e 0 4) = none →
          leAt e 0 4 ≠ TT_UPTIME →
          Posted src.toNat lane (reply 0 (e.take 8 ++ leBytes 8 (s.readReg (leAt e 0 4)))) u ∧
          (StillOpening src.toNat lane s → u.regs = s.regs))) := by
  have ⟨_, _, _, _, can⟩ := asked
  have can : CanPost src.toNat lane (s.advance t) := can
  refine ⟨_, exec_reg alive asked t, consumed_take (State.recvReg_inbox ..), fun x stored => ?_,
    fun fresh one length => ⟨fun level => ?_, ?_, ?_⟩⟩
  · rw [State.recvReg_repeat (s := s.advance t) stored]
    refine ⟨posted_take (posted_send can _), ?_, fun opening => State.send_opening can opening _⟩
    exact State.send_regReplies can _
  · rw [State.recvReg_denied (s := s.advance t) fresh one length level]
    have denied : OnlyRegs [FP_RA_DENY] s ((s.advance t).bump FP_RA_DENY 1) := (s.advance t).bump_regs _ _
    have ⟨posted, regs⟩ := keepReply_sent (xid := mXid msg) (msg := msg) (regReplyTo msg sDenied (msg.drop 32)) can
      (denied CC_BLOCK_ID (by decide)) (State.bump_fab ..)
    exact ⟨posted, fun opening => onlyRegs_trans denied (onlyRegs_of_regs (regs opening))⟩
  · intro level plain write aligned _ ready free
    have level : 2 ≤ (s.advance t).raLevel src.toNat := level
    have written := fieldsTaken_advance (State.writeFields_taken (s.advance t) (leAt (msg.drop 32) 0 4) (leAt (msg.drop 32) 8 8))
    have step := State.regEntry_write (s := s.advance t) alive level plain write aligned ready
    rw [State.writeReg_byFields (s.advance t) _ _ free] at step
    rw [State.recvReg_allowed (s := s.advance t) fresh one length level step]
    have ⟨posted, regs⟩ := keepReply_sent (xid := mXid msg) (msg := msg) (regReplyTo msg 0 (msg.drop 32)) can
      (written.others CC_BLOCK_ID (by simpa using (byFieldsAlone_ne_blockId free).symm)) ((State.writeFields_parts ..).fab.resolve_left (by decide))
    exact ⟨posted, fun opening => fieldsTaken_of_regs written (regs opening)⟩
  · intro level plain read aligned apart other
    have level : 2 ≤ (s.advance t).raLevel src.toNat := level
    have step := State.regEntry_read (s := s.advance t) (src := src.toNat) plain read aligned apart
    rw [readReg_advance s t other] at step
    rw [State.recvReg_allowed (s := s.advance t) fresh one length level step]
    exact keepReply_sent _ can rfl rfl

end Sys2Proof.Machine
end

section
/-! PROOFS. The acknowledgement of an add clears the adds that it answers from the journal (06 R249). -/

namespace Sys2Proof.Machine

-- The journal

/-- Erasing one by one what a list holds of a kind leaves the others, in their order. -/
theorem foldl_erase_filter {α : Type} [BEq α] [LawfulBEq α] (p : α → Bool) (l kept : List α) (apart : ∀ x ∈ kept, p x = false) :
    (l.filter p).foldl List.erase (kept ++ l) = kept ++ l.filter (fun x => !p x) := by
  induction l generalizing kept with
  | nil => simp
  | cons x xs ih =>
    cases hp : p x with
    | true =>
      have new : x ∉ kept := fun mem => by simp [apart x mem] at hp
      simp [hp, List.erase_append_right _ new, ih kept apart]
    | false =>
      have step := ih (kept ++ [x]) (by simpa [or_imp, forall_and, hp] using apart)
      simpa [hp] using step

theorem mem_updFirst {α : Type} {p : α → Bool} {f : α → α} {l : List α} {y : α} (mem : y ∈ updFirst p f l) :
    ∃ x ∈ l, y = x ∨ y = f x := by
  induction l with
  | nil => simp [updFirst] at mem
  | cons x xs ih =>
    unfold updFirst at mem
    split at mem
    · rcases List.mem_cons.1 mem with rfl | rest
      · exact ⟨x, List.mem_cons_self, .inr rfl⟩
      · exact ⟨y, List.mem_cons_of_mem _ rest, .inl rfl⟩
    · rcases List.mem_cons.1 mem with rfl | rest
      · exact ⟨y, List.mem_cons_self, .inl rfl⟩
      · obtain ⟨z, old, same⟩ := ih rest
        exact ⟨z, List.mem_cons_of_mem _ old, same⟩

/-- What an acknowledgement without drops does to one of its adds that no wait holds: it leaves the journal, with its findings for the command. -/
theorem State.clearEntry_plain (s : State) (src findings : Nat) {e : JEntry} (free : e.wait = none) :
    s.clearEntry src findings [] e =
      (s.upTab fun t => { t with journal := t.journal.erase e }).upCmd e.handle
        (fun c => { c with flags := c.flags ||| findings, events := c.events ++ [] }) := by
  unfold State.clearEntry
  simp only [lookupBy, free]

/-- A state from which adds have been cleared: the tables differ in the journal, and the commands in what they report. -/
structure Cleared (l : List JEntry) (s u : State) : Prop where
  tab : u.tab = { s.tab with journal := l.foldl List.erase s.tab.journal }
  phases : ∀ d ∈ u.cmds, ∃ c ∈ s.cmds, d.phase = c.phase
  parts : OnlyParts [.cmds, .tab] s u

theorem State.clearEntry_cleared (s : State) (src findings : Nat) {e : JEntry} (free : e.wait = none) :
    Cleared [e] s (s.clearEntry src findings [] e) := by
  rw [State.clearEntry_plain s src findings free]
  refine ⟨rfl, fun d mem => ?_, inv_upCmd (only_closed s (by decide)) (inv_upTab (only_closed s (by decide)) (onlyParts_refl _ s))⟩
  obtain ⟨c, old, rfl | rfl⟩ := mem_updFirst mem
  · exact ⟨d, old, rfl⟩
  · exact ⟨c, old, rfl⟩

theorem State.clearEntries_cleared (src findings : Nat) (l : List JEntry) (free : ∀ e ∈ l, e.wait = none) (s : State) :
    Cleared l s (l.foldl (fun s e => s.clearEntry src findings [] e) s) := by
  induction l generalizing s with
  | nil => exact ⟨rfl, fun d mem => ⟨d, mem, rfl⟩, onlyParts_refl _ s⟩
  | cons e l ih =>
    have first := s.clearEntry_cleared src findings (free e List.mem_cons_self)
    have rest := ih (fun x mem => free x (List.mem_cons_of_mem _ mem)) (s.clearEntry src findings [] e)
    refine ⟨?_, fun d mem => ?_, onlyParts_trans first.parts rest.parts⟩
    · rw [List.foldl_cons, rest.tab, first.tab]
      rfl
    · obtain ⟨c, mid, phase⟩ := rest.phases d mem
      obtain ⟨b, old, phase'⟩ := first.phases c mid
      exact ⟨b, old, phase.trans phase'⟩

theorem quiet_of_cleared {l : List JEntry} {s u : State} (cleared : Cleared l s u) (quiet : Quiet s) : Quiet u := by
  have fab := cleared.parts.fab.resolve_left (by decide)
  have spine := cleared.parts.spine.resolve_left (by decide)
  refine ⟨fun d mem => ?_, ?_, ?_, ?_, fab ▸ quiet.lb, spine ▸ quiet.notify⟩
  · obtain ⟨c, old, phase⟩ := cleared.phases d mem
    exact phase ▸ quiet.cmds c old
  · rw [cleared.tab]; exact quiet.ops
  · rw [cleared.tab]; exact quiet.owed
  · rw [cleared.tab]; exact quiet.carries

theorem State.retryCarries_none {s : State} (none_ : s.tab.carries = []) : s.retryCarries = s := by
  unfold State.retryCarries
  rw [none_]
  rfl

/-- An acknowledgement without drops, of adds that no wait holds. -/
theorem State.recvAddAck_clears {s : State} {src : Nat} {msg : List Byte} {x : Xchg} (found : s.xchg? src (mXid msg) = some x)
    (kind : x.kind = .add) (ok : mStatus msg = 0) (whole : leAt msg 18 2 = 0) :
    s.recvAddAck src msg = ((s.tab.journal.filter fun j => j.xid == x.xid && j.owner == src).foldl
      (fun s e => s.clearEntry src (leAt msg 20 1) [] e) (s.dropXchg x.xid)).retryCarries.syncJournal := by
  have none_ : ackDrops msg = [] := by simp [ackDrops, whole]
  have granted : mStatus msg ≠ sDenied := by rw [ok]; decide
  unfold State.recvAddAck
  rw [found]
  dsimp only
  rw [if_neg (by simp [kind]), if_neg granted, none_]

theorem State.syncJournal_parts (s : State) : OnlyParts [.regs] s s.syncJournal :=
  inv_syncJournal (only_closed s (by decide)) (onlyParts_refl _ s)

theorem State.syncJournal_regs (s : State) : OnlyRegs [MT_JOURNAL_USED] s s.syncJournal := s.setFld_regs _ _ _ _

theorem quiet_of_same {s u : State} (quiet : Quiet s) (cmds : u.cmds = s.cmds) (tab : u.tab = s.tab) (lb : u.fab.lb = s.fab.lb)
    (spine : u.spine = s.spine) : Quiet u :=
  ⟨cmds ▸ quiet.cmds, tab ▸ quiet.ops, tab ▸ quiet.owed, tab ▸ quiet.carries, lb ▸ quiet.lb, spine ▸ quiet.notify⟩

theorem State.syncJournal_quiet {s : State} (quiet : Quiet s) : Quiet s.syncJournal := by
  have parts := s.syncJournal_parts
  exact quiet_of_same quiet (parts.cmds.resolve_left (by decide)) (parts.tab.resolve_left (by decide))
    (congrArg Fabric.lb (parts.fab.resolve_left (by decide))) (parts.spine.resolve_left (by decide))

theorem exec_addAck {src : BitVec 15} {msg : List Byte} {s : State} (alive : s.ctl.life = .alive) (code : mType msg = 0x83)
    (turn : s.inTurn src.toNat msg = true) (t : Nat) :
    exec (.addAck src msg t) s = .next (((s.advance t).recvAddAck src.toNat msg).settle.take src.toNat msg) := by
  have arm : exec (.addAck src msg t) s =
      .next (whenAlive s fun s => (s.advance t).onMsg src.toNat msg 0x83 fun s _ => (s.recvAddAck src.toNat msg).settle) := rfl
  rw [arm, whenAlive_onMsg alive code turn (.inr (by decide)) t fun u _ => (u.recvAddAck src.toNat msg).settle]

theorem addAck_taken {src : BitVec 15} {msg : List Byte} {x : Xchg} {s : State} (alive : s.ctl.life = .alive) (quiet : Quiet s)
    (code : mType msg = 0x83) (turn : s.inTurn src.toNat msg = true) (found : s.xchg? src.toNat (mXid msg) = some x) (kind : x.kind = .add)
    (ok : mStatus msg = 0) (whole : leAt msg 18 2 = 0)
    (free : ∀ j ∈ s.tab.journal, j.xid = x.xid → j.owner = src.toNat → j.wait = none) (t : Nat) :
    ∃ u, exec (.addAck src msg t) s = .next u ∧ ClockAt t s u ∧ Consumed src.toNat msg s u ∧
      u.tab = { s.tab with journal := s.tab.journal.filter (fun j => !(j.xid == x.xid && j.owner == src.toNat)) } ∧
      u.fab.xchg = s.fab.xchg.filter (fun y => y.xid != x.xid) ∧ OnlyRegs [MT_JOURNAL_USED] s u ∧
      OnlyParts [.ctl, .regs, .cmds, .tab, .fab] s u := by
  let mine := s.tab.journal.filter fun j => j.xid == x.xid && j.owner == src.toNat
  let dropped := (s.advance t).dropXchg x.xid
  let cleared := mine.foldl (fun s e => s.clearEntry src.toNat (leAt msg 20 1) [] e) dropped
  have done : Cleared mine dropped cleared := by
    refine State.clearEntries_cleared _ _ mine (fun e mem => ?_) dropped
    simp only [mine, List.mem_filter, Bool.and_eq_true, beq_iff_eq] at mem
    exact free e mem.1 mem.2.1 mem.2.2
  have calm : Quiet cleared := quiet_of_cleared done (quiet_of_same quiet rfl rfl rfl rfl)
  have step : ((s.advance t).recvAddAck src.toNat msg).settle = cleared.syncJournal := by
    have answer : (s.advance t).recvAddAck src.toNat msg = cleared.retryCarries.syncJournal :=
      State.recvAddAck_clears (s := s.advance t) found kind ok whole
    rw [answer, State.retryCarries_none calm.carries, State.settle_quiet _ (State.syncJournal_quiet calm)]
  have parts : OnlyParts [.regs, .cmds, .tab, .fab] (s.advance t) cleared.syncJournal := by
    have exchange : OnlyParts [.fab] (s.advance t) dropped := inv_upFab (only_closed _ (by decide)) (onlyParts_refl _ _)
    exact onlyParts_trans (onlyParts_mono exchange (by decide))
      (onlyParts_trans (onlyParts_mono done.parts (by decide)) (onlyParts_mono cleared.syncJournal_parts (by decide)))
  have synced := cleared.syncJournal_parts
  have fab : cleared.syncJournal.fab = dropped.fab :=
    (synced.fab.resolve_left (by decide)).trans (done.parts.fab.resolve_left (by decide))
  have tab : cleared.syncJournal.tab = { s.tab with journal := s.tab.journal.filter fun j => !(j.xid == x.xid && j.owner == src.toNat) } :=
    (synced.tab.resolve_left (by decide)).trans (done.tab.trans
      (congrArg (fun journal => { s.tab with journal := journal }) (foldl_erase_filter _ s.tab.journal [] (by simp))))
  have regs : OnlyRegs [MT_JOURNAL_USED] (s.advance t) cleared.syncJournal :=
    onlyRegs_trans (onlyRegs_of_regs (done.parts.regs.resolve_left (by decide))) cleared.syncJournal_regs
  have taken := exec_addAck alive code turn t
  rw [step] at taken
  exact ⟨_, taken, clockAt_taken _ _ (parts.ctl.resolve_left (by decide)), consumed_take (congrArg Fabric.inbox fab :),
    (State.take_tab ..).trans tab, (State.take_xchg ..).trans (congrArg Fabric.xchg fab :), onlyRegs_taken regs, onlyParts_taken parts (by decide)⟩

end Sys2Proof.Machine
end

section
/-! PROOFS. What an add that is applied here leaves alone (05 R223, 06 R236). -/

namespace Sys2Proof.Machine

/-- The tables differ at most in their groups, and the block keeps its identity. -/
def AddKept (s u : State) : Prop := (∃ groups, u.tab = { s.tab with groups := groups }) ∧ u.reg CC_BLOCK_ID = s.reg CC_BLOCK_ID

theorem addKept_refl (s : State) : AddKept s s := ⟨⟨s.tab.groups, rfl⟩, rfl⟩

theorem addKept_closed (s : State) : Closed 0x8204 (AddKept s) := by
  constructor <;> intros <;> first | assumption | (exfalso; revert ‹Nat.land _ _ = _›; decide)

theorem addKept_touch {s u : State} (t v g n : Nat) (kept : AddKept s u) : AddKept s (u.touch t v g n) := by
  obtain ⟨⟨groups, tab⟩, block⟩ := kept
  refine ⟨⟨updFirst (fun r => r.tbl == t && r.ver == v && r.g == g)
    (fun x => if x.secondary then x else { x with load := min (x.load + n) 0xFFFFFFFF }) u.tab.groups, ?_⟩, block⟩
  simp [State.touch, State.upGroup, State.upTab, tab]

theorem addKept_bump {s u : State} {off n : Nat} (other : off ≠ CC_BLOCK_ID) (kept : AddKept s u) : AddKept s (u.bump off n) := by
  obtain ⟨⟨groups, tab⟩, block⟩ := kept
  exact ⟨⟨groups, (u.bump_tab off n).trans tab⟩, ((u.bump_regs off n) CC_BLOCK_ID (by simpa using other.symm)).trans block⟩

theorem MT_BW_ne_blockId (t p : Nat) : MT_BW t p ≠ CC_BLOCK_ID := by
  unfold MT_BW CC_BLOCK_ID
  omega

theorem PA_CLAMP_ne_blockId (h : Nat) : PA_CLAMP h ≠ CC_BLOCK_ID := by
  unfold PA_CLAMP holmBase CC_BLOCK_ID
  omega

theorem addKept_charge {s u : State} {tier part n : Nat} {write : Bool} (kept : AddKept s u) : AddKept s (u.charge tier part n write) := by
  unfold State.charge
  split
  · exact kept
  · exact addKept_bump (MT_BW_ne_blockId tier part) kept

/-- An add that is applied changes of the tables the load of its group alone, and no register but its counters. -/
theorem State.applyRow_kept (s : State) (r : TableRec) (x : Group) (recipe row kcmd src seqn part : Nat) (commit : Bool) (g : List F32) :
    AddKept s (s.applyRow r x recipe row kcmd src seqn part commit g).1 := by
  have closed := addKept_closed s
  unfold State.applyRow
  extract_lets f p off acc row_ a s1 s2 s3 n s4 s5 site s6
  have kept1 : AddKept s s1 := inv_putData (closed.mono rfl) (addKept_refl s)
  have kept2 : AddKept s s2 := inv_ite kept1 (inv_invalidateSectors (closed.mono rfl) kept1)
  have kept3 : AddKept s s3 := inv_ite (inv_putData (closed.mono rfl) kept2) kept2
  have kept5 : AddKept s s5 := addKept_touch _ _ _ _ (addKept_charge (addKept_charge kept3))
  split
  · exact addKept_bump (by decide) (addKept_refl s)
  split
  · exact addKept_bump (by decide) (addKept_bump (by decide) (addKept_refl s))
  · refine addKept_bump (by decide) (addKept_bump ?_ kept5)
    split
    · decide
    · exact PA_CLAMP_ne_blockId _

-- The wait of a message of one add

/-- The wait that an ADD opens. -/
def addWaitOf (s : State) (src lane : Nat) (msg : List Byte) : AddWait :=
  { id := 0, src := src, lane := lane, xid := mXid msg, handle := mHandle msg, commit := false, napplied := 0, drops := [], findings := 0, left := 0
    due := s.ctl.now + leAt msg 32 4 * ns }

/-- The acknowledgement of an ADD. -/
def addAckTo (msg : List Byte) (n drops findings : Nat) : List Byte :=
  mkMsg 0x83 0 (mHandle msg) (mXid msg) (leBytes 2 n ++ leBytes 2 drops ++ leBytes 1 findings ++ zeros 3 ++ [])

/-- The denial of an ADD. -/
def addDenialTo (msg : List Byte) : List Byte :=
  mkMsg 0x83 sDenied (mHandle msg) (mXid msg) (leBytes 2 0 ++ leBytes 2 (addsOf msg).length ++ zeros 4 ++
    ((addsOf msg).map (fun a => leBytes 8 a.row ++ leBytes 1 sDenied ++ zeros 7)).flatten)

theorem State.recvAdd_noContext {s : State} {src lane : Nat} {msg : List Byte} (context : leAt msg 22 2 = 0) :
    s.recvAdd src lane msg = (s.deny.bump MT_ADD_DROP (addsOf msg).length).send src lane (addDenialTo msg) := by
  unfold State.recvAdd
  simp only [context, beq_self_eq_true, Bool.true_or, if_true]
  rfl

theorem State.recvAdd_single {s : State} {src lane : Nat} {msg : List Byte} {a : AddIn} {r : TableRec} (context : leAt msg 22 2 ≠ 0)
    (one : addsOf msg = [a]) (record : s.rec? a.tbl = some r) (allowed : ctxDenied r (leAt msg 22 2) false = false) (table : a.tbl = leAt msg 16 3) :
    s.recvAdd src lane msg =
      ((s.openWait (addWaitOf s src lane msg)).2.takeAdds s.tab.nextOp s.remotePart [a]).settleWait s.tab.nextOp := by
  unfold State.recvAdd
  rw [← table, record, one]
  simp only [allowed, Bool.or_false, beq_eq_false_iff_ne.2 context, Bool.false_eq_true, if_false]
  rfl

/-- A single add that is done, under a wait that holds nothing else back: its acknowledgement is sent. -/
theorem State.takeAdds_done {s u : State} {w part : Nat} {a : AddIn} {f : Findings} (taken : s.takeAdd w part a = (u, .done f)) :
    s.takeAdds w part [a] = u.upWait w (fun x => { x with napplied := x.napplied + 1, findings := x.findings ||| f.toByte }) := by
  simp [State.takeAdds, taken]

theorem State.settleWait_sends {s u : State} {src lane w : Nat} {msg : List Byte} (f : Findings) (other : src ≠ u.id)
    (wait : u.tab.addWaits = [{ addWaitOf s src lane msg with id := w }]) :
    (u.upWait w (fun x => { x with napplied := x.napplied + 1, findings := x.findings ||| f.toByte })).settleWait w =
      (u.upTab fun t => { t with addWaits := [] }).send src lane (addAckTo msg 1 0 f.toByte) := by
  let settled : AddWait := { addWaitOf s src lane msg with id := w, napplied := 1, findings := 0 ||| f.toByte }
  let held := u.upWait w (fun x => { x with napplied := x.napplied + 1, findings := x.findings ||| f.toByte })
  have waits : held.tab.addWaits = [settled] := by
    simp [held, settled, State.upWait, State.upTab, wait, updFirst, addWaitOf]
  have closed : (held.upTab fun t => { t with addWaits := t.addWaits.filter fun y => y.id != w }) = u.upTab fun t => { t with addWaits := [] } := by
    have empty : held.tab.addWaits.filter (fun y => y.id != w) = [] := by simp [waits, settled]
    exact congrArg (fun l => u.upTab fun t => { t with addWaits := l }) empty
  have found : held.tab.addWaits.find? (fun x => x.id == w) = some settled := by simp [waits, settled]
  show held.settleWait w = _
  unfold State.settleWait
  rw [found, closed]
  unfold State.answerWait
  have away : settled.src ≠ (u.upTab fun t => { t with addWaits := [] }).id := other
  dsimp only
  rw [if_neg (by simp [settled, addWaitOf]), if_neg away, if_neg (by simp [settled, addWaitOf])]
  simp [settled, addWaitOf, addAckTo]

-- One add

theorem State.takeAdd_repeated {s : State} {w part : Nat} {a : AddIn} {r : TableRec} (record : s.rec? a.tbl = some r)
    (seen : s.recentAdd a = true) : s.takeAdd w part a = (s.bump MT_ADD_DUP 1, .done .none) := by
  unfold State.takeAdd
  rw [record]
  exact if_pos seen

theorem State.mirrorAdd_none {s : State} {w : Nat} {x : Group} (still : x.moving = none) (alone : s.mirrorFor x = none) (d : CopyData) :
    s.mirrorAdd w x d = s := by
  unfold State.mirrorAdd
  rw [alone, still]

theorem State.mirrorFor_unreplicated {s : State} {x : Group} {v : Version} (version : s.ver? x.tbl x.ver = some v)
    (single : (s.pentry v.pmap x.g).repl = false) : s.mirrorFor x = none := by
  unfold State.mirrorFor
  rw [version]
  simp [single]

/-- An add to a row held here in a group that has no other copy is applied and logged. -/
theorem State.takeAdd_applied {s : State} {w part : Nat} {a : AddIn} {r : TableRec} {v : Version} {x : Group} {fl : Findings}
    (record : s.rec? a.tbl = some r) (new : s.recentAdd a = false) (standing : s.verRetired r a.ver = false)
    (version : s.ver? a.tbl a.ver = some v) (group : s.group? a.tbl v.ver (a.row / 4096) = some x) (primary : x.secondary = false)
    (tier : s.tierOut x.tier = false) (stays : x.leaving = false) (still : x.moving = none) (unordered : r.ordered = false)
    (same : x.tbl = a.tbl ∧ x.ver = v.ver ∧ v.ver = a.ver) (single : (s.pentry v.pmap x.g).repl = false) :
    let p := s.applyRow r x (if a.plain || r.recipe == 0 then 0 else r.recipe) a.row a.kcmd a.origin 0 part false a.val
    p.2 = some fl → p.1.pentry v.pmap x.g = s.pentry v.pmap x.g → s.takeAdd w part a = (p.1.logAdd a, .done fl) := by
  intro p applied entry
  obtain ⟨tbl, ver, ver'⟩ := same
  have ⟨⟨groups, tab⟩, _⟩ : AddKept s p.1 := State.applyRow_kept ..
  have logged : p.1.logAdd { a with ver := v.ver } = p.1.logAdd a := rfl
  have alone : (p.1.logAdd a).mirrorFor x = none := by
    refine State.mirrorFor_unreplicated (v := v) ?_ ((congrArg PEntry.repl entry).trans single)
    have vers : (p.1.logAdd a).tab.vers = s.tab.vers := (congrArg Tables.vers tab :)
    unfold State.ver?
    rw [vers, tbl, ver, ver']
    exact version
  unfold State.takeAdd State.addAtGroup State.addHere
  simp only [record, new, standing, version, group, primary, tier, stays, unordered, Bool.false_and, Bool.false_eq_true, if_false]
  have taken : (s.applyRow r x (if (AddIn.isPlain { a with ver := v.ver } r) = true then 0 else r.recipe)
      a.row a.kcmd a.origin 0 part false a.val) = p := rfl
  rw [taken, applied, logged]
  exact congrArg (·, AddEnd.done fl) (State.mirrorAdd_none still alone _)

end Sys2Proof.Machine
end

section
/-! PROOFS. The ADD message: denied, repeated or applied, and answered (06 R233, R236; 09 R358). -/

namespace Sys2Proof.Machine

theorem State.send_parts (s : State) (p l : Nat) (bytes : List Byte) : OnlyParts [.regs, .fab, .sec] s (s.send p l bytes) :=
  inv_send (only_closed s (by decide)) (onlyParts_refl _ s)

/-- What the answer to an ADD does when no wait is left. -/
theorem add_sent {v : State} {p l src : Nat} {bytes msg : List Byte} (can : CanPost p l v) (none_ : v.tab.addWaits = []) :
    ((v.send p l bytes).sweepWaits.take src msg).mem = v.mem ∧ ((v.send p l bytes).sweepWaits.take src msg).tab = v.tab ∧
      Posted p l bytes ((v.send p l bytes).sweepWaits.take src msg) := by
  have parts := v.send_parts p l bytes
  have mem : (v.send p l bytes).mem = v.mem := parts.mem.resolve_left (by decide)
  have tab : (v.send p l bytes).tab = v.tab := parts.tab.resolve_left (by decide)
  rw [State.sweepWaits_none (tab ▸ none_)]
  exact ⟨(State.take_mem ..).trans mem, (State.take_tab ..).trans tab, posted_take (posted_send can bytes)⟩

theorem exec_add {src : BitVec 15} {msg : List Byte} {lane : Nat} {s : State} (alive : s.ctl.life = .alive)
    (asked : Requested src.toNat 0x03 msg lane s) (t : Nat) :
    exec (.add src msg t) s = .next (((s.advance t).recvAdd src.toNat lane msg).sweepWaits.take src.toNat msg) := by
  obtain ⟨code, turn, standing, rfl, -⟩ := asked
  have arm : exec (.add src msg t) s =
      .next (whenAlive s fun s => (s.advance t).onMsg src.toNat msg 0x03 fun s lane => (s.recvAdd src.toNat lane msg).sweepWaits) := rfl
  rw [arm, whenAlive_onMsg alive code turn (.inl standing) t fun u lane => (u.recvAdd src.toNat lane msg).sweepWaits]

theorem canPost_counted {s : State} {p l off n : Nat} (can : CanPost p l s) (other : off ≠ CC_BLOCK_ID) : CanPost p l (s.bump off n) :=
  canPost_of can (s.bump_regs off n CC_BLOCK_ID (by simpa using other.symm)) (congrArg Fabric.routes (s.bump_fab off n))
    (congrArg Fabric.flows (s.bump_fab off n))

theorem add_denied {src : Nat} {msg : List Byte} {lane : Nat} {s : State} (can : CanPost src lane s) (none_ : s.tab.addWaits = [])
    (context : leAt msg 22 2 = 0) :
    ((s.recvAdd src lane msg).sweepWaits.take src msg).mem = s.mem ∧ ((s.recvAdd src lane msg).sweepWaits.take src msg).tab = s.tab ∧
      Posted src lane (addDenialTo msg) ((s.recvAdd src lane msg).sweepWaits.take src msg) := by
  let counted := s.deny.bump MT_ADD_DROP (addsOf msg).length
  have tab : counted.tab = s.tab := (State.bump_tab ..).trans (State.bump_tab ..)
  have mem : counted.mem = s.mem := (State.bump_mem ..).trans (State.bump_mem ..)
  have able : CanPost src lane counted := canPost_counted (canPost_counted can (by decide)) (by decide)
  rw [State.recvAdd_noContext context, ← mem, ← tab]
  exact add_sent able (tab ▸ none_)

/-- The answer to a single add that is done. -/
theorem add_answered {src lane : Nat} {msg : List Byte} {s u : State} {a : AddIn} {r : TableRec} {f : Findings} (can : CanPost src lane s)
    (context : leAt msg 22 2 ≠ 0) (one : addsOf msg = [a]) (record : s.rec? a.tbl = some r)
    (allowed : ctxDenied r (leAt msg 22 2) false = false) (table : a.tbl = leAt msg 16 3)
    (taken : (s.openWait (addWaitOf s src lane msg)).2.takeAdd s.tab.nextOp s.remotePart a = (u, .done f))
    (wait : u.tab.addWaits = [{ addWaitOf s src lane msg with id := s.tab.nextOp }]) (fab : u.fab = s.fab)
    (block : u.reg CC_BLOCK_ID = s.reg CC_BLOCK_ID) :
    ((s.recvAdd src lane msg).sweepWaits.take src msg).mem = u.mem ∧
      ((s.recvAdd src lane msg).sweepWaits.take src msg).tab.recent = u.tab.recent ∧
      Posted src lane (addAckTo msg 1 0 f.toByte) ((s.recvAdd src lane msg).sweepWaits.take src msg) := by
  have able : CanPost src lane u := canPost_of can block (congrArg Fabric.routes fab) (congrArg Fabric.flows fab)
  have ⟨_, _, other, _⟩ := able
  rw [State.recvAdd_single context one record allowed table, State.takeAdds_done taken, State.settleWait_sends f other wait]
  have ⟨mem, tab, posted⟩ := add_sent (v := u.upTab fun t => { t with addWaits := [] }) (src := src) (msg := msg)
    (bytes := addAckTo msg 1 0 f.toByte) able rfl
  exact ⟨mem, (congrArg Tables.recent tab :), posted⟩

/-- An add is applied as `applyRow` says under the wait that its message opens. -/
theorem add_applied {src lane : Nat} {msg : List Byte} {s : State} {a : AddIn} {r : TableRec} {v : Version} {x : Group} {fl : Findings}
    (can : CanPost src lane s) (none_ : s.tab.addWaits = []) (context : leAt msg 22 2 ≠ 0) (one : addsOf msg = [a])
    (record : s.rec? a.tbl = some r) (allowed : ctxDenied r (leAt msg 22 2) false = false) (table : a.tbl = leAt msg 16 3)
    (new : s.recentAdd a = false) (standing : s.verRetired r a.ver = false) (version : s.ver? a.tbl a.ver = some v)
    (group : s.group? a.tbl v.ver (a.row / 4096) = some x) (primary : x.secondary = false) (tier : s.tierOut x.tier = false)
    (stays : x.leaving = false) (still : x.moving = none) (single : (s.pentry v.pmap x.g).repl = false)
    (same : x.tbl = a.tbl ∧ x.ver = v.ver ∧ v.ver = a.ver) (unordered : r.ordered = false) :
    let s1 := (s.openWait (addWaitOf s src lane msg)).2
    let p := s1.applyRow r x (if a.plain || r.recipe == 0 then 0 else r.recipe) a.row a.kcmd a.origin 0 s.remotePart false a.val
    p.2 = some fl → p.1.pentry v.pmap x.g = s.pentry v.pmap x.g →
      ((s.recvAdd src lane msg).sweepWaits.take src msg).mem = p.1.mem ∧
        ((s.recvAdd src lane msg).sweepWaits.take src msg).tab.recent = s.tab.recent ++ [(a.origin, a.handle, a.row, s.ctl.now)] ∧
        Posted src lane (addAckTo msg 1 0 fl.toByte) ((s.recvAdd src lane msg).sweepWaits.take src msg) := by
  intro s1 p applied entry
  have ⟨⟨groups, tab⟩, block⟩ : AddKept s1 p.1 := State.applyRow_kept ..
  have clock : p.1.ctl = s1.ctl :=
    (inv_applyRow (only_closed s1 (by decide)) (onlyParts_refl [.regs, .mem, .poison, .tab, .cache, .spine] s1)).ctl.resolve_left (by decide)
  have wait : p.1.tab.addWaits = [{ addWaitOf s src lane msg with id := s.tab.nextOp }] := by
    rw [tab]
    simp [s1, State.openWait, State.upTab, none_]
  have log : (p.1.logAdd a).tab.recent = s.tab.recent ++ [(a.origin, a.handle, a.row, s.ctl.now)] := by
    have now : p.1.ctl.now = s.ctl.now := congrArg Ctl.now clock
    have recent : p.1.tab.recent = s.tab.recent := (congrArg Tables.recent tab :)
    rw [← now, ← recent]
    rfl
  have taken := State.takeAdd_applied (s := s1) (w := s.tab.nextOp) (part := s.remotePart) record new standing version group primary tier stays still
    unordered same single applied entry
  have ⟨mem, recent, posted⟩ := add_answered can context one record allowed table taken wait (State.applyRow_fab ..) block
  exact ⟨mem, recent.trans log, posted⟩

theorem add_repeated {src lane : Nat} {msg : List Byte} {s : State} {a : AddIn} {r : TableRec} (can : CanPost src lane s)
    (none_ : s.tab.addWaits = []) (context : leAt msg 22 2 ≠ 0) (one : addsOf msg = [a]) (record : s.rec? a.tbl = some r)
    (allowed : ctxDenied r (leAt msg 22 2) false = false) (table : a.tbl = leAt msg 16 3) (seen : s.recentAdd a = true) :
    ((s.recvAdd src lane msg).sweepWaits.take src msg).mem = s.mem ∧
      ((s.recvAdd src lane msg).sweepWaits.take src msg).tab.recent = s.tab.recent ∧
      Posted src lane (addAckTo msg 1 0 0) ((s.recvAdd src lane msg).sweepWaits.take src msg) := by
  let s1 := (s.openWait (addWaitOf s src lane msg)).2
  let counted := s1.bump MT_ADD_DUP 1
  have tab : counted.tab = s1.tab := State.bump_tab ..
  have wait : counted.tab.addWaits = [{ addWaitOf s src lane msg with id := s.tab.nextOp }] := by
    rw [tab]
    simp [s1, State.openWait, State.upTab, none_]
  have taken : s1.takeAdd s.tab.nextOp s.remotePart a = (counted, .done .none) := State.takeAdd_repeated record seen
  have ⟨mem, recent, posted⟩ := add_answered can context one record allowed table taken wait (State.bump_fab ..)
    (s1.bump_regs MT_ADD_DUP 1 CC_BLOCK_ID (by decide))
  exact ⟨mem.trans (State.bump_mem ..), recent.trans (congrArg Tables.recent tab :), posted⟩

theorem add_taken {src : BitVec 15} {msg : List Byte} {lane : Nat} {s : State} (alive : s.ctl.life = .alive) (none_ : s.tab.addWaits = [])
    (asked : Requested src.toNat 0x03 msg lane s) (t : Nat) :
    let ack := fun n drops fl tail => mkMsg 0x83 0 (mHandle msg) (mXid msg) (leBytes 2 n ++ leBytes 2 drops ++ leBytes 1 fl ++ zeros 3 ++ tail)
    ∃ u, exec (.add src msg t) s = .next u ∧ Consumed src.toNat msg s u ∧
      (leAt msg 22 2 = 0 → u.mem = s.mem ∧ u.tab = s.tab ∧ Posted src.toNat lane (mkMsg 0x83 sDenied (mHandle msg) (mXid msg)
        (leBytes 2 0 ++ leBytes 2 (addsOf msg).length ++ zeros 4 ++
          ((addsOf msg).map (fun a => leBytes 8 a.row ++ leBytes 1 sDenied ++ zeros 7)).flatten)) u) ∧
      (∀ a r, leAt msg 22 2 ≠ 0 → addsOf msg = [a] → s.rec? a.tbl = some r → ctxDenied r (leAt msg 22 2) false = false → a.tbl = leAt msg 16 3 →
        s.recentAdd a = true → u.mem = s.mem ∧ u.tab.recent = s.tab.recent ∧ Posted src.toNat lane (ack 1 0 0 []) u) ∧
      (∀ a r v x fl, leAt msg 22 2 ≠ 0 → addsOf msg = [a] → s.rec? a.tbl = some r → ctxDenied r (leAt msg 22 2) false = false →
        a.tbl = leAt msg 16 3 → s.recentAdd a = false → s.verRetired r a.ver = false → s.ver? a.tbl a.ver = some v →
        s.group? a.tbl v.ver (a.row / 4096) = some x → x.secondary = false → s.tierOut x.tier = false → x.leaving = false →
        x.moving = none → (s.pentry v.pmap x.g).repl = false → x.tbl = a.tbl → x.ver = v.ver → v.ver = a.ver → r.ordered = false →
        let s1 := ((s.advance t).openWait { id := 0, src := src.toNat, lane := lane, xid := mXid msg, handle := mHandle msg, commit := false
                                            napplied := 0, drops := [], findings := 0, left := 0, due := max s.ctl.now t + leAt msg 32 4 * ns }).2
        let p := s1.applyRow r x (if a.plain || r.recipe == 0 then 0 else r.recipe) a.row a.kcmd a.origin 0 s.remotePart false a.val
        p.2 = some fl → p.1.pentry v.pmap x.g = s.pentry v.pmap x.g →
        u.mem = p.1.mem ∧ u.tab.recent = s.tab.recent ++ [(a.origin, a.handle, a.row, max s.ctl.now t)] ∧
        Posted src.toNat lane (ack 1 0 fl.toByte []) u) := by
  have ⟨_, _, _, _, can⟩ := asked
  have can : CanPost src.toNat lane (s.advance t) := can
  refine ⟨_, exec_add alive asked t, consumed_take ((State.sweepWaits_inbox ..).trans (State.recvAdd_inbox ..)), ?_, ?_, ?_⟩
  · exact fun context => add_denied can none_ context
  · intro a r context one record allowed table seen
    exact add_repeated can none_ context one record allowed table seen
  · intro a r v x fl context one record allowed table new standing version group primary tier stays still single
      tbl ver ver' unordered s1 p applied entry
    exact add_applied (s := s.advance t) can none_ context one record allowed table new standing version group primary tier stays still single
      ⟨tbl, ver, ver'⟩ unordered applied entry

/-- Settles O46: every message is taken by `State.onMsg`, which leaves the rest of the inbox alone; what each then does is said once above. -/
theorem addsDoorbellsAndRegisters : Obligations.AddsDoorbellsAndRegisters := by
  unfold Obligations.AddsDoorbellsAndRegisters
  refine ⟨?_, ?_, ?_, ?_, ?_, ?_, ?_⟩
  · exact fun src msg t lane s alive none_ asked => add_taken alive none_ asked t
  · exact fun src msg t x s alive quiet code turn found kind ok whole free => addAck_taken alive quiet code turn found kind ok whole free t
  · exact fun t s alive none_ => recentAddLogExpiry_taken alive none_ t
  · exact fun src msg t s alive code turn standing below => remoteDoorbell_taken alive code turn standing t below
  · exact fun src msg t lane s alive asked => reg_taken alive asked t
  · exact fun src msg s alive code turn => ⟨_, regReply_dropped alive code turn, rfl, s.take_parts src.toNat msg⟩
  · exact fun t s alive => regReplyRetentionExpiry_taken alive t

end Sys2Proof.Machine
end
